-- ==== Sys2Proof/Word.lean ====
section
/-! DEFINITION. The word types of the GMA9140 model: the byte, the 32-bit register word and the 64-bit check.
Register words are 32 bits wide and little-endian (00 R14). -/

namespace Sys2Proof

/-- One byte. -/
abbrev Byte := BitVec 8

/-- One register word (00 R14). -/
abbrev Word := BitVec 32

/-- One end-to-end check (01 R24, 08 R230). -/
abbrev Check := BitVec 64

end Sys2Proof
end

