-- ==== Sys2Proof/Syntax.lean ====
section
/-! DEFINITION. The commands of the GMA9140: one constructor per row of spec/opcode_table.json, and the types of
their operands. An operand is what the outside supplies with the command: the fields of a host command, the
value written to a register, the contents of a frame, or what only the physical world decides (a decode outcome, a
program status, a temperature), log entry 8. -/

namespace Sys2Proof

/-- Host ports and peer ports are lettered A and B (00 R9). Controller 1 is on port A and controller 2 on port B (04 R100). -/
inductive Port | a | b
  deriving DecidableEq, Repr

/-- One logical block: 4096 data bytes and 64 bytes of host metadata, zero where the namespace carries none (07 R203). -/
structure Blk where
  data : List Byte
  hm   : List Byte
  deriving DecidableEq, Repr

/-- What every host command carries: its port, its submission queue (0 is the admin queue), its command
identifier, and how many CLK_CORE cycles after the previous host command it was accepted (00 glossary,
arrival stamp; log entry 4). -/
structure Hdr where
  port : Port
  sq   : Nat
  cid  : Nat
  dt   : Nat
  deriving DecidableEq, Repr

/-- The second command of a fused pair when it is a Write (04 R113). -/
structure FusedWrite where
  cid  : Nat
  nsid : Nat
  slba : Nat
  nlb1 : Nat
  fua  : Bool
  blk  : Blk
  deriving DecidableEq, Repr

/-- What SFDP declares of the configuration flash (03 R67, R68). -/
structure Sfdp where
  dual : Bool
  quad : Bool
  deriving DecidableEq, Repr

/-- How the SPI data lines read during one block (03 R94 text: a stuck-low line reads as zeros, an absent flash as ones). -/
inductive SpiLine | clean | stuckLow | stuckHigh
  deriving DecidableEq, Repr

/-- The voltages measured on the four Halyard straps, in mV (02 R39, 16 R432). -/
structure HlyStraps where
  dvdt : Nat
  cl   : Nat
  ft   : Nat
  rty  : Nat
  deriving DecidableEq, Repr

/-- The voltages measured on the three start-up straps, in mV (03 R65, 04 R122, 16 R432). -/
structure BootStraps where
  imgSel   : Nat
  pcieMode : Nat
  smbAddr  : Nat
  deriving DecidableEq, Repr

/-- How the hard decode of one codeword ended (07 R204, R205). -/
inductive HardDecode
  | converged (bits : Nat)   -- every parity check satisfied, with this many bits corrected
  | badCheck (bits : Nat)    -- converged, but MCRC or CHECK fails
  | failed                   -- not converged after 20 iterations
  deriving DecidableEq, Repr

/-- A data block of a braid set: FORM 0x0 of 06 R154. -/
structure MAddr where
  set   : Nat
  block : Nat
  deriving DecidableEq, Repr

/-- Codewords of one page that needed the soft-read ladder: how many of them a level of it, 1 to 3, decoded; level 4 stands for those that no level
decoded (07 R206). -/
structure SoftRead where
  unit  : Nat
  page  : Nat
  level : Nat
  words : Nat
  deriving DecidableEq, Repr

/-- How the source blocks of a relocation read: the media blocks that cannot be recovered, and the pages that needed the ladder (06 R168, 07
R206). -/
structure RelocReads where
  lost : List MAddr
  soft : List SoftRead
  deriving DecidableEq, Repr

/-- How one page of a patrol visit read (11 R327, R330). -/
inductive PatrolPage
  | good                     -- every codeword decodes within R32
  | weak (level words : Nat) -- a condition of R32 holds: so many codewords needed a ladder level, or at level 0 many bits were corrected
  | unrecovered (badCheck : Bool)   -- a codeword fails its check, or is left after level 3
  | erased                   -- more than 99 % ones
  deriving DecidableEq, Repr

/-- How the whipping header of a visited unit read (08 R219, 11 R330). -/
inductive HeaderRead
  | copy (c : Nat)           -- copy c is the first that decodes and passes its HCRC
  | none                     -- no copy passes
  | erased                   -- more than 99 % ones
  | foreign (magic version part : Nat)   -- every copy decodes and passes its HCRC, with these values (08 R233)
  deriving DecidableEq, Repr

/-- One patrol visit: the header, then the sample pages (11 R327). -/
structure PatrolVisit where
  header : HeaderRead
  pages  : List PatrolPage
  deriving DecidableEq, Repr

/-- Supplies whose monitor RAIL_UNDER_VOLTAGE reports: the rails, and the hold-up bank below 33.0 V (02 R49, 16 R433). -/
inductive Rail | io | core | sram | serdes | vccq | vdd1 | vdd2 | vddq | holdupBank
  deriving DecidableEq, Repr

/-- Why the core orders the gate low (02 R45, R447). -/
inductive GateOrder | deviceReset | thermal | powerOff
  deriving DecidableEq, Repr

/-- What makes an input loss (02 R49, R57). -/
inductive LossKind | vinLow | voutLost
  deriving DecidableEq, Repr

/-- What a target's ONFI or JESD230 parameter page reports for the part's native mode (03 R86). -/
structure ParamPage where
  data  : Nat        -- data bytes per page
  spare : Nat        -- spare bytes per page
  pages : Nat        -- pages per erase unit
  units : Nat        -- erase units per die
  dies  : Nat        -- dies per target
  deriving DecidableEq, Repr

/-- What one channel start finds at one fitted target (07 R190, 03 R86). -/
structure TargetStart where
  target : Nat
  page   : ParamPage
  deriving DecidableEq, Repr

/-- What a channel start finds: the targets that are ready and their parameter pages, and the training attempts in a row that fail (07 R190). -/
structure ChanStart where
  targets    : List TargetStart
  trainFails : Nat
  deriving DecidableEq, Repr

/-- What one patrol cycle finds: the starts of its group's channels, from DEEP, and its visits (11 R327, R329). -/
structure PatrolTurn where
  starts : List ChanStart
  visits : List PatrolVisit
  deriving DecidableEq, Repr

/-- The outcome of an array operation, and whether R/B_N has read high while the operation's status still showed busy (07 R208). -/
structure Polled (α : Type) where
  result : α
  rbHigh : Bool
  deriving DecidableEq, Repr

/-- What CC.EN is set with: the port, and the 0-based admin queue sizes of AQA (04 R108). -/
structure Enable where
  port : Port
  asqs : Nat
  acqs : Nat
  deriving DecidableEq, Repr

/-- The status of a MIRROR_ACK or LB_ACK, and how the DRAM copy verifies again where that is CHECK_FAILED (09 R245). -/
structure AckStatus where
  status : Nat
  dramOk : Bool
  deriving DecidableEq, Repr

/-- The link-level fields of a received Yeldo frame (09 R239). -/
structure Frm where
  port  : Port
  link  : Nat
  seq   : BitVec 24
  ack   : BitVec 24
  grant : Vector (BitVec 12) 4
  deriving DecidableEq, Repr

/-- The message head of a received DATA frame but for its opcode (09 R243). -/
structure Head where
  tag    : Nat
  nsid   : Nat
  slba   : Nat
  gseq   : Nat
  nlb1   : Nat
  ext    : Nat
  layout : Nat
  deriving DecidableEq, Repr

/-- A mirrored block: data, metadata, and the end-to-end check sent with it (09 R243). -/
structure CheckedBlk where
  blk   : Blk
  check : Check
  deriving DecidableEq, Repr

/-- A block record of VC2 (10 R288). -/
structure BlockRec where
  check    : Check
  gseq     : Nat
  unmapped : Bool
  lost     : Bool
  blk      : Blk
  deriving DecidableEq, Repr

/-- The handshake payload of HELLO and HELLO_ACK (09 R253). -/
structure Hello where
  nodeId   : Nat
  powerOn  : Nat
  rxValid  : Bool
  width    : Nat
  rxLast   : BitVec 24
  txOldest : BitVec 24
  txNext   : BitVec 24
  resume   : BitVec 24
  imageGen : Nat
  startId  : BitVec 32
  deriving DecidableEq, Repr

/-- Why a frame is discarded (09 R237, R240, R248, 10 R288). -/
inductive Discard
  | ethertype | vlan | destination | source | tooLong | lenBeyond | version
  | unknownType | unknownOp (len : Nat) | trailer | ahead | behind | overrun
  deriving DecidableEq, Repr

/-- The states an order or a timer names (11 R313). -/
inductive PwrState | run | idle | sleep | deep | off
  deriving DecidableEq, Repr

/-- One conversion of a temperature input, in units of 0.0625 °C (12 R333, R337). -/
structure Reading where
  value : Int      -- units of 0.0625 °C
  raw   : Nat      -- the raw code, dither included
  fault : Bool     -- a diode whose current-ratio measurement shows an open or a short circuit
  deriving DecidableEq, Repr

/-- A word found in the memory scrub or on an access (14 R390). -/
inductive MemWord
  | corrected (mem : Nat)                 -- 0 DRAM, 1 SRAM, 2 MRAM
  | uncorrectable (mem addr : Nat)
  deriving DecidableEq, Repr

/-- The measurements of one fid (07 R213, R214): the ones density of each sample page in units of 0.1 %; for each
level the mode uses the ones counted at each sweep offset in ascending order; and the bits corrected over the
sample's pages at the present and the new offsets (none: some codeword did not converge). -/
structure FidRun where
  density : List Nat
  sweep   : List (List Nat)
  bitsCur : Option Nat
  bitsNew : Option Nat
  deriving DecidableEq, Repr

/-- The routing registers of EVT (15 R409). -/
inductive Route | log | msix | aen | alert | smbalert
  deriving DecidableEq, Repr

/-- Which throttle step (12 R340): the die step, or the NAND step of a NAND zone. -/
inductive StepId | die | nand0 | nand1
  deriving DecidableEq, Repr

/-- The commands of the block, one per row of spec/opcode_table.json, in the table's order. -/
inductive Instr
  | coldReset
  | deviceReset
  | warmReset (p : Port)
  | controllerReset (p : Port)
  | controllerEnable (e : Enable)
  | functionLevelReset (p : Port)
  | bar2MisalignedAccess (p : Port) (write : Bool) (off size : Nat)
  | registerWrite (p : Port) (off : Nat) (v : Word)
  | rcRegisterRead (p : Port) (off : Nat)
  | rwsWrite (p : Port) (off : Nat) (v : Word)
  | doorbellWrite (p : Port) (sq tail : Nat)
  | smbSelectBlock (code : Nat) (pecOk : Bool)
  | smbSetOffset (off : Nat) (pecOk : Bool)
  | smbRegisterRead
  | smbRegisterWrite (v : Word) (pecOk : Bool)
  | basicManagementCode0
  | basicManagementCode8
  | nvmeMiRefresh
  | alertResponse
  | smbusStuckTimeout (failed : Bool)
  | smbusIdleTimeout
  | write (h : Hdr) (nsid slba nlb1 : Nat) (fua : Bool)
  | read (h : Hdr) (nsid slba nlb1 : Nat)
  | flush (h : Hdr) (nsid : Nat)
  | compare (h : Hdr) (nsid slba nlb1 : Nat) (data : List Blk)
  | fusedCompareAndWrite (h : Hdr) (nsid slba nlb1 : Nat) (data : Blk) (second : Option FusedWrite)
  | writeZeroes (h : Hdr) (nsid slba nlb1 : Nat)
  | datasetManagement (h : Hdr) (nsid : Nat) (ad : Bool) (ranges : List (Nat × Nat))
  | verify (h : Hdr) (nsid slba nlb1 : Nat)
  | reservationRegister (h : Hdr) (nsid rrega : Nat) (iekey : Bool) (cptpl : Nat) (crkey nrkey : BitVec 64)
  | reservationReport (h : Hdr) (nsid : Nat)
  | reservationAcquire (h : Hdr) (nsid racqa rtype : Nat) (iekey : Bool) (crkey prkey : BitVec 64)
  | reservationRelease (h : Hdr) (nsid rrela rtype : Nat) (iekey : Bool) (crkey : BitVec 64)
  | deleteIoSubmissionQueue (h : Hdr) (qid : Nat)
  | createIoSubmissionQueue (h : Hdr) (qid qsize cqid : Nat) (pc : Bool)
  | deleteIoCompletionQueue (h : Hdr) (qid : Nat)
  | createIoCompletionQueue (h : Hdr) (qid qsize iv : Nat) (ien pc : Bool)
  | getLogPage (h : Hdr) (lid lpo len : Nat) (rae : Bool)
  | identify (h : Hdr) (cns nsid cntid : Nat)
  | abort (h : Hdr) (sqid cid : Nat)
  | setFeatures (h : Hdr) (fid : Nat) (sv : Bool) (nsid : Nat) (value : Word) (hostId : BitVec 128)
  | getFeatures (h : Hdr) (fid sel nsid : Nat) (cdw11 : Word)
  | asynchronousEventRequest (h : Hdr)
  | keepAlive (h : Hdr)
  | keepAliveExpiry (p : Port)
  | imageStage (h : Hdr) (block count : Nat) (first last : Bool) (copy : Nat) (data : List Byte) (sfdp : Option Sfdp)
  | stagingComplete
  | loadStore (h : Hdr) (slot kslot : Nat)
  | loadClear (h : Hdr) (slot : Nat) (key256 : Bool) (buf : List Byte)
  | encrypt (h : Hdr) (slot count : Nat) (buf : List Byte)
  | decrypt (h : Hdr) (slot count : Nat) (buf : List Byte)
  | cmacUpdate (h : Hdr) (slot count : Nat) (buf : List Byte)
  | cmacFinal (h : Hdr) (slot count : Nat) (padded : Bool) (buf : List Byte)
  | cmacReset (h : Hdr) (slot : Nat)
  | free (h : Hdr) (slot : Nat)
  | cleatContextSave (h : Hdr) (slot : Nat) (wrapped : Bool)
  | cleatContextRestore (h : Hdr) (slot : Nat) (wrapped : Bool) (buf : List Byte)
  | start (h : Hdr) (nsid newLayout : Nat) (autoSwitch : Bool)
  | continue (h : Hdr) (nsid : Nat)
  | abortSplice (h : Hdr) (nsid : Nat)
  | switch (h : Hdr) (nsid : Nat)
  | spliceStatus (h : Hdr) (nsid : Nat)
  | enter (h : Hdr) (st : PwrState)
  | patrolNow (h : Hdr)
  | setCeiling (h : Hdr) (st : PwrState)
  | query (h : Hdr)
  | bufferTokenGrant
  | logicalBlockArrival (ext idx : Nat) (blk : Blk)
  | intentAdmit (ext : Nat) (checksOk : Bool)
  | recordDurable
  | extentPlacement (ext : Nat) (close : Bool) (checksOk : Bool) (src : RelocReads)
  | programStatus (prog : Nat) (ok : Polled Bool) (metaOk : Bool)
  | nandReadComplete (rid : Nat) (words : Polled (List HardDecode)) (row : List Nat)
  | softDecodeDone (rid : Nat) (left : List Nat) (badCheck : List Nat) (row : List Nat)
  | mirrorAck (f : Frm) (m : Head) (a : AckStatus)
  | vinRise (straps : HlyStraps)
  | checkTimerExpiry
  | shortedPassTimeout
  | voutReached
  | rampTimeout
  | gateEnhanced
  | enhanceTimeout (voutFollowed : Bool)
  | currentLimitReached
  | limitRecovered
  | voutCollapse
  | faultTimerExpiry (atBound : Bool)
  | retryTimerExpiry
  | inputLoss (kind : LossKind)
  | inputOverVoltage
  | overVoltageEnd (straps : HlyStraps)
  | sysRstNFall
  | sysRstNRise (straps : HlyStraps)
  | testModeRise
  | testModeFall (straps : HlyStraps)
  | gateLowOrder (o : GateOrder)
  | deviceResetHoldExpiry
  | bankReserveReached
  | holdupTimeout
  | spillProgramStatus (ext : Nat) (ok : Bool) (failed : List Nat)
  | railUnderVoltage (r : Rail)
  | vddAonLoss
  | bankCharged
  | holdupMeasurementDue
  | measNow (p : Port) (v : Word)
  | holdupMeasurementDone (capNf esrUohm : Nat)
  | railsGood
  | pllLock (clkRef : Bool) (straps : BootStraps) (dieHot : Bool)
  | crystalSwitch
  | crystalLost
  | clkRefAbsentTimeout
  | clkRefAppear
  | imageBlockRead (line : SpiLine) (sfdp : Option Sfdp)
  | imageBlockVerified
  | journalScan (failing : List Nat)
  | survey (unreadable : List (Nat × Nat))
  | replay (restart : Bool)
  | mapLoad (headers : List (Nat × HeaderRead)) (badPages : Nat)
  | hostReady
  | hostReadyLate
  | pcieLinkUp (p : Port) (speed width : Nat)
  | pcieLinkDown (p : Port)
  | pcieUncorrectableError (p : Port)
  | perstNAssert (p : Port)
  | perstHeldTimeout
  | perstNRelease (p : Port)
  | checkpointBegin (reason : Nat)
  | checkpointEnd
  | carryForward
  | auditImbalanceTimeout (quantity : Nat)
  | heatSweep (hank : Nat) (src : RelocReads)
  | fold (src : RelocReads)
  | garbageCollection (src : RelocReads)
  | setErase (set : Nat)
  | eraseStatus (unit : Nat) (ok rbHigh : Bool)
  | rewrite (src : RelocReads)
  | channelStart (ch : Nat) (targets : List TargetStart) (trainFails : Nat)
  | channelRetrain (ch : Nat) (trainFails : Nat)
  | suspendComplete (die ranUs : Nat)
  | suspendTimeout (die : Nat)
  | targetBusyTimeout (ch tgt : Nat) (row : Polled (List (Nat × Nat)))
  | rbLowTimeout (ch tgt : Nat) (row : List (Nat × Nat))
  | resetReadyTimeout (ch tgt : Nat)
  | fid (die bucket : Nat) (r : FidRun)
  | fidDue (die bucket : Nat)
  | fidReq (p : Port) (v : Word)
  | ack (f : Frm)
  | nak (f : Frm)
  | hello (p : Port) (link : Nat) (h : Hello)
  | helloAck (p : Port) (link : Nat) (h : Hello)
  | order (f : Frm) (m : Head) (kind : Nat) (args : List Byte)
  | response (f : Frm) (m : Head) (status : Nat)
  | tieoffNotice (f : Frm) (m : Head) (cause wakeAddr : Nat)
  | mirrorWrite (f : Frm) (m : Head) (extNlb1 extOff : Nat) (blks : List CheckedBlk)
  | statusReq (f : Frm) (m : Head)
  | status (f : Frm) (m : Head) (pstate : Nat) (stopper : Bool) (imageGen : Nat) (critical : Byte)
  | lbWrite (f : Frm) (m : Head) (dealloc : Bool) (extNlb1 extOff : Nat) (blks : List CheckedBlk)
  | lbDelta (f : Frm) (m : Head) (j : Nat) (blks : List CheckedBlk)
  | lbAck (f : Frm) (m : Head) (a : AckStatus)
  | readReq (f : Frm) (m : Head) (parity : Nat)
  | readData (f : Frm) (m : Head) (recs : List BlockRec)
  | splicePrepare (f : Frm) (m : Head) (id bytes : Nat)
  | spliceReply (f : Frm) (m : Head) (status : Nat) (folds : List Check)
  | spliceCopy (f : Frm) (m : Head) (id : Nat) (recs : List BlockRec)
  | foldReq (f : Frm) (m : Head) (id hanks : Nat)
  | splicePhase (f : Frm) (m : Head) (id phase nextGseq : Nat)
  | release (f : Frm) (m : Head)
  | recopy (f : Frm) (m : Head) (id : Nat) (recs : List BlockRec)
  | ackDelayExpiry (p : Port) (link : Nat)
  | keepaliveTimer (p : Port) (link : Nat)
  | livenessLost (p : Port) (link : Nat)
  | helloTimer (p : Port) (link : Nat)
  | handshakeTimeout (p : Port) (link : Nat)
  | ackTimeout (p : Port) (link : Nat)
  | phyUp (p : Port) (slow : Bool)
  | phyLost (p : Port)
  | trainingAttemptTimeout (p : Port)
  | wakeSend (p : Port) (v : Word)
  | wakePattern (p : Port) (addr compl : Byte)
  | signalEnergy (p : Port)
  | degradeTimeout (p : Port) (link : Nat) (nsid : Nat)
  | rebuild (src : RelocReads)
  | spliceBuild (id : Nat)
  | spliceVerify (id : Nat)
  | switchTimeout (id : Nat)
  | spliceRelease (id : Nat)
  | idleTimerExpiry (idleUs : Nat)
  | participantAnswer (agree : Bool) (reason : Nat)
  | participantTimeout
  | smbGo (st : Nat)
  | l1Exit (p : Port)
  | wakeInNFall
  | wakeInHeldTimeout
  | patrolCycle (group : Nat) (turn : PatrolTurn)
  | patrolRead (group : Nat) (visits : List PatrolVisit)
  | sensorSample (rs : Vector Reading 8)
  | thermalGraceExpiry
  | stepTimerExpiry (i : StepId)
  | dramTemperatureRead (code0 code1 : Nat)
  | compensation
  | calibration (aonPpm refIntPpm clkRefPpm : Int)
  | recordFlashProgramDone (bank : Fin 2) (ok : Bool)
  | recordFlashEraseDone (bank : Fin 2) (ok : Bool)
  | recwinRead (p : Port) (off : Nat) (flips : List Nat)
  | recwinWrite (p : Port) (off : Nat) (v : Word)
  | hold (p : Port)
  | holdExpiry
  | program (p : Port) (v : Word)
  | erase (p : Port) (v : Word)
  | refresh (bank : Fin 2) (sector corrected uncorrectable : Nat)
  | levelRaise (p : Port) (v : Word)
  | levelLower (p : Port) (v : Word)
  | pin (p : Port) (v gen : Word)
  | unpin (p : Port) (v : Word)
  | heartbeatMissed (source : Nat)
  | lockstepMismatch (pair : Nat)
  | scrub (found : List MemWord)
  | clockLost (domain : Nat)
  | frequencyCheckWindow (domain count nominal : Nat)
  | supplyDisagree (rail : Nat)
  | faultNReadback (padHigh : Bool) (lastedMs : Bool)
  | selfTest (failing : List Nat)
  | liveToggleLost
  | stopperMediaHalt
  | stopReset (p : Port) (v : Word)
  | smbStopReset (v : Word)
  | stopHoldExpiry
  | eventLogWrite
  | evtStatusClear (g : Fin 16) (v : Word)
  | routingWrite (r : Route) (g : Fin 16) (v : Word)
  | timeMark
  | invalidCommandOpcode (h : Hdr) (opcode : Nat)
  | configurationRequest (p : Port) (reg : Nat)
  | frameDiscarded (f : Frm) (why : Discard)
  | window10ms
  | thermalRecordWaitTimeout
  deriving DecidableEq, Repr

end Sys2Proof
end

