-- ==== Sys2Proof/Decode.lean ====
section
/-! DEFINITION. The command that a word spells. No row of spec/opcode_table.json gives bits: the GMA9140 decodes no
instruction words (00 R2), so no word spells a command. -/

namespace Sys2Proof

/-- The command that the table's bits spell: none, for no row gives bits. -/
def decodeTableWord (_nbits _w : Nat) : Option Instr := none

end Sys2Proof
end

