-- ==== Sys2Proof/Config.lean ====
section
/-! DEFINITION. What one GMA9140 fixes: the constants of the silicon that the spec states, and the free values, which
it leaves open. A free value is a constant without a body, so that nothing can be proved of it; log entry 7. -/

namespace Sys2Proof.Config

/-- Free values of the chip, one for each reading of the State's counter (log entry 7). -/
opaque freeNat : Nat → Nat

/-- Free choices of the chip, one for each reading of the State's counter (log entry 7). -/
opaque freeBool : Nat → Bool

/-- Of two strap levels that give the same setting, the lower (true) or the higher is shown when a strap reads between
them (02 R38 leaves the choice open; log entry 9). Arguments: the strap's place in 02 R39, the lower level. -/
opaque strapTieLower : Nat → Nat → Bool

/-- The fused store key, 32 bytes, never readable (13 R374); log entry 10. -/
opaque storeKey : Nat → Byte

/-- The fused context key, 32 bytes, never readable (13 R374); log entry 10. -/
opaque contextKey : Nat → Byte

/-- The codes that ONFI 5.0 defines for DRIVE, ODT and VREFQ in a mode (07 R192, R193): the standard is not in the
spec; log entry 11. Arguments: 0 DRIVE, 1 ODT, 2 VREFQ; the mode; the code. -/
opaque onfiCode : Nat → Nat → Nat → Bool

/-- The refresh-rate setting JESD209-5 asks for at a code of mode register 4 (12 R336): the standard is not in the
spec; log entry 11. -/
opaque dramRate : Nat → Nat

/-- Whether JESD209-5 defines the code of mode register 4 as above the high temperature limit (12 R336); log entry 11. -/
opaque dramTooHot : Nat → Bool

/-- Trims fused at manufacture, in code units, by item of 12 R351; log entry 10. -/
opaque fusedTrim : Nat → Int

/-- The reach of each trim, in code units, by item of 12 R351 (the spec gives no figure); log entry 10. -/
opaque trimReach : Nat → Nat

/-- The bytes of the state area of a checkpoint, which holds the read levels and the patrol position, and the dirty bitmaps beside it: the spec
gives them no layout (05 R136, 10 R303); log entry 13. Arguments: the levels, the positions, the bitmaps. -/
opaque stateArea : List (Nat × List Int) → List (Nat × Nat) → List (Nat × List Nat) → List Byte

/-- The page address of the root page of a checkpoint's dirty bitmap, by CKPT_NUM (10 R303 leaves its place open); log entry 13. -/
opaque bitmapPage : Nat → Nat

/-- Entries of an I/O queue that CAP shows in the no-image state, where no HOST section gives them (03 R93 names one pair and no depth);
log entry 66. -/
opaque noImageDepth : Nat

/-- The dword of the configuration space at which a capability stands, by its identifier, 0x100 more for an extended one (04 R101 names the
capabilities and no places); log entry 43. -/
opaque capabilityAt : Nat → Nat

/-- The code that IEEE 1149.1 gives an instruction of the boundary-scan port and the device's identification code: the standard is not in the spec
(16 R441); log entry 65. -/
opaque tapCode : Nat → Nat
opaque idCode : BitVec 32

/-- The SET of a whipping header of a unit of no braid set (08 R220). -/
def noSet : Nat := 2 ^ 32 - 1

/-- Raw NAND capacity, at most 256 TiB (01 R21). -/
def rawMax : Nat := 2 ^ 48

/-- PCI Vendor ID, Device ID and Revision ID (04 R101). -/
def vendorId : Nat := 0x1FB2
def deviceId : Nat := 0x9140
def revisionId : Nat := 0x10

/-- The part number of DEV, of the image header and of the whipping header (15 DEV, 03 R74, 08 R220). -/
def part : Nat := 0x9140

/-- The device key: the ASCII characters GHEUNE-AREVO-IMG (03 R72). -/
def deviceKey : List Byte :=
  [0x47, 0x48, 0x45, 0x55, 0x4E, 0x45, 0x2D, 0x41, 0x52, 0x45, 0x56, 0x4F, 0x2D, 0x49, 0x4D, 0x47]

/-- Token budget before a measurement, its floor and its ceiling (02 R54, R55). -/
def budgetDefault : Nat := 65536
def budgetFloor : Nat := 16384
def budgetMax : Nat := 262144

/-- Journal slots, and slots of one half (05 R128). -/
def slots : Nat := 524288
def halfSlots : Nat := 262144

/-- Record writes in flight at once (05 R131). -/
def inFlightMax : Nat := 8

/-- Open extents, live records of other types and scheduled rewrites at most (05 R134). -/
def openMax : Nat := 57344
def rewriteMax : Nat := 4096

/-- Strand groups, and the reserve of groups (06 R156, R162). -/
def groups : Nat := 16777216
def groupReserve : Nat := 65536

/-- Pool set indices and all set indices (06 R151). -/
def poolSets : Nat := 32768
def setIndices : Nat := 524288

/-- Temperature thresholds of 12 R338, in units of 0.0625 °C. -/
def dieWarn : Int := 85 * 16
def dieOn : Int := 95 * 16
def dieOff : Int := 90 * 16
def dieCrit : Int := 105 * 16
def dieShut : Int := 115 * 16
def nandOn : Int := 70 * 16
def nandOff : Int := 65 * 16
def nandShut : Int := 85 * 16

end Sys2Proof.Config
end

