-- ==== Sys2Proof/Machine/Catalog.lean ====
section
/-! DEFINITION. The event catalogue of 15 R415 and the default routing of 15 R409. -/

namespace Sys2Proof.Machine

/-- Event classes (00 R19), as the log entry codes them (15 R419). -/
inductive Class | info | notice | error | danger
  deriving DecidableEq, Repr

/-- The code of a class in GC (15 R419). -/
def classCode : Class → Nat
  | .info => 0
  | .notice => 1
  | .error => 2
  | .danger => 3

/-- The class of the event of place k in a channel's four bits (15 R415, groups 6 and 7). -/
def channelClass (k : Nat) : Class := if k % 4 < 2 then .notice else .error

/-- The class of a bit of groups 2 and 3 (15 R415). -/
def hostClass (g bit : Nat) : Option Class :=
  match bit with
  | 0 => some .info
  | 1 => some .notice
  | 2 => some .info
  | 3 => some .notice
  | 4 => some .notice
  | 5 => some .error
  | 6 => some .error
  | 7 => some .error
  | 8 => some .error
  | 9 => some .notice
  | 10 => some .error
  | 24 => some .notice
  | 26 => if g = 2 then some .notice else none
  | 29 => if g = 2 then some .notice else none
  | 30 => if g = 2 then some .error else none
  | _ => none

/-- The class codes of the first bits of a group; 4 for a reserved bit (15 R415). -/
def classCodes : Nat → List Nat
  | 0 => [0, 0, 1, 1, 2, 2, 2, 2, 1]
  | 1 => [0, 1, 2, 1, 0, 2, 1, 1, 1, 1, 2, 1, 0, 0]
  | 4 => [0, 4, 1, 1, 1, 1, 0, 1, 2, 4, 4, 4, 4, 4, 4, 4, 4, 4, 4, 4, 3, 3, 3]
  | 5 => [0, 1, 1, 1, 1, 1, 4, 1, 2, 0, 4, 4, 2, 4, 4, 4, 4, 4, 4, 4, 4, 3]
  | 8 => [0, 1, 4, 4, 2, 2, 4, 4, 4, 1, 1, 4, 1, 2]
  | 9 => [0, 1, 1, 1, 1, 1, 1, 2, 1, 0, 0, 1, 2, 1]
  | 10 => [0, 1, 1, 1, 1, 1, 1, 2, 1, 0, 0, 1, 2, 1]
  | 11 => [0, 1, 1, 1, 2, 0, 0, 1, 1, 0, 2, 1, 1, 0, 1, 1]
  | 12 => [0, 0, 4, 4, 1, 1, 0, 1, 2, 1, 1, 1]
  | 13 => [1, 1, 0, 2, 2, 2, 1, 1, 1, 0, 1, 0, 1, 1]
  | 14 => [0, 1, 4, 2, 0, 1, 2, 0, 1, 1, 2, 1]
  | 15 => [0, 3, 3, 3, 3, 3, 3, 3, 3, 3, 1, 1, 2]
  | _ => []

/-- The class of a code. -/
def codeClass : Nat → Option Class
  | 0 => some .info
  | 1 => some .notice
  | 2 => some .error
  | 3 => some .danger
  | _ => none

/-- The class of event g.bit; none for a reserved event (15 R415). -/
def eventClass (g bit : Nat) : Option Class :=
  if g = 2 ∨ g = 3 then hostClass g bit
  else if g = 6 ∨ g = 7 then (if bit < 32 then some (channelClass bit) else none)
  else match (classCodes g)[bit]? with
    | some c => codeClass c
    | none => none

/-- The bits of a group that a predicate on their class picks, as a register word. -/
def classMask (p : Class → Bool) (g : Nat) : BitVec 32 :=
  (List.range 32).foldl (fun w b =>
    match eventClass g b with
    | some c => if p c then w ||| (1#32 <<< b) else w
    | none => w) 0#32

/-- NOTICE events that also default to ALERT and SMBALERT (15 R409). -/
def noticeAlerts : List (Nat × Nat) :=
  [(11, 8), (12, 9), (13, 0), (13, 1), (13, 6), (9, 1), (9, 8), (10, 1), (10, 8)]

/-- The bits of a group among a list of events. -/
def bitsOf (es : List (Nat × Nat)) (g : Nat) : BitVec 32 :=
  es.foldl (fun w e => if e.1 = g then w ||| (1#32 <<< e.2) else w) 0#32

/-- ERROR and DANGER bits of a group. -/
def severeMask (g : Nat) : BitVec 32 :=
  classMask (fun c => c = .error ∨ c = .danger) g

/-- Every event of a group that is not reserved. -/
def definedMask (g : Nat) : BitVec 32 := classMask (fun _ => true) g

/-- Default LOG routing (15 R409). -/
def defaultLog (g : Nat) : BitVec 32 := definedMask g

/-- Default MSIX routing. -/
def defaultMsix (g : Nat) : BitVec 32 := severeMask g

/-- Default AEN routing. -/
def defaultAen (g : Nat) : BitVec 32 := severeMask g ||| bitsOf [(13, 0), (13, 1)] g

/-- Default ALERT and SMBALERT routing. -/
def defaultAlert (g : Nat) : BitVec 32 := severeMask g ||| bitsOf noticeAlerts g

end Sys2Proof.Machine
end

