-- ==== Sys2Proof/Machine/State.lean ====
section
/-! DEFINITION. The state of the GMA9140: plain data, block by block in the order of the spec's chapters, the reasons
a step can stop, and the machine right after a first power-up (log entries 1 and 2). -/

namespace Sys2Proof.Machine

open Sys2Proof

/-- A pair of values, one for each lettered port (00 R9). -/
structure PerPort (α : Type) where
  a : α
  b : α
  deriving DecidableEq, Repr

/-- The named stops of the machine. No rule of the spec stops the block; the one reason is an operand that no wire
can carry. -/
inductive Fault
  /-- Raised by a meaning whose data operand has another length than its count operand says (safe: the device would
  never see such a command). -/
  | illFormed
  deriving DecidableEq, Repr

/-- The refusals of the machine. -/
inductive Refusal
  /-- Raised by an arm of exec whose command has no meaning yet (safe). -/
  | notModelled (mnemonic : String)
  deriving DecidableEq, Repr

/-! ### Blocks, addresses and journal records -/

/-- Kinds of MAP_UPDATE (05 R130). -/
inductive MoveKind
  | collection | wear | rewrite | promotion | demotion | rebuild | splice | merge | zeroFill | fold
  deriving DecidableEq, Repr

/-- Outcomes of COMPLETION (05 R130, R133). -/
inductive Outcome | placed | spilled | deallocated | abandoned | lost
  deriving DecidableEq, Repr

/-- MODE bits of an INTENT (05 R130). -/
structure Mode where
  buffered : Bool
  fua      : Bool
  dealloc  : Bool
  mirrored : Bool
  dual     : Bool
  deriving DecidableEq, Repr

/-- Phases of SPLICE_PHASE (05 R130); switching is 8 in Splice Status only (10 R306). -/
inductive SPhase | prepare | build | verify | switch | release | aborted | paused | switching
  deriving DecidableEq, Repr

/-- The payload of a journal record, by type (05 R130). -/
inductive JBody
  | intent (nsid slba nlb1 ext : Nat) (mode : Mode) (layout : Nat) (checkFold : Check) (stamp : Nat)
  | completion (nsid slba nlb1 ext : Nat) (outcome : Outcome) (peers : Nat) (layout : Nat) (media : Option MAddr)
  | mapUpdate (nsid slba nlb1 : Nat) (kind : MoveKind) (old : Option MAddr) (new : MAddr)
  | ckptBegin (num reason blocks : Nat)
  | ckptEnd (num root rootPages begin_ pages : Nat)
  | splicePhase (id : Nat) (phase : SPhase) (nsid old new : Nat) (bitmap : Option Nat) (progress : Option Nat)
  | deferred (nsid slba nlb cause : Nat) (c1 c2 : Bool) (ext seconds : Nat)
  | deferredState (pend1 pend2 : Word) (drop1 drop2 cleared1 cleared2 : Nat)
  | shutdown (cause lastSpilled flushUs spilled unspilled powerOn seconds : Nat)
  | unit (isSet : Bool) (addr role state : Nat)
  | rewrite (addr cause state : Nat)
  | reservation (nsid : Nat) (hostId : BitVec 128) (rkey : BitVec 64) (rtype action : Nat)
  | nsState (nsid wp : Nat)
  | start (powerOn gen redriven skipped deferred abandoned seconds : Nat)
  deriving DecidableEq, Repr

/-- One journal record: the common layout of 05 R129 around the payload. -/
structure JRec where
  recno    : Nat
  gseq     : Nat
  carried  : Bool
  replayed : Bool
  ctrl2    : Bool
  body     : JBody
  deriving DecidableEq, Repr

/-! ### Chapter 02: Halyard and the hold-up store -/

/-- Where LIMIT came from (02 R45). -/
inductive LimitFrom | ramp | enhance | on
  deriving DecidableEq, Repr

/-- What HOLDUP was entered for, hence where it goes (02 R45). -/
inductive HoldupCause | input | trip
  deriving DecidableEq, Repr

/-- Breaker states (02 R45). -/
inductive Breaker
  | off | check | ramp | enhance | on | limit (f : LimitFrom) | held | holdup (c : HoldupCause) | retryWait | latched
  deriving DecidableEq, Repr

/-- Halyard's working state, which lives on VIN (02 R36), and the fault word, which outlives everything (02 R36). -/
structure Halyard where
  breaker     : Breaker
  dvdt        : Nat            -- strap levels in force, 0 to 3 (R35, R39)
  cl          : Nat
  ft          : Nat
  rty         : Nat
  timer       : Bool           -- the fault timer runs (R43)
  collapsed   : Bool           -- VOUT fell below 2 V while the timer ran (R44)
  vinGood     : Bool           -- VIN has risen above 10.4 V and not fallen below 9.6 V (R49)
  overVoltage : Bool           -- an input over-voltage is declared (R448)
  held        : Option GateOrder   -- the order that holds the gate low, in force in HELD or pending elsewhere (R447)
  retryDue    : Bool           -- the 1 s of RETRY_WAIT has passed (R45)
  heldOver    : Bool           -- the order in HELD has ended and the move to CHECK waits for R448
  sink        : Bool           -- the CHECK sink draws (R446)
  dropHeld    : Bool           -- HOLDUP goes to OFF for VIN low, SYS_RST_N or TEST_MODE: a pending order is dropped there (R447)
  faultClass  : Nat            -- fault word: last class, 0 to 8 (R36, R48)
  trips       : Nat            -- fault word: trips, saturating at 255 (R46)
  deriving DecidableEq, Repr

/-- The power-loss flush or the stopper spill (02 R57 to R59, 14 R396). -/
structure Flush where
  toSpill     : List Nat       -- extents still to spill, in the order of R58
  lastSpilled : Nat            -- GSEQ of the last extent spilled
  spilled     : Nat            -- tokens spilled
  unspilled   : Nat            -- tokens left, when the flush stops
  cause       : Nat            -- CAUSE of the SHUTDOWN record (05 R130)
  sealing     : Bool           -- the SHUTDOWN record has been written
  deriving DecidableEq, Repr

/-- The hold-up store and the PWR block (02). -/
structure Power where
  voutOk      : Bool
  railsOk     : Bool
  charged     : Bool           -- the bank has risen above 34.0 V and not fallen below 33.0 V (R49)
  measured    : Bool           -- a measurement has succeeded since reset (R54)
  bufackEn    : Bool           -- buffered acknowledgement enabled by R54, R55
  topUpWait   : Bool           -- after a sleep, until the bank reads charged again (11 R324)
  measuring   : Bool           -- a measurement draws (R51)
  measDue     : Bool           -- a scheduled measurement is due or deferred (R51, R52)
  deferrals   : Nat            -- deferrals in a row, up to 60 (R52)
  class7      : Bool           -- HU_FAULT: class 7 recorded since reset (R54)
  lastClass   : Nat            -- PWR_FAULT LAST_CLASS
  tripsShown  : Nat            -- PWR_FAULT TRIPS
  vinMv       : Nat
  voutMv      : Nat
  vhuMv       : Nat
  iinMa       : Nat
  capUf       : Nat
  esrMohm     : Nat
  euseMj      : Nat
  measTime    : Nat
  budget      : Nat            -- TOK_BUDGET
  budgetWant  : Nat            -- a raised budget that waits for the spill reserve (05 R149)
  flushUs     : Nat            -- from the SHUTDOWN record, loaded by the scan
  flushSpilled   : Nat
  flushUnspilled : Nat
  deriving DecidableEq, Repr

/-! ### Chapter 03: start-up and the image -/

/-- Failure causes of a copy (03, table of failure causes). -/
inductive Cause
  | none | allZero | allOnes | magic | directory | keyAbsent | keyRejected | headerTag | blockTag | content | notTried
  | length | sequence
  deriving DecidableEq, Repr

/-- A copy being loaded (03 R85). -/
structure Loading where
  copy    : Nat
  pinned  : Option Nat         -- the generation a pin record asks for (R90)
  blocks  : List (List Byte)   -- blocks read so far, block 0 first
  waiting : Bool               -- the newest block read is being verified
  bad     : Option Nat         -- the first block whose tag failed (R85)
  ended   : Bool               -- every block is verified; the parameter pages of R86 are awaited
  handed  : List Nat           -- blocks that their consumers have been handed (R77, R85)
  deriving DecidableEq, Repr

/-- The BOOT block and the loader (03). -/
structure Boot where
  phase      : Nat             -- PHASE, 0 to 9, 15 no image
  copy       : Nat             -- COPY
  candidates : List Nat        -- copies still to try, in order (R89)
  pinGen     : Option Nat      -- the pinned generation while the pinned copy is tried first (R90)
  loading    : Option Loading
  hdrOk      : List (Option Bool)  -- by copy: its header has been read for the order of R89, and has passed its first checks
  headers    : Bool            -- both headers have been read and the candidates ordered
  key        : List Byte       -- the key of the copy being loaded (R72)
  cause      : List Cause      -- CAUSE0, CAUSE1
  failBlock  : List Nat        -- BLOCK0, BLOCK1
  genCopy    : List Nat        -- GEN_COPY0, GEN_COPY1
  genUsed    : Nat
  genGood    : Nat             -- GEN_LAST_GOOD
  gates      : Bool            -- the gates of R82 are released
  noImage    : Bool
  ready      : Bool            -- host ready or no image reached: READY high (01 R34)
  hostReady  : Bool
  sealed     : Bool            -- RWS fields sealed (R98)
  hostOk     : Bool            -- the HOST section has verified (R83)
  thermalOk  : Bool            -- THERMAL has verified (R84)
  clkRef     : Bool            -- REF_OK
  sfdp       : Option Sfdp     -- none: the signature is absent (R68)
  rollback   : Bool
  pinnedBy   : Nat
  firstStart : Bool
  imgSel     : Nat             -- strap levels
  pcieMode   : Nat
  smbAddr    : Nat
  pinValid   : Bool
  pinCopy    : Nat
  pinGenReg  : Nat
  excluded   : Nat             -- EXCLUDED
  imageMs    : Nat
  readyMs    : Nat
  stageState : Nat             -- STAGE_STATE
  stageCopy  : Nat
  stageCause : Cause
  stageBytes : Nat
  stageGen   : Nat
  rwsTaken   : List (Nat × Nat)  -- RWS values taken from hosts since the reset: BAR2 offset and value, oldest first (R98)
  release    : Option (List Byte × Nat)  -- after the gates: the header to be stored once so many start-up entries are in the log (R88)
  deriving DecidableEq, Repr

/-- A staging in progress (04 R118). -/
structure Staging where
  owner  : Port
  next   : Nat                 -- next block in order
  length : Nat                 -- LENGTH of the staged header
  last   : Option (Nat × Nat)  -- queue and command of the LAST piece, while verification runs
  deriving DecidableEq, Repr

/-- IDENTITY (03 R78 table). -/
structure Identity where
  model    : List Byte
  oui      : List Byte
  nodeId   : Nat
  wakeAddr : Nat
  deriving DecidableEq, Repr

/-- HOST (03). -/
structure HostSec where
  ssvid    : Nat
  ssid     : Nat
  sn       : List Byte
  mdts     : Nat
  msix     : Nat
  ioqPairs : Nat
  ioqDepth : Nat
  aerLimit : Nat
  subnqn   : List Byte
  deriving DecidableEq, Repr

/-- SAFETY (14 R401). -/
structure SafetySec where
  hbUs      : Nat
  selftestH : Nat
  scrubH    : Nat
  stopHoldS : Nat
  clkTolPct : Nat
  deriving DecidableEq, Repr

/-- THERMAL (12 R358). -/
structure ThermalSec where
  diode0 : Bool
  diode1 : Bool
  ideal  : List Nat            -- IDEAL_0, IDEAL_1
  stepMs : Nat
  trendS : Nat
  duty   : List Nat            -- DUTY_1 to DUTY_3
  credit : List Nat            -- CREDIT_1 to CREDIT_3
  comp   : List (List Int)     -- COMP_AON, COMP_SAFE, COMP_REFINT, COMP_BG_CORE, COMP_BG_AON
  deriving DecidableEq, Repr

/-- GEOMETRY (07 R198). -/
structure Geometry where
  fitted      : List Nat       -- TGT_FITTED, one byte per channel
  dies        : Nat
  planes      : Nat
  units       : Nat
  pagesNative : Nat
  pagesSlc    : Nat
  cell        : Nat            -- 1 TLC, 2 QLC
  ldpcM       : Nat
  s           : Nat
  spare       : Nat
  peRated     : Nat
  peRatedSlc  : Nat
  deriving DecidableEq, Repr

/-- READ_TIMING (07 R192). -/
structure ReadTiming where
  mode     : Nat
  mts      : Nat
  drive    : Nat
  odt      : Nat
  tparam   : List Nat
  tRead    : List (BitVec 16)
  tLevels  : List (BitVec 16)
  tReset   : List (BitVec 16)
  tParam   : List (BitVec 16)
  deriving DecidableEq, Repr

/-- WRITE_TIMING (07 R193). -/
structure WriteTiming where
  ersMinUs    : Nat
  ersSuspMax  : Nat
  pgmSuspMax  : Nat
  pgmMinUs    : Nat
  vrefq       : Nat
  zq          : Bool
  tProgSlc    : List (BitVec 16)
  tProgNative : List (BitVec 16)
  tEraseSlc   : List (BitVec 16)
  tEraseNative : List (BitVec 16)
  tPsusp      : List (BitVec 16)
  tPres       : List (BitVec 16)
  tEsusp      : List (BitVec 16)
  tEres       : List (BitVec 16)
  deriving DecidableEq, Repr

/-- READ_LEVELS (07 R212, R443). -/
structure ReadLevels where
  delta1    : Nat
  delta2    : Nat
  delta3    : Nat
  sweep     : Nat
  sweepStep : Nat
  fidDays   : Nat
  levelPage : List Nat
  defaults  : List (List (List Int))   -- by fitted die in ascending index, by bucket
  deriving DecidableEq, Repr

/-- MAPPING (06 R186). -/
structure Mapping where
  promoteT   : Nat
  demoteT    : Nat
  wearSpread : Nat
  gcT1       : Nat
  gcT2       : Nat
  gcT3       : Nat
  opPermil   : Nat
  foldPct    : Nat
  deriving DecidableEq, Repr

/-- A namespace entry (03 R80). -/
structure NsEntry where
  nsid      : Nat
  size      : Nat
  metaOn    : Bool
  ack       : Bool             -- buffered acknowledgement
  layout    : Nat
  degrade   : Bool             -- LINK_POLICY
  wp        : Bool
  degradeMs : Nat
  nguid     : List Byte
  deriving DecidableEq, Repr

/-- A layout entry (10 R269). -/
structure Layout where
  id        : Nat
  loc       : Nat              -- LOCAL
  cross     : Nat
  k         : Nat
  m         : Nat
  pos       : Nat
  rebuildMbs : Nat
  spliceMbs : Nat
  verifyMbs : Nat
  nodes     : List Nat
  deriving DecidableEq, Repr

/-- A peer entry (09 R236). -/
structure PeerEntry where
  nodeId   : Nat
  mac      : Nat
  mac2     : Nat
  portA    : Bool
  portB    : Bool
  directA  : Bool
  directB  : Bool
  wakeAddr : Nat
  orders   : Nat
  deriving DecidableEq, Repr

/-- PEER (09 R236). -/
structure PeerSec where
  ethertype : Nat
  enableA   : Bool
  enableB   : Bool
  crA       : Bool
  crB       : Bool
  slowOk    : Bool             -- SPEEDS bit 1
  wakeS     : Nat
  macA      : Nat
  macB      : Nat
  entries   : List PeerEntry
  deriving DecidableEq, Repr

/-- POWER_STATES (11 R332). -/
structure PowerSec where
  idleUs      : Nat
  sleepMs     : Nat
  deepS       : Nat
  ceil        : Nat
  patrolDays  : Nat
  rows        : Nat
  patrolPages : Nat
  deriving DecidableEq, Repr

/-- RECORD_FLASH (13 R375 table, R376). -/
structure RecSec where
  dual         : Bool
  refreshDays  : Nat
  infoPerMin   : Nat
  noticePerMin : Nat
  deriving DecidableEq, Repr

/-- A WRAPPED_KEYS entry (13 R375). -/
structure WrappedKey where
  slot    : Nat
  action  : Nat
  keySize : Nat
  zeros   : Bool               -- its zero bytes are zero
  wrapped : List Byte
  deriving DecidableEq, Repr

/-- The parameters in force: each section's fields, which are also the RWS fields (03 R77, R84, R98). -/
structure Params where
  identity : Option Identity
  host     : Option HostSec
  safety   : SafetySec
  thermal  : Option ThermalSec
  geometry : Option Geometry
  readTiming  : Option ReadTiming
  readLevels  : Option ReadLevels
  mapping  : Option Mapping
  namespaces  : List NsEntry
  layouts  : List Layout
  writeTiming : Option WriteTiming
  peer     : Option PeerSec
  power    : PowerSec
  hasPower : Bool              -- a POWER_STATES section is present
  recf     : RecSec
  wrappedKeys : List WrappedKey
  rebuild0 : Nat               -- BRAID RB0_MBS
  mediaRws : List (Nat × Nat)  -- MEDIA's RWS fields that a host has written, by 4096 × channel + offset (R98)
  deriving DecidableEq, Repr

/-! ### Chapter 04: controllers, commands and the SMBus -/

/-- A submission queue (04 R108). -/
structure Sq where
  qid  : Nat
  size : Nat
  cqid : Nat
  head : Nat
  tail : Nat
  deriving DecidableEq, Repr

/-- A completion queue (04 R108). -/
structure Cq where
  qid  : Nat
  size : Nat
  iv   : Nat
  ien  : Bool
  deriving DecidableEq, Repr

/-- An asynchronous event: type, information, log page (15 R413). -/
structure Aen where
  type : Nat
  info : Nat
  log  : Nat
  deriving DecidableEq, Repr

/-- An entry of log page C1h (04 R117), with the RECNO of its DEFERRED record. -/
structure C1Entry where
  nsid    : Nat
  cause   : Nat
  nlb     : Nat
  slba    : Nat
  seq     : Nat
  seconds : Nat
  recno   : Nat
  stamp   : Nat                -- the first arrival stamp that R115 refuses: one above the moment of durability; 0 after a restart
  deriving DecidableEq, Repr

/-- The feature values of one controller (04, table of features). -/
structure Features where
  arbitration : Nat
  ps          : Nat            -- reported power state (11 R312)
  psOp        : Nat            -- the last operational one reported (11 R321)
  tempOver    : Nat
  tempUnder   : Nat
  errRecovery : Nat
  wce         : Bool
  queues      : Nat
  intCoal     : Nat
  intVec      : List (Nat × Nat)
  atomicity   : Nat
  aec         : Word
  kato        : Nat
  hostId      : BitVec 128
  resvMask    : List (Nat × Nat)
  deriving DecidableEq, Repr

/-- One controller and its port (04). -/
structure Ctl where
  en       : Bool              -- CC.EN
  rdy      : Bool              -- CSTS.RDY
  cfs      : Bool              -- CSTS.CFS
  link     : Bool
  speed    : Nat
  width    : Nat
  perstLow : Bool
  asqs     : Nat               -- AQA.ASQS and AQA.ACQS: entries of the admin queues, 0-based (04 R108)
  acqs     : Nat
  asqHead  : Nat               -- the admin submission queue
  asqTail  : Nat
  sqs      : List Sq
  cqs      : List Cq
  feat     : Features
  aers     : List Nat          -- outstanding Asynchronous Event Requests
  aenWait  : List Aen          -- events waiting for a request (15 R413)
  aenMask  : List (Nat × Nat)  -- type and information masked until the log page is read
  msixMask : List Nat
  msixPend : List Nat
  errors   : Nat               -- Error Information log: errors recorded, the newest 64 kept
  errLog   : List (Nat × Nat × Nat × Nat)  -- queue, command, status code type, status
  resvLog  : List (Nat × Nat)  -- Reservation Notification log: type, nsid
  c1       : List C1Entry
  dropped  : Nat
  pend     : List Nat          -- namespaces pending on this controller
  deriving DecidableEq, Repr

/-- Kinds of outstanding host command. -/
inductive CmdKind
  | write | read | compare (data : List Blk) | verify | flush | writeZeroes | dsm
  | fused (data : Blk) (second : FusedWrite)
  | resv | clearLog | powerOrder | stageLast | spliceStart | spliceSwitch | spliceAbort
  deriving DecidableEq, Repr

/-- What a read has found for one block (01 R30 to R33). -/
inductive Found
  | waiting
  | got (b : Blk)
  | lost
  deriving DecidableEq, Repr

/-- A host command that has not completed. -/
structure HostCmd where
  key    : Nat                 -- the model's own name for the command
  port   : Port
  sq     : Nat
  cid    : Nat
  kind   : CmdKind
  nsid   : Nat
  slba   : Nat
  nlb1   : Nat
  stamp  : Nat
  gseq   : Nat
  buffered : Bool              -- a write's acknowledgement mode (R110)
  found  : List Found          -- a read's blocks
  waitRec : Option Nat         -- the journal record the completion waits for
  failed : Option (Nat × Nat)  -- a status decided before the end: type, code
  live   : Bool                -- false: its completion is discarded (R126)
  begun  : Bool                -- a fused pair's Compare has begun to read (R109, R113)
  deriving DecidableEq, Repr

/-- Buffer-token states (01 R27); waiting holds no token, spilled is 14 R396. -/
inductive Tok | waiting | filling | journaled | inflight | mirrorPending | freed
  deriving DecidableEq, Repr

/-- One logical block of an extent. -/
structure XBlk where
  tok   : Tok
  blk   : Option Blk
  check : Check
  place : Option MAddr         -- where Motur has placed it
  ok    : Bool                 -- its program has a successful status
  lost  : Bool                 -- a copied block that its source could not recover (10 R297)
  deriving DecidableEq, Repr

/-- Who asked for an extent. -/
inductive Origin
  | host (cmd : Nat)
  | dropped                    -- a host write whose controller or port was reset (04 R126)
  | mirror (port : Port) (link tag : Nat)     -- a member's copy of a mirrored extent (10 R281)
  | longData (port : Port) (link tag : Nat)   -- a data holder's extent (10 R285)
  | longParity (port : Port) (link tag : Nat) -- a parity holder's delta (10 R285)
  | copy (port : Port) (link tag : Nat) (recopy : Bool)  -- a builder's copied blocks (10 R293, R304)
  | replay
  deriving DecidableEq, Repr

/-- A link and the peer behind it. -/
structure PeerRef where
  port : Port
  link : Nat
  node : Nat                   -- index of the peer entry
  deriving DecidableEq, Repr

/-- An extent (01 R23) from its acceptance to its completion record. -/
structure Extent where
  id      : Nat
  origin  : Origin
  port    : Port
  nsid    : Nat
  slba    : Nat
  nlb1    : Nat
  ext     : Nat
  gseq    : Nat
  stamp   : Nat
  mode    : Mode
  layout  : Nat
  blks    : List XBlk
  recno   : Option Nat         -- RECNO of its INTENT
  durable : Bool               -- that record is durable
  stopped : Bool               -- a write-hand-off check failed before completion (R29)
  waitOn  : List Nat           -- peer entries whose acknowledgement is awaited
  acked   : Nat                -- PEERS bits
  builders : List Nat          -- peer entries of splice builders awaited (10 R294)
  resent  : List Nat           -- peers that answered CHECK_FAILED once (09 R245)
  compRec : Option Nat         -- RECNO of its COMPLETION
  zero    : Bool               -- a deallocation to be written by zero-fill (06 R165)
  rxHeld  : Nat                -- credits that its data still holds in the receive buffer (09 R246)
  deriving DecidableEq, Repr

/-- A registrant of a namespace's reservation. -/
structure Registrant where
  nsid   : Nat
  hostId : BitVec 128
  key    : BitVec 64
  deriving DecidableEq, Repr

/-- A held reservation. -/
structure Holder where
  nsid   : Nat
  hostId : BitVec 128
  rtype  : Nat
  deriving DecidableEq, Repr

/-- The objects of management orders (04 R120). -/
inductive OrderObj
  | power | protect (nsid : Nat) | splice (nsid : Nat) | feature (p : Option Port) (fid : Nat)
  deriving DecidableEq, Repr

/-- A master of management orders (04, contrary orders). -/
inductive Master | hostA | hostB | peerA | peerB | smbus
  deriving DecidableEq, Repr

/-- The newest order of an object: who gave it, with which stamp and value. -/
structure OrderRec where
  obj    : OrderObj
  master : Master
  stamp  : Nat
  value  : Nat
  deriving DecidableEq, Repr

/-- The SMBus sideband (04 R122 to R125). -/
structure Smb where
  block      : Nat
  offset     : Nat
  off        : Bool            -- SMB_OFF
  fails      : Nat             -- FAILS
  recoveries : Nat
  wrIgnored  : Bool
  -- the values NVMe-MI returns, refreshed once per second (R124)
  miFlags    : Byte
  miCritical : Byte
  miTemp     : Int
  miUsed     : Nat
  deriving DecidableEq, Repr

/-- The rest of HOSTX: stamps, sequence, conflicts. -/
structure HostX where
  stamp      : Nat             -- arrival-stamp counter, 64 bits
  gseq       : Nat             -- next global write sequence, 64 bits
  conflicts  : Nat
  perstHeld  : Bool            -- R127 is in force
  perstTold  : Bool            -- NOTICE 2.26 has been raised for it
  wprot      : List (Nat × Nat)   -- write-protection state by namespace, 1 or 2
  nextKey    : Nat             -- names for commands and extents
  deriving DecidableEq, Repr

/-! ### Chapter 05: the bowline journal -/

/-- A run or block that the survey found on the medium (05 R144). -/
structure Present where
  nsid  : Nat
  lba   : Nat
  gseq  : Nat
  spill : Bool
  media : MAddr                -- set and block; for a spill copy, group and block
  deriving DecidableEq, Repr

/-- The journal engine and the JRNL block (05). -/
structure Jrnl where
  recs      : List JRec        -- the MRAM: records by ascending RECNO, at most one in each slot (R128)
  next      : Nat              -- the next record number
  horizon   : Nat              -- R131
  waiting   : List JRec        -- records not yet written, in order: eight writes are in flight (R131), or the head waits at a half boundary (R137)
  state     : Nat              -- 0 off, 1 scanning, 2 surveying, 3 replaying, 4 running, 5 sealed
  otherFree : Bool             -- the half that the head is not in is free (R137)
  carryTo   : Option Nat       -- the last copy of a carry-forward that is not yet durable; with it the other half is free (R137)
  runNum    : Option Nat       -- CKPT_NUM of the running checkpoint
  runBegin  : Nat              -- its BEGIN_RECNO
  runPages  : Nat              -- map pages it writes
  ckptNum   : Nat              -- newest ended checkpoint
  ckptBegin : Nat              -- its BEGIN_RECNO
  carryDue  : Bool             -- its CKPT_END is durable and the carry-forward has not ended
  accepted  : Nat              -- blocks accepted since the previous CKPT_BEGIN (R135)
  trigger   : Option Nat       -- a checkpoint trigger that waits: its REASON
  scanned   : Bool
  surveyed  : Bool
  index     : List Present     -- the survey's index
  redriven  : Nat
  skipped   : Nat
  deferred  : Nat
  abandoned : Nat
  replayMs  : Nat
  audFault  : Nat
  deriving DecidableEq, Repr

/-! ### Chapters 06 and 08: the map, the medium and its format -/

/-- Hank table entries (06 R155); an entry that is not listed is unmapped. -/
inductive HankEntry
  | slot (set slot : Nat)
  | strand (group : Nat)
  | moving (blocks : List (Option MAddr))   -- between the records of one map change (log entry 17)
  | invalid                    -- any other value: reading it raises DANGER 5.21
  deriving DecidableEq, Repr

/-- One programmed block slot (08 R229): its metadata and its first 4160 bytes. -/
structure Slot where
  nsid     : Nat
  kind     : Nat               -- 0 DATA, 1 MAP, 2 DIRECTORY, 3 ROOT, 4 JOURNAL, 5 PARITY_P, 6 PARITY_Q, 7 EMPTY
  lost     : Bool
  zeroFill : Bool
  replayed : Bool
  spill    : Bool
  hostMeta : Bool
  layout   : Nat
  lba      : Nat
  gseq     : Nat
  check    : Check
  set      : Nat
  block    : Nat
  blk      : Blk
  deriving DecidableEq, Repr

/-- A whipping header (08 R220): the fields that differ between units of one brick and one image. -/
structure Header where
  role        : Nat            -- R221
  cell        : Nat
  gen         : Nat
  nodeId      : Nat
  createGseq  : Nat
  createSecs  : Nat
  pe          : Nat
  set         : Option Nat     -- none: 0xFFFF_FFFF
  layout      : Nat
  layoutKind  : Nat
  position    : Nat
  d           : Nat
  members     : List (Option Nat)   -- 16, in channel order
  xk          : Nat
  xm          : Nat
  xpos        : Nat
  xnodes      : List Nat
  partner     : Option Nat
  deriving DecidableEq, Repr

/-- The content of one erase unit: its header (none: the page is erased) and its programmed pages, each a list of block slots. -/
structure NandUnit where
  addr   : Nat                 -- die × 16 384 + unit
  header : Option Header
  pages  : List (Nat × List Slot)   -- by physical page, from 1
  deriving DecidableEq, Repr

/-- A checkpoint's image of the map, as its pages hold it (05 R136, 06 R183; log entry 13). -/
structure Image where
  num     : Nat
  begin_  : Nat
  gseq    : Nat                -- the GSEQ of its CKPT_BEGIN
  hanks   : List (Nat × HankEntry)
  strands : List (Nat × List (Option MAddr))
  levels  : List (Nat × List Int)   -- read-level offsets by die × 8 + bucket
  fidAt   : List (Nat × Nat)        -- device-seconds of the last fid by die × 8 + bucket
  patrol  : List (Nat × Nat)        -- position and pass by group
  dirty   : List (Nat × List Nat)   -- dirty bitmaps by splice (10 R303)
  units   : List Nat                -- the map-checkpoint units taken for it, first copies then partners
  pages   : List (Nat × Nat × Nat)  -- by map page number: address of the first copy, CKPT_NUM that wrote it
  dirs    : List (Nat × Nat × Nat)  -- the same by directory page number
  pairs   : List (List Nat)         -- the pairs of units that hold its pages, those of earlier checkpoints among them
  deriving DecidableEq, Repr

/-- What a program carries to the map when it succeeds. -/
inductive PItem
  | ext (ext idx : Nat)                                        -- a block of an extent
  | move (nsid lba : Nat) (kind : MoveKind) (old : Option MAddr) (new : MAddr)   -- a relocated block
  deriving DecidableEq, Repr

/-- A set table entry (06 R158) and what Motur keeps of an open set. -/
structure SetE where
  idx     : Nat
  members : List (Option Nat)  -- 16 unit addresses in channel order
  mode    : Nat                -- 0 SLC, 1 TLC, 2 QLC
  state   : Nat                -- 1 open, 2 closed, 3 relocating, 4 erasing
  role    : Nat                -- what it is open for: 0 SLC host, 1 native host, 2 hot, 3 relocation, 4 replay, 5 wear
  layout  : Nat
  d       : Nat
  closeGseq  : Nat
  createGseq : Nat
  fill    : Nat                -- data blocks taken, in order
  row     : List (Slot × Option PItem)   -- data slots taken and not yet programmed
  failed  : List Nat           -- members that failed to program (R179)
  rebuild : Bool               -- rebuild has taken the set (10 R279)
  released : Bool              -- its UNIT record with STATE 4 is written (R175)
  erased  : List Nat           -- channels whose member has ended its erase
  deriving DecidableEq, Repr

/-- A unit table entry (06 R158). -/
structure UnitE where
  addr  : Nat
  pe    : Nat
  state : Nat                  -- 0 free, 1 in a set, 2 spill reserve, 3 map checkpoint, 4 journal mirror, 5 retired, 6 never written
  deriving DecidableEq, Repr

/-- A spill group (08 R222). -/
structure SpillGroup where
  group   : Nat
  units   : List Nat
  fill    : Nat                -- data blocks written, in order
  written : Bool               -- its UNIT record has STATE 3
  dirty   : Bool               -- to be erased before it counts again (05 R149)
  deriving DecidableEq, Repr

/-- Motur (06) and the MAP block. -/
structure Motur where
  state   : Nat                -- 0 stopped, 1 loading, 2 applying delta, 3 running
  hanks   : List (Nat × HankEntry)          -- ascending, mapped hanks only
  strands : List (Nat × List (Option MAddr)) -- ascending groups in use, 32 entries each
  heat    : List (Nat × (Nat × Nat))        -- COUNT and EPOCH by hank
  sets    : List SetE          -- ascending index
  units   : List UnitE         -- ascending address, every unit fitted
  spills  : List SpillGroup
  slc     : Nat                -- C, in bytes (R170)
  slcF    : Nat                -- F in whole hanks, as T was last computed (R170)
  known   : List (Nat × Nat × Nat)  -- while the delta is applied: NSID, LBA and the GSEQ that a record of it gave (05 R141)
  folding : Bool
  capWp   : Bool
  wear    : Option Nat         -- the set a wear move empties
  rewrites : List (Nat × Nat)  -- scheduled rewrites: unit address and cause, oldest first
  evac    : List Nat           -- sets to evacuate after a program failure (R179)
  gcMs    : Nat                -- milliseconds since a host command was outstanding, up to 100 (R172)
  promotions : Nat
  demotions  : Nat
  merges     : Nat
  zeroFills  : Nat
  lostBlocks : Nat
  wearMoves  : Nat
  deriving DecidableEq, Repr

/-! ### Chapter 07: channels and decoding -/

/-- Target states (07 R199). -/
inductive TgtState | uninit | ready | busy | suspended | failed | excluded
  deriving DecidableEq, Repr

/-- One target of a channel. -/
structure Target where
  fitted : Bool
  state  : TgtState
  cause  : Nat                 -- CAUSE
  failAt : Nat                 -- device-seconds at its failure (R210)
  deriving DecidableEq, Repr

/-- One channel (07) and its MEDIA registers. -/
structure Channel where
  state   : Nat                -- 0 off, 1 starting, 2 training, 3 running, 4 failed
  mode    : Nat
  rate    : Nat
  trains  : Nat
  targets : List Target        -- 8
  trainTemp : Option Int       -- NAND-package temperature at the last training (R191)
  ceHigh    : Bool             -- the chip enables are high between operations; false: low, the supply is off (R187, R210; 16 R428)
  drives    : Bool             -- the channel's other outputs are driven; false: they are low (R210; 16 R428)
  term      : Bool             -- on-die and controller termination on (R190, R210)
  reads    : Nat
  programs : Nat
  erases   : Nat
  pgmFails : Nat
  ersFails : Nat
  pgmSusp  : Nat
  ersSusp  : Nat
  busyMax  : Nat
  duty     : Nat
  deriving DecidableEq, Repr

/-- What a unit becomes once its erase and its header program have succeeded (06 R151, R175, 08 R216). -/
structure UnitUse where
  state      : Nat             -- its STATE in the unit table
  role       : Nat
  cell       : Nat
  set        : Option Nat
  layout     : Nat
  d          : Nat
  createGseq : Nat
  members    : List (Option Nat)
  partner    : Option Nat
  deriving DecidableEq, Repr

/-- How far an operation of a die has come (07 R199 to R202). -/
structure OpRun where
  issued    : Bool             -- its template has been played
  suspends  : Nat
  suspended : Bool
  overdue   : Bool             -- suspended for 2 ms in total: it resumes as soon as the die is idle
  deriving DecidableEq, Repr

/-- An erase of a unit, waiting for its die or under way. -/
structure Erase where
  id    : Nat
  unit  : Nat
  cell  : Nat                  -- the mode it is erased in
  after : Nat                  -- the record that must be durable first (05 R132)
  use   : UnitUse
  run   : OpRun
  deriving DecidableEq, Repr

/-- Whoever a read is for. -/
inductive Reader
  | cmd (key : Nat)                                  -- a host command
  | peer (port : Port) (link tag : Nat)              -- a READ_REQ (10 R288)
  | splice (key : Nat)                               -- a hank that a splice or repair copies or compares (10 R293, R297)
  deriving DecidableEq, Repr

/-- One wanted block of a page read. -/
structure Want where
  reader : Reader
  idx    : Nat                 -- its index in the reader's blocks
  slot   : Nat
  deriving DecidableEq, Repr

/-- A page read in flight (07 R200, R206). -/
structure NRead where
  rid    : Nat
  unit   : Nat
  page   : Nat
  level  : Nat                 -- ladder level, 0 for the hard read
  left   : List Nat            -- slots that have not converged
  softBad : Bool               -- a soft decode of it converged on a wrong check (07, coincidences)
  issued : Bool                -- its template has been played; otherwise it waits for its die (07 R200, R201)
  wants  : List Want
  deriving DecidableEq, Repr

/-- A page program, waiting for its die or under way. -/
structure Prog where
  id    : Nat
  set   : Nat                  -- Config.noSet for a unit of no braid set
  row   : Nat
  ch    : Nat
  unit  : Nat
  slots : List Slot
  items : List PItem
  header : Option (Header × UnitUse)   -- a header page, and what the unit becomes with it
  run   : OpRun
  deriving DecidableEq, Repr

/-- The media engine and the ECC block (07). -/
structure Media where
  nand     : List NandUnit     -- units ever written, ascending address; unlisted units hold nothing (log entry 1)
  ckpt     : Option Image      -- the newest ended checkpoint's pages
  work     : Option Image      -- the pages of a checkpoint that has begun
  mirror   : List JRec         -- the newest JOURNAL_MIRROR content (08 R223)
  retired  : List Nat          -- units with STATE 5, which no start makes usable again (06 R178, R181; log entry 69)
  channels : Vector Channel 16
  erases   : List Erase
  reads    : List NRead
  progs    : List Prog
  levels   : List (Nat × List Int)  -- offsets in force by die × 8 + bucket (07 R212)
  set      : List (Nat × List Int)  -- levels last set on a die (R200)
  fidAt    : List (Nat × Nat)  -- device-seconds of the last fid by die × 8 + bucket
  fidWant  : List (Nat × Nat)  -- fids requested: die and bucket
  fidBar   : List (Nat × Nat)  -- device-seconds of the last abort on ones density, by die × 8 + bucket (07 R213)
  hardOk    : Nat
  hardHigh  : Nat
  soft1     : Nat
  soft2     : Nat
  soft3     : Nat
  unrecovered : Nat
  checkFail : Nat
  maxCorr   : Nat
  fidAge    : Nat
  fidDie    : Nat
  fidLast   : Nat
  fidDone   : Nat
  fidAborted  : Nat
  fidRejected : Nat
  density   : Nat
  winDie    : Nat
  winAge    : Nat
  deriving DecidableEq, Repr

/-! ### Chapter 09: the peer link -/

/-- The body of a message after its head (09 R243, 10 R288). -/
inductive MBody
  | none
  | args (bs : List Byte)
  | blocks (bs : List CheckedBlk)
  | recs (rs : List BlockRec)
  | folds (cs : List Check)
  deriving DecidableEq, Repr

/-- A message (09 R243). -/
structure Msg where
  op     : Nat
  status : Nat
  head   : Head
  arg    : Nat
  body   : MBody
  deriving DecidableEq, Repr

/-- A frame sent and not yet acknowledged (09 R250). -/
structure Sent where
  seq    : BitVec 24
  msg    : Msg
  bytes  : Nat                 -- LEN
  vc     : Nat
  credit : Nat
  resent : Bool
  due    : Bool                -- to be sent again after a handshake (R254)
  deriving DecidableEq, Repr

/-- One virtual channel of a link: the sending side's balance and grants, the receiving side's grants (09 R246, R247). -/
structure Vc where
  balance   : Nat
  lastGrant : BitVec 12        -- the last GRANT seen
  granted   : Nat              -- cumulative credit received
  consumed  : Nat              -- credit of frames sent and acknowledged
  given     : Nat              -- cumulative credit granted to the peer
  held      : Nat              -- credit of frames in the receive buffer
  room      : Nat              -- credit the peer still holds of ours
  deriving DecidableEq, Repr

/-- Link states (09 R255). -/
inductive LinkState | disabled | training | handshake | up | notified
  deriving DecidableEq, Repr

/-- A kept answer to an ORDER (09 R244). -/
structure Answered where
  tag    : Nat
  status : Nat
  deriving DecidableEq, Repr

/-- One link (09). -/
structure Link where
  state    : LinkState
  entry    : Nat               -- index of the peer entry
  expect   : BitVec 24
  txNext   : BitVec 24
  sent     : List Sent         -- the replay share, oldest first
  held     : List Msg          -- messages not yet framed
  vcs      : Vector Vc 4
  wrr      : Nat × Nat × Nat   -- what VC1 to VC3 may still send in this round (R242)
  srtt     : Nat
  samples  : Nat
  timeout  : Nat
  noGain   : Nat               -- replays without acknowledgement progress (R252)
  replays  : Nat
  resentTo : Option (BitVec 24)  -- asked sequence already resent since the last progress (R250)
  nakFor   : Option (BitVec 24)  -- expected sequence a NAK has been sent for (R248)
  unacked  : Nat               -- DATA frames accepted since the last ACK was sent (R249)
  rxSince  : Bool              -- a DATA frame accepted since reset (RX_VALID, R254)
  peerStart : Option (BitVec 32) -- the peer's START_ID at that acceptance, or as last heard
  ackSent  : Bool              -- HELLO_ACK sent in this handshake
  ackRcvd  : Bool
  late     : Bool              -- the handshake limit has passed (R255)
  stale    : List Nat          -- namespaces whose copy at this peer is stale (R260)
  cause    : Nat               -- LAST_CAUSE
  tieMs    : Nat
  everUp   : Bool
  lastBurst : Option Nat       -- device-seconds of the last wake burst (R264)
  slept    : Bool              -- the tie-off began with a sleep notice (R260, R266)
  forWidth : Bool              -- the present full link reset follows a change of width (R256)
  status   : Option (Nat × Bool × Nat × Byte)  -- the peer's last STATUS
  tag      : Nat               -- the next TAG
  tags     : List Answered     -- the last 64 ORDERs answered
  notice   : Option (BitVec 24)  -- sequence of an unacknowledged sleep notice (R266)
  wakeAddr : Nat               -- recorded from a notice (R265)
  stopTx   : Bool              -- after a cause 1 or 2 notice: keepalive only (R267)
  deriving DecidableEq, Repr

/-- One peer port (09). -/
structure PeerPort where
  phy      : Nat               -- 0 idle, 1 training, 2 up
  slow     : Bool              -- 25 Gb/s
  links    : List Link
  energy   : Bool
  discard  : Nat
  fecCorr  : Nat
  fecUncorr : Nat
  trains   : Nat
  wakeIgnored : Nat
  deriving DecidableEq, Repr

/-! ### Chapter 10: layouts and splices -/

/-- A splice or a repair driven here (10 R289, R304). -/
structure Splice where
  id       : Nat
  phase    : SPhase
  left     : SPhase            -- the phase that PAUSED left
  nsid     : Nat
  old      : Nat
  new      : Nat
  builders : List Nat          -- peer entries
  reserved : List Nat          -- builders that have reserved
  progress : Nat
  dirty    : List Nat          -- dirty hanks, ascending
  verified : Nat
  diffs    : Nat
  diffAt   : List (Nat × Nat)  -- differences found by hank
  folds    : List (Nat × Nat × List Check)  -- answers awaited: builder, first LBA, the fold of the source
  dual     : Bool
  auto     : Bool
  repair   : Bool
  lostBuilder : Bool
  paused2  : Bool              -- paused for a third difference
  refusal  : Nat
  startSecs : Nat
  localRun : Bool              -- a local splice (R292)
  reserve  : Nat               -- blocks reserved here
  cmd      : Option Nat        -- the Splice Control command that waits
  ready    : Bool              -- VERIFY has ended
  told     : List Nat          -- members that have acknowledged the switch (R299)
  phaseTags : List (Port × Nat × Nat)  -- port, link and tag of the SPLICE_PHASE messages sent for it
  again    : List Nat          -- hanks that a repair has recopied and VERIFY has not compared, ascending (R297, R304)
  deriving DecidableEq, Repr

/-- The source of a hank being read for a splice or repair, to be copied, compared, or both (10 R293, R297). -/
structure HankRead where
  key    : Nat
  splice : Nat                 -- SPLICE_ID
  hank   : Nat
  copy   : Bool
  fold   : Bool
  lbas   : List Nat            -- the blocks read: those of the hank, and where its parity is due those of its stripe
  recs   : List (Option BlockRec)
  deriving DecidableEq, Repr

/-- A block that waits to be written into the splice run, behind another change of its hank or for room (10 R292, 06 R166). -/
structure RunWait where
  nsid : Nat
  new  : Nat                   -- the layout that the run is built for
  lba  : Nat
  rec_ : BlockRec
  deriving DecidableEq, Repr

/-- A space reservation for a remote driver's splice (10 R291). -/
structure Reserve where
  entry  : Nat                 -- the driver's peer entry
  id     : Nat
  nsid   : Nat
  new    : Nat                 -- the new layout
  blocks : Nat
  run    : Bool                -- the copy is built in the splice run
  deriving DecidableEq, Repr

/-- A READ_REQ that waits for its READ_DATA (10 R282, R287): one block, or one block of a parity hank. -/
structure Ask where
  port   : Port
  link   : Nat
  tag    : Nat
  reader : Reader
  idx    : Nat                 -- the block's index in its reader
  nsid   : Nat
  lba    : Nat
  part   : Nat                 -- 0: the data block; i + 1: parity i of its stripe (10 R288)
  rest   : List Nat            -- peer entries still to try, in NODES order
  solve  : Option Nat          -- the long-braid solution it serves
  deriving DecidableEq, Repr

/-- A block of a long braid solved from the rest of its stripe (10 R287). -/
structure Solve where
  id     : Nat
  reader : Reader
  idx    : Nat
  nsid   : Nat
  lba    : Nat
  left   : Nat                 -- answers still awaited
  data   : List (Nat × Blk)    -- data blocks obtained, by data index
  par    : List (Nat × Blk)    -- parity blocks obtained, by parity index
  deriving DecidableEq, Repr

/-- A READ_REQ that this brick serves (10 R287, R288): the block records read so far. -/
structure Serve where
  port   : Port
  link   : Nat
  tag    : Nat
  nsid   : Nat
  slba   : Nat
  arg    : Nat
  recs   : List (Option BlockRec)
  deriving DecidableEq, Repr

/-- A message to a peer that waits for a journal record. -/
structure Owed where
  recno : Nat
  port  : Port
  link  : Nat
  msg   : Msg
  deriving DecidableEq, Repr

/-- The frames so far of an extent that a splice run receives: it is written once every frame has come with its checks right (09 R245). -/
structure RunPart where
  nsid : Nat
  gseq : Nat
  ext  : Nat
  slba : Nat
  blks : List CheckedBlk
  deriving DecidableEq, Repr

/-- The braid engine and the BRAID block (10). -/
structure Braid where
  splices  : List Splice
  reserves : List Reserve
  layoutOf : List (Nat × Nat)  -- namespaces whose layout a SWITCH record decides (R301)
  nextId   : Nat
  dualOff  : Bool
  reconRow : Nat
  reconPeer : Nat
  beyond   : Nat
  uncovered : Nat
  lastRefusal : List (Nat × Nat)  -- last refusal reason by namespace
  asks     : List Ask
  solves   : List Solve
  serves   : List Serve
  owed     : List Owed         -- answers that wait for a record (05 R132)
  rxGseq   : Nat               -- highest write sequence received from any home (R272)
  rxFailed : List (Nat × Nat × Nat × Nat)  -- NSID, GSEQ, EXT and first LBA of extents answered CHECK_FAILED, until they start again (09 R245)
  runParts : List RunPart
  hankReads : List HankRead    -- what splices and repairs are reading (10 R293, R297; log entry 78)
  runWaits : List RunWait      -- blocks that wait to be written into the splice run (10 R292)
  deriving DecidableEq, Repr

/-! ### Chapter 11: power states and the patrol -/

/-- Who asked for a state (11 R311 to R314). -/
inductive Asker
  | timer
  | host (port : Port) (cmd : Nat)
  | smbus
  | peer (port : Port) (link tag : Nat)
  | held                       -- the PERST_N rule of 04 R127
  deriving DecidableEq, Repr

/-- A sleep handshake (11 R315, R317). -/
structure Handshake where
  want    : PwrState
  asker   : Asker
  part    : Nat                -- the participant asked now, 1 to 12
  stopped : List Nat           -- participants that agreed, newest first
  waiting : Bool               -- participant 2 waits for its notices, or 0 for the checkpoint of R316
  also    : List (Port × Nat × Nat)   -- peers (port, link, TAG) whose orders for the same state are answered as it ends (09 R243, R244)
  deriving DecidableEq, Repr

/-- The power-state controller, the patrol and the PSTATE block (11). -/
structure PState where
  state    : Nat               -- 0 RUN, 1 IDLE, 2 SLEEP, 3 DEEP, 4 OFF, 5 PATROL
  back     : Nat               -- the state a patrol cycle returns to
  hs       : Option Handshake
  backoff  : Nat
  ordered  : Option (Port × PwrState)  -- a host-ordered non-operational state (R321)
  refPart  : Nat
  refReason : Nat
  refState : Nat
  refusals : Nat
  lastWake : Nat
  sleeps   : Nat
  deeps    : Nat
  deepSecs : Nat
  smbState : Nat
  smbRefused : Bool
  wakeLow  : Bool              -- WAKE_IN_N is low
  wakeTold : Bool              -- NOTICE 12.9 raised since the pin last fell (R325)
  pos      : List Nat          -- POS_0 to POS_3
  pass     : List Nat
  visited  : List Nat          -- pages already read of the visit that a group is in (R329)
  due      : List (Option (Nat × Nat))  -- by group: the device-seconds and the units visited that R328's schedule counts from
  cycle    : Nat               -- number of the next patrol cycle (R329)
  skip     : List Nat          -- units the skip map leaves to visit (R326)
  ptPages  : Nat
  ptRewrites : Nat
  ptUnrecov : Nat
  ptNohdr  : Nat
  behind   : Nat
  deriving DecidableEq, Repr

/-! ### Chapter 12: temperature and clocks -/

/-- One temperature input (12 R333, R337), by SOURCE code. -/
structure Input where
  reading : Int
  raw     : Nat
  same    : Nat                -- samples in a row with this raw code
  broken  : Bool
  deriving DecidableEq, Repr

/-- A running thermal shutdown (12 R347). -/
structure Shutdown where
  source  : Nat
  grace   : Bool               -- the 10 ms grace runs
  waited  : Bool               -- the record waits for a program (R346)
  susp    : Bool               -- an erase was suspended
  deriving DecidableEq, Repr

/-- Temperature, compensation and the THERM block (12). -/
structure Therm where
  inputs   : List Input        -- 8
  sampled  : Bool              -- a sample has been taken since reset
  dram     : List Nat          -- mode register 4 of each stack
  zones    : List (Option Int) -- ZONE_0 to ZONE_2, NZONE_0, NZONE_1
  runs     : List Nat          -- consecutive samples at or above shutdown, by zone
  means    : List (List Int)   -- the last one-second means of each zone, newest first (R343)
  acc      : List (Int × Nat)  -- the running second: sum and samples by zone
  step     : List Nat          -- die step, NAND steps
  warn     : Bool
  crit     : Bool
  startedThrottled : Bool
  peak     : Option Int
  stepChanges : Nat
  throttleS : Nat
  trims    : List Int          -- AON, SAFE, REFINT, BG_CORE, BG_AON
  calState : Nat
  refPpm   : Int
  shut     : Option Shutdown
  deriving DecidableEq, Repr

/-! ### Chapter 13: record flash and Cleat -/

/-- A 32-byte record of sectors 0 and 1 (13 R362). -/
structure FlashRec where
  type : Nat
  arg  : Nat
  arg2 : Nat
  seq  : Nat
  gen  : Nat
  secs : Nat
  deriving DecidableEq, Repr

/-- A key-store entry (13 R374): the key as it would unwrap. -/
structure KeyRec where
  slot   : Nat
  k256   : Bool
  state  : Nat                 -- 1 installed, 2 deleted
  seq    : Nat
  gen    : Nat
  key    : List Byte
  deriving DecidableEq, Repr

/-- An event-log entry (15 R419). -/
structure Entry where
  g       : Nat
  bit     : Nat
  rep     : Nat
  queued  : Bool
  seq     : Nat
  secs    : Nat
  subsec  : Nat
  powerOn : Nat
  arg0    : Nat
  arg1    : Nat
  deriving DecidableEq, Repr

/-- A thermal record (12 R349) or a stopper record (14 R397). -/
inductive HeatRec
  | thermal (source flags step : Nat) (zones : List (Option Int)) (dram : Nat) (powerOn secs : Nat)
  | stopper (group bit flags detail gseq powerOn secs resets : Nat)
  deriving DecidableEq, Repr

/-- One bank of record flash, area by area (13 R360). The custodian area is bytes by bank offset in canonical form:
offsets strictly rising, no byte equal to 0xFF, which an erased byte reads as. -/
structure Bank where
  level  : List FlashRec       -- sector 0, in slot order
  pins   : List FlashRec       -- sector 1
  header : Option (List Byte)  -- sector 2
  keys   : List KeyRec         -- sectors 3 to 6
  heat   : List (Nat × HeatRec)  -- sectors 7 to 14, by slot
  log    : List (Nat × List Entry)  -- log sectors of this bank: number and entries
  cust   : List Host.Cell      -- sectors 271 to 2046
  deriving DecidableEq, Repr

/-- What a record-flash operation writes or erases. -/
inductive FlashWhat
  | record (r : FlashRec)        -- sector 0 or 1, by its TYPE
  | header (bs : List Byte)
  | key (k : KeyRec)
  | heat (h : HeatRec)
  | entry (sector : Nat) (e : Entry)
  | page (off : Nat) (bs : List Byte)      -- a custodian page
  | eraseLog (sector : Nat)
  | eraseSector (sector : Nat)
  | eraseBank (keep0 : Bool)   -- the whole bank, or all but sector 0 (R372)
  | refresh (sector step : Nat)  -- one step of R367
  deriving DecidableEq, Repr

/-- A record-flash operation: its bank, and whether a copy for the other bank follows (R361). -/
structure FlashJob where
  bank  : Nat
  what  : FlashWhat
  other : Bool
  deriving DecidableEq, Repr

/-- Record flash and the RECF block (13). -/
structure RecFlash where
  banks    : Vector Bank 2
  busy     : Vector (Option FlashJob) 2
  suspended : Option FlashJob  -- an erase suspended by a thermal shutdown (12 R346)
  queue    : List FlashJob     -- operations that wait, in order
  lstate   : Nat
  lowTo    : Nat               -- the new level of a lowering that runs
  lowFinish : Bool             -- it finishes an earlier lowering (R372)
  lowTail  : Bool              -- its level record is still to be written into BANK_1 (R371, step 5)
  pinGen   : Word              -- PIN_GEN as last written
  hold     : Bool
  wrIgnored : Bool
  lowRefused : Bool
  cmdState : Nat
  cmdErr   : Nat
  faults   : Nat
  corrected : Nat
  uncorrected : Nat
  refreshes : Nat
  logAt    : Nat               -- log sector being written
  passed   : List Nat          -- log sectors that failed to erase (R368)
  ready    : List Nat          -- log sectors known erased
  page     : List Byte         -- PAGEBUF, 256 bytes
  deriving DecidableEq, Repr

/-- A Cleat context (13 R379). -/
structure Ctx where
  owner  : Port
  k256   : Bool
  source : Nat
  blocks : Nat
  chain  : List Byte
  key    : List Byte           -- 16 or 32 bytes
  deriving DecidableEq, Repr

/-- Cleat and its block (13). -/
structure Cleat where
  ctx        : Vector (Option Ctx) 16
  hostBlocks : Nat
  verifyBlocks : Nat
  busyRefused : Nat
  levelRefused : Nat
  unwrapFailed : Nat
  keysSkipped : Nat
  deriving DecidableEq, Repr

/-! ### Chapter 14: Lanyard -/

/-- Lanyard and the SAFE block (14). -/
structure Safe where
  stopper  : Bool
  safe     : Bool
  halted   : Bool
  spilled  : Bool
  sealed   : Bool
  toggle   : Bool
  group    : Nat
  bit      : Nat
  more     : Nat
  detail   : Nat
  stopSecs : Nat
  early    : Bool              -- entered before host ready
  noSpill  : Bool              -- R396 makes no spill
  order    : Bool              -- the device reset is ordered and waits (R398)
  spillDone : Bool
  clkFault : Nat
  windows  : List Nat          -- bad frequency windows in a row, by domain
  stAge    : Nat
  stFail   : Nat
  selftests : Nat
  corrDram : Nat
  corrSram : Nat
  corrMram : Nat
  padHigh  : Bool              -- the FAULT_N pad as last sampled
  deriving DecidableEq, Repr

/-! ### Chapter 15: events -/

/-- The EVT block (15). -/
structure Evt where
  status   : Vector Word 16
  log      : Vector Word 16
  msix     : Vector Word 16
  aen      : Vector Word 16
  alert    : Vector Word 16
  smb      : Vector Word 16
  vec1     : Vector Nat 16
  vec2     : Vector Nat 16
  smbAlert : Bool              -- SMB_ALERT_N is asserted
  queue    : List Entry
  dropped  : Nat
  bootDropped : Nat            -- QUEUE_DROP of BOOT: entries dropped from the queue before the gates open (R82)
  suppressed : Nat
  nextSeq  : Nat
  repeats  : List (Nat × Nat)  -- REPEAT counts by 32 × group + bit
  lastAt   : List (Nat × Nat)  -- device-seconds of the last raise of a rate-limited event
  minute   : Nat               -- the minute that the two counts below belong to
  infoMin  : Nat
  noticeMin : Nat
  quiet    : Nat               -- device-seconds from which R422 counts
  deriving DecidableEq, Repr

/-- The DEV block and the two counters that outlive a reset (15). -/
structure Dev where
  secs      : Nat              -- device-seconds counter, 48 bits
  powerOn   : Nat              -- power-on count, 32 bits
  lostAon   : Bool             -- VDD_AON was lost: the counters are restored at step 4
  badOffset : Nat
  badPort   : Port
  scratch   : Word
  latch     : List (Nat × Word)  -- latched high halves, by reading port and offset (log entry 12)
  deriving DecidableEq, Repr

/-- What lives in CLK_AON and is cleared by a cold reset only (00 R12). -/
structure Aon where
  coldHeld : Bool              -- the core is in a cold reset that the rails have not yet ended
  xtal     : Bool
  xtalLost : Bool              -- the crystal has been left until the next cold reset (03 R64)
  thermLatch : Bool
  thermAt  : Option (Nat × Int)  -- the shutdown whose ERROR 13.4 is still to be written: source and reading
  afterShutdown : Bool
  latchRefusals : Nat          -- R348
  refusalsTold : Nat           -- of those, not yet raised as NOTICE 13.7
  stopResets : Nat             -- 14 R399
  stopped  : Bool              -- this start follows a device reset from the stopper state (14 R398)
  replayRestarts : Nat
  restored : Bool
  noHistory : Bool
  wakeSeen : PerPort Bool
  calAon   : Option Int
  calRefint : Option Int
  deriving DecidableEq, Repr

/-- Input pins and the enables the device drives (16). -/
structure Pins where
  sysRstN  : Bool              -- level
  testMode : Bool
  npwrEn   : List Bool         -- NPWR_EN_0 to NPWR_EN_3
  dramPwrEn : Bool
  deriving DecidableEq, Repr

/-- The states of the boundary-scan port's controller, those of IEEE 1149.1 (16 R441). -/
inductive TapState
  | reset | idle
  | drSelect | drCapture | drShift | drExit1 | drPause | drExit2 | drUpdate
  | irSelect | irCapture | irShift | irExit1 | irPause | irExit2 | irUpdate
  deriving DecidableEq, Repr

/-- The instruction of the boundary-scan port (13 R369, 16 R441). -/
inductive TapInstr
  | bypass
  | idcode
  | other (code : Nat)
  deriving DecidableEq, Repr

/-- The boundary-scan port (16 R441): the controller's state, the instruction, and what the shift register between TDI and TDO holds, the next bit
for TDO first. -/
structure Tap where
  state : TapState
  instr : TapInstr
  shift : List Bool
  deriving DecidableEq, Repr

/-! ### Outputs -/

/-- One cycle that a sequencer puts on a channel's bus (07 R195). -/
inductive Cycle
  | cmd (b : Nat)
  | addr (bs : List Nat)
  | dataOut (bs : List Byte)   -- the bytes that go to the NAND
  | dataIn
  | wait (ps : Nat)
  | poll (lun : Bool)
  | mode (mode mts drive odt : Nat)  -- Set Features: interface mode and rate, drive strength and termination codes (R190, R192)
  | vrefq (code : Nat)         -- Set Features: the VREFQ code (R190, R193)
  | zq                         -- ZQ calibration (R190)
  | train                      -- one training attempt (R190)
  | levels (vs : List Int)
  deriving DecidableEq, Repr

/-- A frame that a port sends (09 R239, R240). -/
inductive OutFrame
  | data (seq : BitVec 24) (resent : Bool) (vc : Nat) (m : Msg)
  | ack
  | nak
  | hello (h : Hello)
  | helloAck (h : Hello)
  deriving DecidableEq, Repr

/-- Accesses to the configuration flash (03 R67 to R69). -/
inductive SpiOp
  | sfdp                       -- the SFDP table
  | read                       -- Read, instruction 03h
  | fastRead                   -- the fast read that SFDP declares for the lanes used
  | sectorErase                -- SFDP's 4 KiB sector erase
  | pageProgram                -- SFDP's page program, 256 bytes
  deriving DecidableEq, Repr

/-- What leaves the device, newest first in State.out (log entry 6). -/
inductive Out
  | cqe (port : Port) (sq cid sct sc dw0 : Nat)
  | bytes (port : Port) (sq cid : Nat) (bs : List Byte)
  | blocks (port : Port) (sq cid : Nat) (bs : List Blk)
  | msix (port : Port) (vector : Nat)
  | reg (port : Port) (v : Word)
  | abort (port : Port)                       -- Completer Abort
  | crs (port : Port)                         -- Configuration Request Retry Status
  | cfg (port : Port) (v : Word)
  | smb (bs : List Byte)
  | smbNack
  | frame (port : Port) (link : Nat) (ack : BitVec 24) (grant : List Nat) (f : OutFrame)
  | burst (port : Port) (addr : Nat)          -- a wake burst
  | bus (ch die : Nat) (cs : List Cycle)      -- a template played
  | spi (op : SpiOp) (lanes periodNs : Option Nat) (addr : Nat) (bs : List Byte)  -- an access to the configuration flash: a 3-byte address, the period of SPI_CLK
  | smbRecover                                -- both SMBus lines released, nine clocks and a STOP (04 R125)
  deriving DecidableEq, Repr

/-! ### The state -/

structure State where
  hly   : Halyard
  pwr   : Power
  flush : Option Flush
  cfg   : Vector (List (List Byte)) 2   -- the configuration flash: each copy's 4096-byte blocks; beyond the list, erased (03 R67)
  boot  : Boot
  stage : Option Staging
  prm   : Params
  ctl   : PerPort Ctl
  cmds  : List HostCmd
  resv  : List Registrant
  hold  : List Holder
  ptpl  : List Nat                   -- namespaces whose reservations persist
  orders : List OrderRec
  exts  : List Extent
  smb   : Smb
  hx    : HostX
  jrnl  : Jrnl
  map   : Motur
  media : Media
  peer  : PerPort PeerPort
  braid : Braid
  ps    : PState
  therm : Therm
  rf    : RecFlash
  cleat : Cleat
  safe  : Safe
  evt   : Evt
  dev   : Dev
  aon   : Aon
  pins  : Pins
  tap   : Tap
  out   : List Out
  fresh : Nat
  pending : List Instr
  deriving DecidableEq, Repr

/-! ### Reset

State.reset is the machine right after its first power-up, before VIN has risen: every volatile field at its reset
value, every non-volatile store as log entry 1 says. A value the spec does not give is named in log entry 2. -/

namespace State

def hly0 : Halyard :=
  { breaker := .off, dvdt := 0, cl := 0, ft := 0, rty := 0, timer := false, collapsed := false, vinGood := false,
    overVoltage := false, held := none, retryDue := false, heldOver := false, sink := false, dropHeld := false, faultClass := 0, trips := 0 }

def pwr0 : Power :=
  { voutOk := false, railsOk := false, charged := false, measured := false, bufackEn := false, topUpWait := false,
    measuring := false, measDue := false, deferrals := 0, class7 := false, lastClass := 0, tripsShown := 0, vinMv := 0,
    voutMv := 0, vhuMv := 0, iinMa := 0, capUf := 0, esrMohm := 0, euseMj := 0, measTime := 0,
    budget := Config.budgetDefault, budgetWant := Config.budgetDefault, flushUs := 0, flushSpilled := 0,
    flushUnspilled := 0 }

def boot0 : Boot :=
  { phase := 0, copy := 0, candidates := [], pinGen := none, loading := none, hdrOk := [none, none], headers := false, key := [],
    cause := [.notTried, .notTried], failBlock := [0, 0], genCopy := [0, 0], genUsed := 0, genGood := 0, gates := false,
    noImage := false, ready := false, hostReady := false, sealed := false, hostOk := false, thermalOk := false,
    clkRef := false, sfdp := none, rollback := false, pinnedBy := 0, firstStart := false, imgSel := 0, pcieMode := 0,
    smbAddr := 0, pinValid := false, pinCopy := 0, pinGenReg := 0, excluded := 0, imageMs := 0,
    readyMs := 0, stageState := 0, stageCopy := 0, stageCause := .none, stageBytes := 0, stageGen := 0,
    rwsTaken := [], release := none }

/-- The built-in SAFETY values (14 R401). -/
def safety0 : SafetySec := { hbUs := 1000, selftestH := 8, scrubH := 8, stopHoldS := 0, clkTolPct := 5 }

/-- What holds without a POWER_STATES section (03 R78, 11 R332). -/
def power0 : PowerSec :=
  { idleUs := 0, sleepMs := 0, deepS := 0, ceil := 3, patrolDays := 14, rows := 8, patrolPages := 256 }

/-- What holds without a RECORD_FLASH section (13 R376). -/
def rec0 : RecSec := { dual := false, refreshDays := 90, infoPerMin := 0, noticePerMin := 0 }

def prm0 : Params :=
  { identity := none, host := none, safety := safety0, thermal := none, geometry := none, readTiming := none,
    readLevels := none, mapping := none, namespaces := [], layouts := [], writeTiming := none, peer := none,
    power := power0, hasPower := false, recf := rec0, wrappedKeys := [], rebuild0 := 2000,
    mediaRws := [] }

def feat0 : Features :=
  { arbitration := 0, ps := 0, psOp := 0, tempOver := 0xFFFF, tempUnder := 0, errRecovery := 0, wce := true, queues := 0,
    intCoal := 0, intVec := [], atomicity := 0, aec := 0#32, kato := 0, hostId := 0#128, resvMask := [] }

def ctl0 : Ctl :=
  { en := false, rdy := false, cfs := false, link := false, speed := 0, width := 0, perstLow := true,
    asqs := 0, acqs := 0, asqHead := 0, asqTail := 0, sqs := [], cqs := [], feat := feat0, aers := [], aenWait := [], aenMask := [], msixMask := [], msixPend := [],
    errors := 0, errLog := [], resvLog := [], c1 := [], dropped := 0, pend := [] }

def smb0 : Smb :=
  { block := 0, offset := 0, off := false, fails := 0, recoveries := 0, wrIgnored := false, miFlags := 0#8,
    miCritical := 0#8, miTemp := 0, miUsed := 0 }

def hx0 : HostX := { stamp := 0, gseq := 0, conflicts := 0, perstHeld := false, perstTold := false, wprot := [], nextKey := 1 }

def jrnl0 : Jrnl :=
  { recs := [], next := 1, horizon := 0, waiting := [], state := 0, otherFree := true, runNum := none, runBegin := 0,
    runPages := 0, ckptNum := 0, ckptBegin := 0, carryTo := none, carryDue := false, accepted := 0, trigger := none, scanned := false,
    surveyed := false, index := [], redriven := 0, skipped := 0, deferred := 0, abandoned := 0, replayMs := 0,
    audFault := 0 }

def map0 : Motur :=
  { state := 0, hanks := [], strands := [], heat := [], sets := [], units := [], spills := [], slc := 0, slcF := 0, known := [],
    folding := false, capWp := false, wear := none, rewrites := [], evac := [], gcMs := 0, promotions := 0,
    demotions := 0, merges := 0, zeroFills := 0, lostBlocks := 0, wearMoves := 0 }

def target0 : Target := { fitted := false, state := .uninit, cause := 0, failAt := 0 }

def channel0 : Channel :=
  { state := 0, mode := 0, rate := 0, trains := 0, targets := List.replicate 8 target0, trainTemp := none, ceHigh := false, drives := false, term := false,
    reads := 0, programs := 0, erases := 0, pgmFails := 0, ersFails := 0, pgmSusp := 0, ersSusp := 0, busyMax := 0, duty := 100 }

def media0 : Media :=
  { nand := [], ckpt := none, work := none, mirror := [], retired := [], channels := Vector.replicate 16 channel0, erases := [],
    reads := [], progs := [], levels := [], set := [], fidAt := [], fidWant := [], fidBar := [], hardOk := 0, hardHigh := 0, soft1 := 0,
    soft2 := 0, soft3 := 0, unrecovered := 0, checkFail := 0, maxCorr := 0, fidAge := 0, fidDie := 0, fidLast := 0,
    fidDone := 0, fidAborted := 0, fidRejected := 0, density := 0, winDie := 0, winAge := 0 }

def port0 : PeerPort :=
  { phy := 0, slow := false, links := [], energy := false, discard := 0, fecCorr := 0, fecUncorr := 0, trains := 0,
    wakeIgnored := 0 }

def braid0 : Braid :=
  { splices := [], reserves := [], layoutOf := [], nextId := 1, dualOff := false, reconRow := 0, reconPeer := 0,
    beyond := 0, uncovered := 0, lastRefusal := [], asks := [], solves := [], serves := [],
    owed := [], rxGseq := 0, rxFailed := [], runParts := [], hankReads := [], runWaits := [] }

def ps0 : PState :=
  { state := 0, back := 0, hs := none, backoff := 1, ordered := none, refPart := 0, refReason := 0, refState := 0,
    refusals := 0, lastWake := 0, sleeps := 0, deeps := 0, deepSecs := 0, smbState := 0, smbRefused := false,
    wakeLow := false, wakeTold := false, pos := [0, 0, 0, 0], pass := [0, 0, 0, 0], visited := [0, 0, 0, 0],
    due := [none, none, none, none], cycle := 0, skip := [], ptPages := 0,
    ptRewrites := 0, ptUnrecov := 0, ptNohdr := 0, behind := 0 }

def input0 : Input := { reading := 0, raw := 0, same := 0, broken := false }

def therm0 : Therm :=
  { inputs := List.replicate 8 input0, sampled := false, dram := [0, 0], zones := List.replicate 5 none,
    runs := List.replicate 5 0, means := List.replicate 5 [], acc := List.replicate 5 (0, 0), step := [0, 0, 0],
    warn := false, crit := false, startedThrottled := false, peak := none, stepChanges := 0, throttleS := 0,
    trims := [0, 0, 0, 0, 0], calState := 0, refPpm := 0, shut := none }

def bank0 : Bank := { level := [], pins := [], header := none, keys := [], heat := [], log := [], cust := [] }

/-- The volatile part of record flash's state: what a reset returns to. -/
def recWork0 (banks : Vector Bank 2) : RecFlash :=
  { banks := banks, busy := Vector.replicate 2 none, suspended := none, queue := [], lstate := 0, lowTo := 0,
    lowFinish := false, lowTail := false, pinGen := 0#32, hold := false, wrIgnored := false, lowRefused := false, cmdState := 0, cmdErr := 0, faults := 0,
    corrected := 0, uncorrected := 0, refreshes := 0, logAt := 0, passed := [], ready := [],
    page := List.replicate 256 0#8 }

def cleat0 : Cleat :=
  { ctx := Vector.replicate 16 none, hostBlocks := 0, verifyBlocks := 0, busyRefused := 0, levelRefused := 0,
    unwrapFailed := 0, keysSkipped := 0 }

def safe0 : Safe :=
  { stopper := false, safe := false, halted := false, spilled := false, sealed := false, toggle := false, group := 0,
    bit := 0, more := 0, detail := 0, stopSecs := 0, early := false, noSpill := false, order := false,
    spillDone := false, clkFault := 0, windows := List.replicate 14 0, stAge := 0, stFail := 0, selftests := 0,
    corrDram := 0, corrSram := 0, corrMram := 0, padHigh := false }

def evt0 : Evt :=
  { status := Vector.replicate 16 0#32, log := Vector.ofFn fun g => defaultLog g,
    msix := Vector.ofFn fun g => defaultMsix g, aen := Vector.ofFn fun g => defaultAen g,
    alert := Vector.ofFn fun g => defaultAlert g, smb := Vector.ofFn fun g => defaultAlert g,
    vec1 := Vector.replicate 16 0, vec2 := Vector.replicate 16 0, smbAlert := false, queue := [], dropped := 0, bootDropped := 0,
    suppressed := 0, nextSeq := 0, repeats := [], lastAt := [], minute := 0, infoMin := 0, noticeMin := 0, quiet := 0 }

def dev0 : Dev :=
  { secs := 0, powerOn := 0, lostAon := true, badOffset := 0, badPort := .a, scratch := 0#32, latch := [] }

def aon0 : Aon :=
  { coldHeld := true, xtal := false, xtalLost := false, thermLatch := false, thermAt := none, afterShutdown := false, latchRefusals := 0, refusalsTold := 0,
    stopResets := 0, stopped := false, replayRestarts := 0, restored := false, noHistory := false,
    wakeSeen := ⟨false, false⟩, calAon := none, calRefint := none }

def pins0 : Pins :=
  { sysRstN := true, testMode := false, npwrEn := [false, false, false, false], dramPwrEn := false }

/-- The boundary-scan port after TRST_N or power-up: Test-Logic-Reset with IDCODE (IEEE 1149.1, PRESUMED, log entry 65). -/
def tap0 : Tap := { state := .reset, instr := .idcode, shift := [] }

def reset : State :=
  { hly := hly0, pwr := pwr0, flush := none, cfg := Vector.replicate 2 [], boot := boot0, stage := none, prm := prm0,
    ctl := ⟨ctl0, ctl0⟩, cmds := [], resv := [], hold := [], ptpl := [], orders := [], exts := [], smb := smb0,
    hx := hx0, jrnl := jrnl0, map := map0, media := media0, peer := ⟨port0, port0⟩, braid := braid0, ps := ps0,
    therm := therm0, rf := recWork0 (Vector.replicate 2 bank0), cleat := cleat0, safe := safe0, evt := evt0,
    dev := dev0, aon := aon0, pins := pins0, tap := tap0, out := [], fresh := 0, pending := [] }

end State

end Sys2Proof.Machine
end

