-- ==== Sys2Proof/Machine/Kv.lean ====
section
/-! DEFINITION. Bit fields, little-endian bytes, saturating counts, and lists of key and value pairs in ascending key order. -/

namespace Sys2Proof.Machine

open Sys2Proof

/-- Field h:l of a number (00 R5). -/
def field (v : Nat) (h l : Nat) : Nat := (v / 2 ^ l) % 2 ^ (h + 1 - l)

/-- Bit b of a number. -/
def bit (v b : Nat) : Bool := (v / 2 ^ b) % 2 = 1

/-- 1 for true. -/
def b2n (b : Bool) : Nat := if b then 1 else 0

/-- A count that saturates at w bits. -/
def sat (w n : Nat) : Nat := min n (2 ^ w - 1)

/-- A saturating increment. -/
def inc (w n : Nat) : Nat := sat w (n + 1)

/-- The n little-endian bytes of a number (00 R6). -/
def le : Nat → Nat → List Byte
  | 0, _ => []
  | n + 1, v => BitVec.ofNat 8 v :: le n (v / 256)

/-- The number that little-endian bytes spell (00 R6). -/
def leVal : List Byte → Nat
  | [] => 0
  | b :: bs => b.toNat + 256 * leVal bs

/-- The number that big-endian bytes spell. -/
def beVal (bs : List Byte) : Nat := bs.foldl (fun v b => v * 256 + b.toNat) 0

/-- n bytes from an offset. -/
def sub (bs : List Byte) (off n : Nat) : List Byte := (bs.drop off).take n

/-- A little-endian field of a byte list. -/
def rd (bs : List Byte) (off n : Nat) : Nat := leVal (sub bs off n)

/-- Bytes padded with zeros, or cut, to a length. -/
def fit (n : Nat) (bs : List Byte) : List Byte := (bs ++ List.replicate n 0#8).take n

/-- Bytes placed at ascending offsets, zeros between them. -/
def layOut (size : Nat) (fs : List (Nat × List Byte)) : List Byte :=
  fit size (fs.foldl (fun acc f => fit f.1 acc ++ f.2) [])

/-- Whether every byte of a part is zero. -/
def allZero (bs : List Byte) : Bool := bs.all (fun b => b = 0#8)

/-- Zero bytes. -/
def zeros (n : Nat) : List Byte := List.replicate n 0#8

/-- The two's complement value of a number of w bits. -/
def signed (w n : Nat) : Int := if n < 2 ^ (w - 1) then n else (n : Int) - 2 ^ w

/-- The w-bit code of an integer. -/
def code (w : Nat) (i : Int) : Nat := (i % (2 ^ w : Int)).toNat

/-- Element i of a list, or a given value. -/
def nth {α : Type} (l : List α) (i : Nat) (d : α) : α := (l[i]?).getD d

/-- A list with one element changed. -/
def modAt {α : Type} : List α → Nat → (α → α) → List α
  | [], _, _ => []
  | a :: l, 0, f => f a :: l
  | a :: l, i + 1, f => a :: modAt l i f

/-- A vector with one element changed; indices beyond it change nothing. -/
def modVec {α : Type} {n : Nat} (v : Vector α n) (i : Nat) (f : α → α) : Vector α n :=
  Vector.ofFn fun j => if j.val = i then f v[j] else v[j]

/-- Element i of a vector, or a given value. -/
def vecAt {α : Type} {n : Nat} (v : Vector α n) (i : Nat) (d : α) : α := if h : i < n then v[i] else d

/-- The element of one port. -/
def PerPort.get {α : Type} (v : PerPort α) : Port → α
  | .a => v.a
  | .b => v.b

/-- A pair with the element of one port changed. -/
def PerPort.modify {α : Type} (v : PerPort α) (p : Port) (f : α → α) : PerPort α :=
  match p with
  | .a => { v with a := f v.a }
  | .b => { v with b := f v.b }

/-- The other port. -/
def otherPort : Port → Port
  | .a => .b
  | .b => .a

/-- 0 for port A, 1 for port B. -/
def portNo : Port → Nat
  | .a => 0
  | .b => 1

/-- The controller on a port, 1 or 2 (04 R100). -/
def ctrlNo (p : Port) : Nat := portNo p + 1

/-- The value of a key. -/
def kvGet {α : Type} : List (Nat × α) → Nat → Option α
  | [], _ => none
  | (k, v) :: l, key => if k = key then some v else kvGet l key

/-- A list with a key's value set, keys ascending. -/
def kvPut {α : Type} : List (Nat × α) → Nat → α → List (Nat × α)
  | [], key, v => [(key, v)]
  | (k, w) :: l, key, v =>
    if key < k then (key, v) :: (k, w) :: l
    else if key = k then (key, v) :: l
    else (k, w) :: kvPut l key v

/-- A list without a key. -/
def kvDel {α : Type} (l : List (Nat × α)) (key : Nat) : List (Nat × α) := l.filter (fun e => e.1 ≠ key)

/-- A count by key, absent for 0. -/
def kvCount (l : List (Nat × Nat)) (key : Nat) : Nat := (kvGet l key).getD 0

/-- A number inserted in an ascending list without repeats. -/
def insNat : List Nat → Nat → List Nat
  | [], n => [n]
  | k :: l, n => if n < k then n :: k :: l else if n = k then k :: l else k :: insNat l n

/-- Numbers without repeats, ascending. -/
def distinct (l : List Nat) : List Nat := l.foldl insNat []

/-- Whether a list holds a number. -/
def has (l : List Nat) (n : Nat) : Bool := l.any (fun k => k = n)

/-- The sum of a list. -/
def sumN (l : List Nat) : Nat := l.foldl (· + ·) 0

/-- The ceiling of a quotient. -/
def ceilDiv (a b : Nat) : Nat := (a + b - 1) / b

/-- The least number of bits that count n values. -/
def clog2 (n : Nat) : Nat := if n ≤ 1 then 0 else Nat.log2 (n - 1) + 1

/-- The first element with the least key; none of an empty list. -/
def argMin {α : Type} (f : α → Nat) : List α → Option α
  | [] => none
  | a :: l => match argMin f l with
    | none => some a
    | some b => if f a ≤ f b then some a else some b

/-- The first element with the greatest key. -/
def argMax {α : Type} (f : α → Nat) : List α → Option α
  | [] => none
  | a :: l => match argMax f l with
    | none => some a
    | some b => if f b ≤ f a then some a else some b

/-- An element inserted by a key, after those with an equal key. -/
def insBy {α : Type} (f : α → Nat) : α → List α → List α
  | x, [] => [x]
  | x, a :: l => if f x < f a then x :: a :: l else a :: insBy f x l

/-- A stable sort by a key. -/
def sortBy {α : Type} (f : α → Nat) (l : List α) : List α := l.foldl (fun acc x => insBy f x acc) []

/-- The pieces of n elements of a list; the last may be shorter. -/
def chunks {α : Type} (n : Nat) : Nat → List α → List (List α)
  | 0, _ => []
  | fuel + 1, l => if l.isEmpty then [] else l.take n :: chunks n fuel (l.drop n)

/-! ### One field of the state changed

Each answers the state with one field replaced by a function of it, every other field as it was. -/

def onHly (f : Halyard → Halyard) (s : State) : State := { s with hly := f s.hly }
def onPwr (f : Power → Power) (s : State) : State := { s with pwr := f s.pwr }
def onFlush (f : Option Flush → Option Flush) (s : State) : State := { s with flush := f s.flush }
def onCfg (f : Vector (List (List Byte)) 2 → Vector (List (List Byte)) 2) (s : State) : State := { s with cfg := f s.cfg }
def onBoot (f : Boot → Boot) (s : State) : State := { s with boot := f s.boot }
def onStage (f : Option Staging → Option Staging) (s : State) : State := { s with stage := f s.stage }
def onPrm (f : Params → Params) (s : State) : State := { s with prm := f s.prm }
def onCtl (f : PerPort Ctl → PerPort Ctl) (s : State) : State := { s with ctl := f s.ctl }
def onCmds (f : List HostCmd → List HostCmd) (s : State) : State := { s with cmds := f s.cmds }
def onResv (f : List Registrant → List Registrant) (s : State) : State := { s with resv := f s.resv }
def onHold (f : List Holder → List Holder) (s : State) : State := { s with hold := f s.hold }
def onPtpl (f : List Nat → List Nat) (s : State) : State := { s with ptpl := f s.ptpl }
def onOrders (f : List OrderRec → List OrderRec) (s : State) : State := { s with orders := f s.orders }
def onExts (f : List Extent → List Extent) (s : State) : State := { s with exts := f s.exts }
def onSmb (f : Smb → Smb) (s : State) : State := { s with smb := f s.smb }
def onHx (f : HostX → HostX) (s : State) : State := { s with hx := f s.hx }
def onJrnl (f : Jrnl → Jrnl) (s : State) : State := { s with jrnl := f s.jrnl }
def onMap (f : Motur → Motur) (s : State) : State := { s with map := f s.map }
def onMedia (f : Media → Media) (s : State) : State := { s with media := f s.media }
def onPeer (f : PerPort PeerPort → PerPort PeerPort) (s : State) : State := { s with peer := f s.peer }
def onBraid (f : Braid → Braid) (s : State) : State := { s with braid := f s.braid }
def onPs (f : PState → PState) (s : State) : State := { s with ps := f s.ps }
def onTherm (f : Therm → Therm) (s : State) : State := { s with therm := f s.therm }
def onRf (f : RecFlash → RecFlash) (s : State) : State := { s with rf := f s.rf }
def onCleat (f : Cleat → Cleat) (s : State) : State := { s with cleat := f s.cleat }
def onSafe (f : Safe → Safe) (s : State) : State := { s with safe := f s.safe }
def onEvt (f : Evt → Evt) (s : State) : State := { s with evt := f s.evt }
def onDev (f : Dev → Dev) (s : State) : State := { s with dev := f s.dev }
def onAon (f : Aon → Aon) (s : State) : State := { s with aon := f s.aon }
def onPins (f : Pins → Pins) (s : State) : State := { s with pins := f s.pins }
def onTap (f : Tap → Tap) (s : State) : State := { s with tap := f s.tap }
def onOut (f : List Out → List Out) (s : State) : State := { s with out := f s.out }
def onFresh (f : Nat → Nat) (s : State) : State := { s with fresh := f s.fresh }
def onPending (f : List Instr → List Instr) (s : State) : State := { s with pending := f s.pending }

/-- A free value of the chip, and the state with its counter advanced (log entry 7). -/
def draw (s : State) : Nat × State := (Config.freeNat s.fresh, { s with fresh := s.fresh + 1 })

/-- A free choice of the chip (log entry 7). -/
def drawBool (s : State) : Bool × State := (Config.freeBool s.fresh, { s with fresh := s.fresh + 1 })

/-- The state with one more output (log entry 6). -/
def emit (o : Out) (s : State) : State := { s with out := o :: s.out }

end Sys2Proof.Machine
end

