-- ==== Sys2Proof/Machine/Crc.lean ====
section
/-! DEFINITION. The checks and the parity arithmetic: CRC-32C (05 R129), the end-to-end CRC-64 (08 R230), and the
field GF(2^8) of braid and long-braid parity (10 R276). -/

namespace Sys2Proof.Machine

open Sys2Proof

/-- One byte of CRC-32C, reflected, polynomial 0x1EDC_6F41 (05 R129). -/
def crc32Byte (c : BitVec 32) (b : Byte) : BitVec 32 :=
  (List.range 8).foldl
    (fun c _ => if c.getLsbD 0 then (c >>> 1) ^^^ 0x82F63B78#32 else c >>> 1) (c ^^^ b.setWidth 32)

/-- CRC-32C of a byte list (05 R129). -/
def crc32c (bs : List Byte) : BitVec 32 := ~~~ (bs.foldl crc32Byte (~~~ 0#32))

/-- One byte of the CRC-64 of ECMA-182, not reflected (08 R230). -/
def crc64Byte (c : BitVec 64) (b : Byte) : BitVec 64 :=
  (List.range 8).foldl
    (fun c _ => if c.msb then (c <<< 1) ^^^ 0x42F0E1EBA9EA3693#64 else c <<< 1) (c ^^^ (b.setWidth 64 <<< 56))

/-- CRC-64 of a byte list from an initial value (08 R230). -/
def crc64 (init : BitVec 64) (bs : List Byte) : BitVec 64 := bs.foldl crc64Byte init

/-- The initial value of a block's check: NOT((NSID × 2^40) OR LBA) (08 R230). -/
def checkSeed (nsid lba : Nat) : BitVec 64 := ~~~ (BitVec.ofNat 64 (nsid * 2 ^ 40) ||| BitVec.ofNat 64 (lba % 2 ^ 40))

/-- The end-to-end check of a logical block (01 R24, 08 R230). -/
def blockCheck (nsid lba : Nat) (hostMeta : Bool) (b : Blk) : Check :=
  crc64 (checkSeed nsid lba) (if hostMeta then b.data ++ b.hm else b.data)

/-- A block of zeros: what an unmapped block reads as (01 R30). -/
def zeroBlk : Blk := { data := zeros 4096, hm := zeros 64 }

/-- Byte-wise exclusive or. -/
def xorBytes (a b : List Byte) : List Byte := List.zipWith (· ^^^ ·) a b

/-- Multiplication by α = 2 in GF(2^8) of 0x11D (10 R276). -/
def gfDouble (b : Byte) : Byte := if b.msb then (b <<< 1) ^^^ 0x1D#8 else b <<< 1

/-- Multiplication by α^n. -/
def gfShift : Nat → Byte → Byte
  | 0, b => b
  | n + 1, b => gfDouble (gfShift n b)

/-- A block's bytes multiplied by α^n. -/
def gfBlk (n : Nat) (b : Blk) : Blk := { data := b.data.map (gfShift n), hm := b.hm.map (gfShift n) }

/-- The sum of two blocks, byte by byte. -/
def xorBlk (a b : Blk) : Blk := { data := xorBytes a.data b.data, hm := xorBytes a.hm b.hm }

/-- Parity i of data blocks X_0, X_1, …: P, Q or R of 10 R276 for i = 0, 1, 2. -/
def parityBlk (i : Nat) (xs : List Blk) : Blk :=
  (xs.zipIdx).foldl (fun acc x => xorBlk acc (gfBlk (i * x.2) x.1)) zeroBlk

/-- Multiplication in GF(2^8) of 0x11D (10 R276). -/
def gfMul (a b : Byte) : Byte :=
  (List.range 8).foldl (fun acc i => if b.getLsbD i then acc ^^^ gfShift i a else acc) 0#8

/-- The inverse of a non-zero element: its 254th power. -/
def gfInv (a : Byte) : Byte := (List.range 253).foldl (fun acc _ => gfMul acc a) a

/-- A block's bytes multiplied by an element. -/
def scaleBlk (c : Byte) (b : Blk) : Blk := { data := b.data.map (gfMul c), hm := b.hm.map (gfMul c) }

/-- Linear equations over GF(2^8) in n unknown blocks, each a list of coefficients and a right side, solved by elimination. -/
def gfSolve : Nat → List (List Byte × Blk) → Option (List Blk)
  | 0, _ => some []
  | n + 1, rows =>
    match rows.findIdx? (fun r => r.1.headD 0#8 ≠ 0#8) with
    | none => none
    | some i =>
      match rows[i]? with
      | none => none
      | some (cs, b) =>
        let inv := gfInv (cs.headD 0#8)
        let tl := cs.tail.map (gfMul inv)
        let b := scaleBlk inv b
        let rest := (rows.eraseIdx i).map (fun r =>
          (List.zipWith (fun x y => x ^^^ gfMul (r.1.headD 0#8) y) r.1.tail tl, xorBlk r.2 (scaleBlk (r.1.headD 0#8) b)))
        match gfSolve n rest with
        | none => none
        | some xs => some ((List.zipWith scaleBlk tl xs).foldl xorBlk b :: xs)

/-- The missing data blocks of a row of k, from the blocks known by data index and the parities known by parity index (10 R276). -/
def solveRow (k : Nat) (known : List (Nat × Blk)) (par : List (Nat × Blk)) : Option (List (Nat × Blk)) :=
  let miss := (List.range k).filter (fun d => !known.any (fun x => x.1 = d))
  let rows := (par.take miss.length).map (fun p =>
    (miss.map (fun d => gfShift (p.1 * d) 1#8), known.foldl (fun acc x => xorBlk acc (gfBlk (p.1 * x.1) x.2)) p.2))
  if par.length < miss.length then none else (gfSolve miss.length rows).map (fun xs => miss.zip xs)

end Sys2Proof.Machine
end

