-- ==== Sys2Proof/Machine/Bromin.lean ====
section
/-! DEFINITION. The Bromin media format (08): the bytes of a header page with its BCH code (R217, R218, R220), of a block slot's information part
and metadata (R224, R229), the scrambler (R225, R226), the LDPC code (R227, R228), and the bytes of a whole page as they go to the NAND. -/

namespace Sys2Proof.Machine

open Sys2Proof

/-- Codeword bytes by LDPC_M (07 R203, 08 R220). -/
def codewordBytes (m : Nat) : Nat := 4224 + 64 * m

/-- Bytes of a page, data and spare (08 R220). -/
def pageSize (g : Geometry) : Nat := 4096 * g.s + g.spare

/-- Page types of a native page: 3 for TLC, 4 for QLC (07 R196, 08 R215). -/
def nativeTypes (g : Geometry) : Nat := if g.cell = 2 then 4 else 3

/-! ### The BCH code of the header (08 R218)

An element of GF(2^13) is the number whose bit i is its coefficient of α^i; a polynomial over GF(2) likewise. -/

/-- Multiplication by α, a root of x^13 + x^4 + x^3 + x + 1. -/
def bchDouble (a : Nat) : Nat := if a < 4096 then 2 * a else (2 * a) ^^^ 0x201B

/-- The product of two elements. -/
def bchMul (a b : Nat) : Nat :=
  (List.range 13).foldr (fun i acc => if b.testBit i then bchDouble acc ^^^ a else bchDouble acc) 0

/-- α to a power. -/
def bchPow : Nat → Nat
  | 0 => 1
  | n + 1 => bchDouble (bchPow n)

/-- The exponents of the conjugates of α^e: e, 2e, 4e, … modulo 8191. -/
def conjugates (e : Nat) : List Nat := (List.range 13).map (fun i => e * 2 ^ i % 8191)

/-- A polynomial over the field, lowest coefficient first, times x + r. -/
def timesRoot (r : Nat) (p : List Nat) : List Nat :=
  List.zipWith (fun a b => a ^^^ b) (0 :: p) (p.map (bchMul r) ++ [0])

/-- The minimal polynomial of α^e over GF(2), for an odd e below 144: its 13 conjugates are distinct. -/
def minPoly (e : Nat) : Nat :=
  leBits (((conjugates e).foldl (fun p i => timesRoot (bchPow i) p) [1]))
where
  leBits : List Nat → Nat
    | [] => 0
    | c :: cs => c % 2 + 2 * leBits cs

/-- The product of two polynomials over GF(2), the second of degree at most 13. -/
def polyMul (a b : Nat) : Nat :=
  (List.range 14).foldl (fun acc i => if b.testBit i then acc ^^^ (a <<< i) else acc) 0

/-- Of the exponents 1 to 144, the least of each class of conjugates. -/
def bchLeaders : List Nat := (List.range 145).filter (fun e => 1 ≤ e && (conjugates e).all (fun c => e ≤ c))

/-- g(x): the least common multiple of the minimal polynomials of α^1 to α^144, that is the product of the distinct ones. Its degree is 923, not the
936 that R218 states: DEDUCED, log entry 59. -/
def bchGen : Nat := bchLeaders.foldl (fun g e => polyMul g (minPoly e)) 1

/-- One more coefficient, the next lower one, of a polynomial that is divided by g(x): the remainder so far times x, plus it. -/
def bchBit (g r : Nat) (b : Bool) : Nat :=
  let r := 2 * r + (if b then 1 else 0)
  if r.testBit (Nat.log2 g) then r ^^^ g else r

/-- The bits of a byte from bit 7 to bit 0. -/
def msbFirst (b : Byte) : List Bool := [b.getLsbD 7, b.getLsbD 6, b.getLsbD 5, b.getLsbD 4, b.getLsbD 3, b.getLsbD 2, b.getLsbD 1, b.getLsbD 0]

/-- r(x) = m(x) × x^936 mod g(x). -/
def bchRest (payload : List Byte) : Nat :=
  let g := bchGen
  (List.replicate 936 false).foldl (bchBit g) (payload.foldl (fun r b => (msbFirst b).foldl (bchBit g) r) 0)

/-- The 117 parity bytes of a header frame, x^935 first. -/
def bchParity (payload : List Byte) : List Byte := (le 117 (bchRest payload)).reverse

/-! ### The header page (08 R217, R220) -/

/-- A MEMBERS entry: the unit's FORM 0x2 fields, or the mark of a channel without a member (06 R158; log entry 58). -/
def memberBytes : Option Nat → List Byte
  | some a => le 3 a
  | none => le 3 0xFFFFFF

/-- CHANNELS: bit c for a member on CH_c. -/
def memberMask (ms : List (Option Nat)) : Nat :=
  sumN ((List.range 16).map (fun c => if (nth ms c none).isSome then 2 ^ c else 0))

/-- Physical pages of a unit by the mode of its page rows, the header page included: the first wordline of a native unit holds the header alone (08
R215, R220). -/
def unitPages (g : Geometry) (cell : Nat) : Nat :=
  if cell = 0 then g.pagesSlc else g.pagesNative + 1 - (if g.cell = 2 then 4 else 3)

/-- MAGIC and VERSION of a header (08 R220). -/
def headerMagic : Nat := 0x4E4D5242
def headerVersion : Nat := 1

/-- The 902 bytes that HCRC covers, of one copy. -/
def headerBody (g : Geometry) (addr : Nat) (h : Header) (copy : Nat) : List Byte :=
  layOut 0x386
    [(0x000, le 4 headerMagic), (0x004, le 1 headerVersion), (0x005, le 1 copy), (0x006, le 1 h.role), (0x007, le 1 h.cell), (0x008, le 2 Config.part),
     (0x00C, le 4 h.gen), (0x010, le 8 h.nodeId), (0x018, le 8 h.createGseq), (0x020, le 6 h.createSecs), (0x028, le 4 h.pe),
     (0x02C, le 4 addr), (0x030, le 2 (unitPages g h.cell)), (0x032, le 1 g.s), (0x033, le 1 g.dies), (0x034, le 2 (pageSize g)),
     (0x036, le 2 g.spare), (0x038, le 2 g.units), (0x03A, le 2 g.peRated), (0x040, le 1 1), (0x041, le 1 23), (0x042, le 1 18),
     (0x043, le 1 64), (0x044, le 4 0x7FFFFF), (0x048, le 1 1), (0x049, le 1 g.ldpcM), (0x04A, le 2 512), (0x04C, le 1 66),
     (0x04D, le 1 3), (0x04E, le 2 37), (0x050, le 2 19), (0x052, le 2 (codewordBytes g.ldpcM)), (0x058, le 8 0x42F0E1EBA9EA3693),
     (0x060, le 1 1), (0x061, le 1 65), (0x062, le 2 4224), (0x068, le 4 (h.set.getD 0xFFFFFFFF)), (0x06C, le 2 h.layout),
     (0x06E, le 1 h.layoutKind), (0x06F, le 1 h.position), (0x070, le 1 h.d), (0x071, le 1 1), (0x072, le 2 (memberMask h.members)),
     (0x074, ((List.range 16).map (fun c => memberBytes (nth h.members c none))).flatten), (0x0A4, le 1 h.xk), (0x0A5, le 1 h.xm),
     (0x0A6, le 1 h.xpos), (0x0A8, fit 120 ((h.xnodes.map (le 8)).flatten)), (0x120, le 4 (h.partner.getD 0))]

/-- The 906 payload bytes of one copy. -/
def headerPayload (g : Geometry) (addr : Nat) (h : Header) (copy : Nat) : List Byte :=
  headerBody g addr h copy ++ le 4 (crc32c (headerBody g addr h copy)).toNat

/-- A frame of 1024 bytes. -/
def headerFrame (g : Geometry) (addr : Nat) (h : Header) (copy : Nat) : List Byte :=
  headerPayload g addr h copy ++ bchParity (headerPayload g addr h copy) ++ [0#8]

/-- The header page: four frames, and zeros to its end. -/
def headerPage (g : Geometry) (addr : Nat) (h : Header) : List Byte :=
  fit (pageSize g) ((List.range 4).flatMap (headerFrame g addr h))

/-! ### A block slot (08 R224, R229) -/

/-- FLAGS of the metadata. -/
def slotFlags (x : Slot) : Nat := b2n x.lost + 2 * b2n x.zeroFill + 4 * b2n x.replayed + 8 * b2n x.spill + 16 * b2n x.hostMeta

/-- The 60 bytes that MCRC covers. -/
def metaBody (x : Slot) : List Byte :=
  layOut 0x3C
    [(0x00, le 4 x.nsid), (0x04, le 1 x.kind), (0x05, le 1 (slotFlags x)), (0x06, le 2 x.layout), (0x08, le 8 x.lba), (0x10, le 8 x.gseq),
     (0x18, le 8 x.check.toNat), (0x20, le 4 x.set), (0x24, le 4 x.block)]

/-- The Bromin metadata of a slot. -/
def metaBytes (x : Slot) : List Byte := metaBody x ++ le 4 (crc32c (metaBody x)).toNat

/-- The information part of a slot: 4096 data bytes, 64 bytes of host metadata, 64 bytes of Bromin metadata. -/
def infoPart (x : Slot) : List Byte :=
  fit 4096 x.blk.data ++ (if x.hostMeta then fit 64 x.blk.hm else zeros 64) ++ metaBytes x

/-! ### The scrambler (08 R225, R226) -/

/-- The seed of a segment. -/
def scrSeed (addr page slot seg : Nat) : Nat :=
  let v := (addr % 2 ^ 23) ^^^ ((page * 1024 + slot * 128 + seg) % 2 ^ 23)
  if v = 0 then 0x7FFFFF else v

/-- The window of 23 sequence bits moved by one: bit i of it is a_(n+i). -/
def scrNext (w : Nat) : Nat := w / 2 + (if w.testBit 18 != w.testBit 0 then 2 ^ 22 else 0)

/-- n keystream bits from a window, the first one lowest. -/
def keyBits : Nat → Nat → Nat
  | 0, _ => 0
  | n + 1, w => w % 2 + 2 * keyBits n (scrNext w)

/-- A segment of 512 bits: bit t is bit t mod 8 of byte t div 8 (08 R224). -/
abbrev Segment := BitVec 512

/-- The segment of 64 bytes, and back. -/
def segOf (bs : List Byte) : Segment := BitVec.ofNat 512 (leVal bs)
def segBytes (v : Segment) : List Byte := le 64 v.toNat

/-- A segment scrambled with a seed; the same again descrambles it. -/
def scramble (seed : Nat) (v : Segment) : Segment := v ^^^ BitVec.ofNat 512 (keyBits 512 seed)

/-! ### The LDPC code (08 R227, R228) -/

/-- The three rows of an information column. -/
def ldpcRows (m j : Nat) : List Nat :=
  let q := j / m % (m - 3)
  [j % m, (j + 1 + q) % m, (j + 3 + 2 * q) % m]

/-- The shift of row i in information column j. -/
def ldpcShift (i j : Nat) : Nat := ((i + 1) * (37 * j + 19)) % 512

/-- P^s(v): bit t is bit (t + s) mod 512 of v. -/
def segShift (s : Nat) (v : Segment) : Segment := v.rotateRight s

/-- s_i: the sum of row i over the information segments. -/
def rowSum (m i : Nat) (us : List Segment) : Segment :=
  us.zipIdx.foldl (fun acc u => if has (ldpcRows m u.2) i then acc ^^^ segShift (ldpcShift i u.2) u.1 else acc) 0#512

/-- The parity segments: each the sum of its row and of the parity segment before. -/
def ldpcParity (m : Nat) (us : List Segment) : List Segment :=
  ((List.range m).foldl (fun acc i => (rowSum m i us ^^^ acc.headD 0#512) :: acc) []).reverse

/-- The sum of row i over all its entries, parity included: row i holds parity columns i and i − 1 with shift 0. -/
def checkRow (m i : Nat) (us ps : List Segment) : Segment :=
  rowSum m i us ^^^ nth ps i 0#512 ^^^ (if i = 0 then 0#512 else nth ps (i - 1) 0#512)

/-- Whether information and parity segments make a codeword (08 R228). -/
def isCodeword (m : Nat) (us ps : List Segment) : Bool := (List.range m).all (fun i => checkRow m i us ps = 0#512)

/-! ### Pages -/

/-- The scrambled segments of a slot on a physical page of a unit. -/
def slotSegments (addr page slot : Nat) (x : Slot) : List Segment :=
  (List.range 66).map (fun k => scramble (scrSeed addr page slot k) (segOf (sub (infoPart x) (64 * k) 64)))

/-- The codeword of a slot: its scrambled information part, and M parity segments, which are not scrambled (08 R224, R226). -/
def codeword (m addr page slot : Nat) (x : Slot) : List Byte :=
  (slotSegments addr page slot x ++ ldpcParity m (slotSegments addr page slot x)).flatMap segBytes

/-- The bytes of a page row's page: the codewords of its slots, and zeros to its end (08 R224). -/
def pageBytes (g : Geometry) (addr page : Nat) (slots : List Slot) : List Byte :=
  fit (pageSize g) (slots.zipIdx.flatMap (fun x => codeword g.ldpcM addr page x.2 x.1))

end Sys2Proof.Machine
end

