-- ==== Sys2Proof/Machine/Ops.lean ====
section
/-! DEFINITION. The operations that every chapter shares: raising an event (15 R406 to R418), posting a completion, writing
a journal record (05 R128 to R138), counting buffer tokens (01 R27), finding namespaces, layouts and links. -/

namespace Sys2Proof.Machine

open Sys2Proof

/-! ### Ports, gates and parameters -/

/-- Whether outward effects of events are released: the gates of 03 R82, or those that 03 R93 releases. -/
def outwardOpen (s : State) : Bool := s.boot.gates || s.boot.noImage

/-- Whether a host reaches BAR2 through a port: its link is up, and the HOST section has verified or the device is in the no-image state (03 R83,
R93; log entry 50). -/
def bar2Open (s : State) (p : Port) : Bool := (s.ctl.get p).link && (s.boot.hostOk || s.boot.noImage)

/-- Whether the SMBus answers: from READY on and in the stopper state, outside OFF, unless 04 R125 has disabled it (03 R63, 04 R122, 16 R427). -/
def smbAlive (s : State) : Bool := s.pwr.railsOk && (s.boot.ready || s.safe.stopper) && !s.smb.off && s.ps.state ≠ 4

/-- One controller changed. -/
def setCtl (p : Port) (f : Ctl → Ctl) (s : State) : State := { s with ctl := s.ctl.modify p f }

/-- Two ×2 ports (04 R100): PCIE_MODE strap level 1; every other level is one ×4 port (03 R65). -/
def dualPort (s : State) : Bool := s.boot.pcieMode = 1

/-- The protection level in force: that of the newest record of either bank (13 R369). A level or a lowering above 2
counts as 2; a lowering record keeps its old level. -/
def levelRecs (s : State) : List FlashRec :=
  (s.rf.banks[0].level ++ s.rf.banks[1].level).filter (fun r => r.type = 0x4C || r.type = 0x6C)

/-- The newest of a list of records by SEQ (13 R361). -/
def newestRec (l : List FlashRec) : Option FlashRec := argMax (fun r => r.seq) l

def level (s : State) : Nat :=
  match newestRec (levelRecs s) with
  | none => 0
  | some r =>
    if r.type = 0x4C then min r.arg 2
    else if r.arg > 2 ∨ r.arg2 > 2 then 2 else r.arg2

/-- The namespace entry of an NSID. -/
def nsOf (s : State) (nsid : Nat) : Option NsEntry := s.prm.namespaces.find? (fun n => n.nsid = nsid)

/-- Layout 0, built into the silicon (10 R268, R270). -/
def layout0 (s : State) : Layout :=
  { id := 0, loc := 1, cross := 0, k := 0, m := 0, pos := 0, rebuildMbs := s.prm.rebuild0, spliceMbs := 4000,
    verifyMbs := 4000, nodes := [] }

/-- A layout by its identifier; an undefined one answers layout 0's local part under its own identifier. -/
def layoutBy (s : State) (id : Nat) : Option Layout :=
  if id = 0 then some (layout0 s) else s.prm.layouts.find? (fun l => l.id = id)

/-- The layout in force of a namespace: that of its newest switch record, else the image's (10 R301). -/
def nsLayout (s : State) (nsid : Nat) : Layout :=
  let id := match kvGet s.braid.layoutOf nsid with
    | some i => i
    | none => match nsOf s nsid with
      | some n => n.layout
      | none => 0
  (layoutBy s id).getD (layout0 s)

/-- This brick's NODE_ID. -/
def myNode (s : State) : Nat := match s.prm.identity with
  | some i => i.nodeId
  | none => 0

/-- Whether this brick is the home of a namespace (10 R271). -/
def isHome (s : State) (nsid : Nat) : Bool :=
  let l := nsLayout s nsid
  l.cross = 0 || l.pos = 0

/-- No completion, fetch or claim: from the loss of the input on (02, flush step 3), and from a thermal shutdown on (12 R347, step 1). -/
def powerFails (s : State) : Bool := (match s.hly.breaker with
  | .holdup _ => true
  | _ => false) || (match s.flush with
  | some f => decide (f.cause = 1) || decide (f.cause = 2)
  | none => false) || s.therm.shut.isSome

/-! ### Events -/

/-- The key of an event in the lists of counts. -/
def evKey (g b : Nat) : Nat := 32 * g + b

/-- The type, information and log page of an event's asynchronous event (15 R413). -/
def aenOf (g b : Nat) : Aen :=
  if g = 4 ∧ b = 8 then { type := 7, info := 0x81, log := 0xC1 }
  else if g = 13 ∧ b ∈ [0, 1, 3, 4, 5] then { type := 1, info := 0x01, log := 0x02 }
  else if g = 5 ∧ b = 8 then { type := 1, info := 0x02, log := 0x02 }
  else if (g, b) ∈ [(0, 4), (11, 10), (12, 8), (15, 12)] ∨ eventClass g b = some .danger then
    { type := 1, info := 0x00, log := 0x02 }
  else { type := 7, info := 0x80, log := 0xC3 }

/-- Whether a controller's Asynchronous Event Configuration lets an event through: bit 31 for type 7h (04 R114); for
the SMART types the critical-warning bit that the NVMe base specification names (PRESUMED, log entry 14). -/
def aenEnabled (aec : Word) (a : Aen) : Bool :=
  if a.type = 7 then aec.getLsbD 31
  else if a.type = 6 then true
  else if a.info = 0 then aec.getLsbD 2
  else if a.info = 1 then aec.getLsbD 1
  else aec.getLsbD 0

/-- The code by which a mask names an asynchronous event. -/
def sameAen (a : Aen) (m : Nat × Nat) : Bool := m.1 = a.type && m.2 = a.info

/-- Dword 0 of an Asynchronous Event Request's completion. -/
def aenDw0 (a : Aen) : Nat := a.type + 256 * a.info + 65536 * a.log

/-- An asynchronous event posted on one controller: completed at once, or kept until a request comes (15 R413). -/
def postAen (p : Port) (a : Aen) (s : State) : State :=
  let c := s.ctl.get p
  if !aenEnabled c.feat.aec a || powerFails s then s
  else if c.aenMask.any (sameAen a) then s
  else match c.aers with
    | cid :: rest =>
      emit (.cqe p 0 cid 0 0 (aenDw0 a))
        (setCtl p (fun c => { c with aers := rest, aenMask := (a.type, a.info) :: c.aenMask }) s)
    | [] =>
      if c.aenWait.any (fun w => w.type = a.type && w.info = a.info) then s
      else setCtl p (fun c => { c with aenWait := c.aenWait ++ [a] }) s

/-- The number of MSI-X vectors enabled (04 R101). -/
def msixCount (s : State) : Nat := match s.prm.host with
  | some h => h.msix
  | none => 1

/-- An MSI-X vector signalled on one controller (15 R412). -/
def signal (p : Port) (v : Nat) (s : State) : State :=
  let c := s.ctl.get p
  let v := if v < msixCount s then v else 0
  if !c.en then s
  else if has c.msixMask v then setCtl p (fun c => { c with msixPend := insNat c.msixPend v }) s
  else emit (.msix p v) s

/-- The vector of a group on a controller. -/
def groupVector (p : Port) (g : Nat) (s : State) : Nat := match p with
  | .a => vecAt s.evt.vec1 g 0
  | .b => vecAt s.evt.vec2 g 0

/-- The edge outputs of an event: SMB_ALERT_N, MSI-X, asynchronous events (15 R411 to R413). -/
def edges (g b : Nat) (s : State) : State :=
  let s := if (vecAt s.evt.smb g 0#32).getLsbD b && !s.smb.off then { s with evt := { s.evt with smbAlert := true } } else s
  let s := if (vecAt s.evt.msix g 0#32).getLsbD b then
      signal .b (groupVector .b g s) (signal .a (groupVector .a g s) s) else s
  if (vecAt s.evt.aen g 0#32).getLsbD b then postAen .b (aenOf g b) (postAen .a (aenOf g b) s) else s

/-- The count of occurrences not written (15 R408, R418), one more. -/
def countRepeat (g b : Nat) (s : State) : State :=
  { s with evt := { s.evt with repeats := kvPut s.evt.repeats (evKey g b) (kvCount s.evt.repeats (evKey g b) + 1) } }

/-- The class code of a queued entry. -/
def entryClass (e : Entry) : Nat := match eventClass e.g e.bit with
  | some c => classCode c
  | none => 0

/-- A list without its first element that meets a test. -/
def dropFirst {α : Type} (p : α → Bool) : List α → List α
  | [] => []
  | a :: l => if p a then l else a :: dropFirst p l

/-- An entry into the event queue of 64, displacing as 15 R417 allows. -/
def enqueue (e : Entry) (s : State) : State :=
  let q := s.evt.queue
  if q.length < 64 then { s with evt := { s.evt with queue := q ++ [e] } }
  else
    let drop : State :=
      { s with evt := { s.evt with dropped := inc 32 s.evt.dropped,
                                   bootDropped := if outwardOpen s then s.evt.bootDropped else inc 7 s.evt.bootDropped } }
    if q.any (fun w => entryClass w = 0) then
      { drop with evt := { drop.evt with queue := dropFirst (fun w => entryClass w = 0) q ++ [e] } }
    else if entryClass e ≥ 1 ∧ q.any (fun w => entryClass w = 1) then
      { drop with evt := { drop.evt with queue := dropFirst (fun w => entryClass w = 1) q ++ [e] } }
    else drop

/-- The per-minute limits of 15 R418, then the queue. -/
def logEntry (g b a0 a1 : Nat) (s : State) : State :=
  let k := evKey g b
  let cls := match eventClass g b with
    | some c => classCode c
    | none => 0
  let m := s.dev.secs / 60
  let s := if s.evt.minute = m then s else { s with evt := { s.evt with minute := m, infoMin := 0, noticeMin := 0 } }
  let s := if cls = 0 then { s with evt := { s.evt with infoMin := s.evt.infoMin + 1 } }
    else if cls = 1 then { s with evt := { s.evt with noticeMin := s.evt.noticeMin + 1 } } else s
  let beyond := (cls = 0 ∧ s.prm.recf.infoPerMin ≠ 0 ∧ s.evt.infoMin > s.prm.recf.infoPerMin) ∨
    (cls = 1 ∧ s.prm.recf.noticePerMin ≠ 0 ∧ s.evt.noticeMin > s.prm.recf.noticePerMin)
  if beyond then countRepeat g b { s with evt := { s.evt with suppressed := inc 32 s.evt.suppressed } }
  else
    let (f, s) := draw s
    let e : Entry :=
      { g := g, bit := b, rep := sat 8 (kvCount s.evt.repeats k), queued := false, seq := 0, secs := s.dev.secs,
        subsec := if s.dev.lostAon then 0 else f % 32768, powerOn := s.dev.powerOn, arg0 := a0 % 2 ^ 32, arg1 := a1 % 2 ^ 32 }
    enqueue e { s with evt := { s.evt with repeats := kvDel s.evt.repeats k } }

/-- An event raised: its status bit, the routed outputs, and its entry (15 R406). A reserved event is never raised (15 R415). -/
def raise (g b a0 a1 : Nat) (s : State) : State :=
  match eventClass g b with
  | none => s
  | some _ =>
    let s := { s with evt := { s.evt with status := modVec s.evt.status g (fun w => w ||| (1#32 <<< b)) } }
    let s := if outwardOpen s then edges g b s else s
    if (vecAt s.evt.log g 0#32).getLsbD b then logEntry g b a0 a1 s else s

/-- An event that its chapter raises at most once per interval, kept by a key: otherwise counted (15 R408). -/
def raiseEvery (key secs g b a0 a1 : Nat) (s : State) : State :=
  let due := match kvGet s.evt.lastAt key with
    | none => true
    | some t => s.dev.secs ≥ t + secs
  if due then raise g b a0 a1 { s with evt := { s.evt with lastAt := kvPut s.evt.lastAt key s.dev.secs } }
  else countRepeat g b s

/-- The event group of a host port (00 R18). -/
def hostGroup (p : Port) : Nat := 2 + portNo p

/-- The event group of a peer port (00 R18). -/
def peerGroup (p : Port) : Nat := 9 + portNo p

/-- The event group and the first bit of a channel (15 R415). -/
def chanGroup (ch : Nat) : Nat := if ch < 8 then 6 else 7
def chanBit (ch : Nat) : Nat := 4 * (ch % 8)

/-! ### Completions -/

/-- The completion queue of a submission queue; queue 0 is the admin pair. -/
def cqOf (c : Ctl) (sq : Nat) : Option Cq :=
  match c.sqs.find? (fun q => q.qid = sq) with
  | some q => c.cqs.find? (fun k => k.qid = q.cqid)
  | none => none

/-- One entry of the Error Information log, 64 kept (04, log pages). -/
def noteError (p : Port) (sq cid sct sc : Nat) (s : State) : State :=
  if sct = 0 ∧ sc = 0 then s
  else setCtl p (fun c => { c with errors := c.errors + 1, errLog := ((sq, cid, sct, sc) :: c.errLog).take 64 }) s

/-- A completion posted, with the MSI-X message of its completion queue. -/
def post (p : Port) (sq cid sct sc dw0 : Nat) (s : State) : State :=
  if powerFails s then s else
  let s := emit (.cqe p sq cid sct sc (dw0 % 2 ^ 32)) (noteError p sq cid sct sc s)
  if sq = 0 then signal p 0 s
  else match cqOf (s.ctl.get p) sq with
    | some k => if k.ien then signal p k.iv s else s
    | none => s

/-- A completion for a command's own queue and identifier. -/
def answer (h : Hdr) (sct sc dw0 : Nat) (s : State) : State := post h.port h.sq h.cid sct sc dw0 s

/-- An outstanding command ends: its completion is posted unless a reset discarded it (04 R126). -/
def finish (c : HostCmd) (sct sc dw0 : Nat) (s : State) : State :=
  let s := { s with cmds := s.cmds.filter (fun d => d.key ≠ c.key) }
  if c.live then post c.port c.sq c.cid sct sc dw0 s else s

/-- One outstanding command changed. -/
def setCmd (key : Nat) (f : HostCmd → HostCmd) (s : State) : State :=
  { s with cmds := s.cmds.map (fun c => if c.key = key then f c else c) }

def cmdBy (s : State) (key : Nat) : Option HostCmd := s.cmds.find? (fun c => c.key = key)

/-- A fresh name for a command, an extent, a read or a program. -/
def newKey (s : State) : Nat × State := (s.hx.nextKey, { s with hx := { s.hx with nextKey := s.hx.nextKey + 1 } })

/-! ### Buffer tokens -/

/-- One extent changed. -/
def setExt (id : Nat) (f : Extent → Extent) (s : State) : State :=
  { s with exts := s.exts.map (fun e => if e.id = id then f e else e) }

def extBy (s : State) (id : Nat) : Option Extent := s.exts.find? (fun e => e.id = id)

/-- Tokens of one extent in a state (01 R27). A deallocation carries no data and claims no token. -/
def tokIn (t : Tok) (e : Extent) : Nat := (e.blks.filter (fun b => b.tok = t)).length

/-- Tokens of the device in a state. -/
def tokens (t : Tok) (s : State) : Nat := sumN (s.exts.map (tokIn t))

/-- Tokens that are not free. -/
def tokensUsed (s : State) : Nat :=
  tokens .filling s + tokens .journaled s + tokens .inflight s + tokens .mirrorPending s

/-- Free tokens; while a lowered budget drains, none (01, coincidences). -/
def tokensFree (s : State) : Nat := s.pwr.budget - tokensUsed s

/-! ### The journal -/

/-- The slot of a record number and its half (05 R128). -/
def slotOf (recno : Nat) : Nat := recno % Config.slots
def halfOf (recno : Nat) : Nat := slotOf recno / Config.halfSlots

/-- The half that the head is in: that of the last record written (05, JRNL_STATUS). -/
def activeHalf (s : State) : Nat := halfOf (s.jrnl.next - 1)

/-- Whether the next record would be the first of another half. -/
def atBoundary (s : State) : Bool := slotOf s.jrnl.next % Config.halfSlots = 0 && s.jrnl.next > 1

/-- Open extents: those with an INTENT record and no closing COMPLETION written (05 R133). -/
def openExts (s : State) : Nat := (s.exts.filter (fun e => e.recno.isSome && e.compRec.isNone)).length

/-- Writable slots (05 R138). -/
def writable (s : State) : Nat :=
  let used := slotOf s.jrnl.next % Config.halfSlots
  let own := if atBoundary s then 0 else Config.halfSlots - used
  own + (if s.jrnl.otherFree then Config.halfSlots else 0)

/-- Used slots: the written slots of the active half, and all slots of the other half while it is not free (05 R150). -/
def slotsUsed (s : State) : Nat :=
  (if atBoundary s then Config.halfSlots else slotOf s.jrnl.next % Config.halfSlots) + (if s.jrnl.otherFree then 0 else Config.halfSlots)

/-- Records that are not durable: those in flight, and those that wait, with the numbers they will have (05 R131). -/
def ahead (s : State) : List JRec :=
  s.jrnl.recs.filter (fun r => r.recno > s.jrnl.horizon) ++
  s.jrnl.waiting.zipIdx.map (fun x => { x.1 with recno := s.jrnl.next + x.2 })

/-- A checkpoint trigger noted; the first that waits stands (05 R135). -/
def trigger (reason : Nat) (s : State) : State :=
  match s.jrnl.trigger with
  | some _ => s
  | none => { s with jrnl := { s.jrnl with trigger := some reason } }

/-- A record written into its slot with the next record number; the record that the slot held is gone (05 R128). -/
def writeRec (r : JRec) (s : State) : State :=
  let n := s.jrnl.next
  let first := atBoundary s
  let recs := s.jrnl.recs.filter (fun q => q.recno + Config.slots > n) ++ [{ r with recno := n }]
  let s := { s with jrnl := { s.jrnl with recs := recs, next := n + 1 } }
  if first then trigger 1 { s with jrnl := { s.jrnl with otherFree := false } } else s

/-- The head is at the end of a half and the other half is not free: every record waits (05 R137). -/
def headWaits (s : State) : Bool := atBoundary s && !s.jrnl.otherFree

/-- A record may be written: fewer than eight record writes are in flight (05 R131), and the head does not wait (05 R137). -/
def mayWrite (s : State) : Bool := s.jrnl.next ≤ s.jrnl.horizon + Config.inFlightMax && !headWaits s

/-- NOTICE 4.3 where a record comes to wait at a half boundary (05 R137). -/
def tellWait (s : State) : State := if headWaits s then raise 4 3 0 0 s else s

/-- A record handed to the journal engine. It answers the record number; a record that waits is given the number it will have, since waiting
records are written in order (05 R131, R137). A sealed journal accepts no record (05 R139). -/
def journal (r : JRec) (s : State) : Nat × State :=
  if s.jrnl.state = 5 then (0, s)
  else if !s.jrnl.waiting.isEmpty then (s.jrnl.next + s.jrnl.waiting.length, { s with jrnl := { s.jrnl with waiting := s.jrnl.waiting ++ [r] } })
  else if mayWrite s then (s.jrnl.next, writeRec r s)
  else (s.jrnl.next, tellWait { s with jrnl := { s.jrnl with waiting := [r] } })

/-- Waiting records written in order while the test holds. -/
def writeWaiting (go : State → Bool) : List JRec → State → State
  | [], s => { s with jrnl := { s.jrnl with waiting := [] } }
  | r :: rs, s => if go s then writeWaiting go rs (writeRec r s) else { s with jrnl := { s.jrnl with waiting := r :: rs } }

/-- Waiting records that may be written, written in order (05 R131, R137); NOTICE 4.3 where the head then comes to wait. -/
def releaseWaiting (s : State) : State :=
  let t := writeWaiting mayWrite s.jrnl.waiting s
  if t.jrnl.next ≠ s.jrnl.next && !t.jrnl.waiting.isEmpty then tellWait t else t

/-- A record with no flags set. -/
def jrec (gseq : Nat) (b : JBody) : JRec :=
  { recno := 0, gseq := gseq, carried := false, replayed := false, ctrl2 := false, body := b }

/-- A record that carries no data: its GSEQ is the one the next write would receive (05 R130). -/
def note (b : JBody) (s : State) : State := (journal (jrec s.hx.gseq b) s).2

/-- A record that a host's command originates, with CTRL where that is controller 2 (05 R129). -/
def hostRec (p : Port) (b : JBody) (s : State) : JRec := { jrec s.hx.gseq b with ctrl2 := decide (p = .b) }

/-- A record of a host's command that carries no data. -/
def noteFor (p : Port) (b : JBody) (s : State) : State := (journal (hostRec p b s) s).2

/-- The records that lie above the horizon: written and not yet durable. -/
def inFlight (s : State) : List JRec := s.jrnl.recs.filter (fun r => r.recno > s.jrnl.horizon)

/-! ### Links and peers -/

/-- The port record of a peer port, changed. -/
def setPort (p : Port) (f : PeerPort → PeerPort) (s : State) : State := { s with peer := s.peer.modify p f }

/-- One link changed. -/
def setLink (p : Port) (l : Nat) (f : Link → Link) (s : State) : State :=
  setPort p (fun q => { q with links := modAt q.links l f }) s

def linkBy (s : State) (p : Port) (l : Nat) : Option Link := (s.peer.get p).links[l]?

/-- Every link as a pair of port and index. -/
def allLinks (s : State) : List (Port × Nat) :=
  (List.range (s.peer.a.links.length)).map (fun i => (Port.a, i)) ++
  (List.range (s.peer.b.links.length)).map (fun i => (Port.b, i))

/-- The links to a peer entry. -/
def linksTo (s : State) (entry : Nat) : List (Port × Nat) :=
  (allLinks s).filter (fun l => match linkBy s l.1 l.2 with
    | some k => k.entry = entry
    | none => false)

def linkUp (s : State) (l : Port × Nat) : Bool := match linkBy s l.1 l.2 with
  | some k => k.state = .up
  | none => false

/-- The index of the peer entry of a node. -/
def entryOf (s : State) (node : Nat) : Option Nat := match s.prm.peer with
  | some p => p.entries.findIdx? (fun e => e.nodeId = node)
  | none => none

def peerEntry (s : State) (i : Nat) : Option PeerEntry := match s.prm.peer with
  | some p => p.entries[i]?
  | none => none

/-- The low 32 bits of a peer's NODE_ID, the second detail of groups 9 and 10 (15 R419). -/
def nodeLow (s : State) (entry : Nat) : Nat := match peerEntry s entry with
  | some e => e.nodeId % 2 ^ 32
  | none => 0

/-- Whether some link to a peer is UP. -/
def peerUp (s : State) (entry : Nat) : Bool := (linksTo s entry).any (linkUp s)

/-- Whether the copy of a namespace at a peer is stale (09 R260). -/
def isStale (s : State) (entry nsid : Nat) : Bool :=
  (linksTo s entry).any (fun l => match linkBy s l.1 l.2 with
    | some k => has k.stale nsid
    | none => false)

end Sys2Proof.Machine
end

