-- ==== Sys2Proof/Machine/PeerOps.lean ====
section
/-! DEFINITION. The sending side of the Yeldo link (09): credits, framing, replay entries, notices, full link resets and
tie-off; and the pausing of splices that a lost builder causes (10 R296). -/

namespace Sys2Proof.Machine

open Sys2Proof

/-- Payload bytes of a message: its 32-byte head and its body (09 R243, 10 R288). -/
def msgBytes (metaOn : Bool) (m : Msg) : Nat :=
  let hm := if metaOn then 64 else 0
  32 + match m.body with
    | .none => 0
    | .args bs => bs.length
    | .blocks bs => bs.length * (4096 + hm + 8)
    | .recs rs => sumN (rs.map (fun r => if r.unmapped || r.lost then 16 else 16 + 4096 + hm))
    | .folds cs => 8 * cs.length

/-- Whether a namespace carries host metadata. -/
def nsMeta (s : State) (nsid : Nat) : Bool := match nsOf s nsid with
  | some n => n.metaOn
  | none => false

/-- Credits of a frame of LEN payload bytes (09 R246). -/
def creditNeed (len : Nat) : Nat := max 1 (ceilDiv (len + 20) 256)

/-- The virtual channel of an opcode (09 R243). -/
def vcOf (op : Nat) : Nat := if op < 0x10 then 0 else if op < 0x20 then 1 else if op < 0x30 then 2 else 3

/-- Credits that a port's receive buffer of 1 MiB, 4096 credits, gives one of n links on a channel: the channel's share of the link's share, rounded
down once (09 R241). -/
def vcCredits (n v : Nat) : Nat :=
  let n := max n 1
  if v = 1 then 4096 / (2 * n) else if v = 2 then 3 * 4096 / (8 * n) else 4096 / (16 * n)

/-- A link's share of the 2 MiB replay buffer, in bytes (09 R252). -/
def replayShare (s : State) (p : Port) : Nat := 2097152 / (max (s.peer.get p).links.length 1)

/-- Bytes held in the replay share. -/
def replayBytes (k : Link) : Nat := sumN (k.sent.map (fun e => e.bytes))

/-- The last DATA sequence accepted in order: the ACK field of every frame (09 R239). -/
def ackField (k : Link) : BitVec 24 := k.expect - 1#24

/-- The GRANT field of every frame: the cumulative credit modulo 4096 (09 R239, R246). -/
def grantField (k : Link) : List Nat := k.vcs.toList.map (fun v => v.given % 4096)

/-- A frame put on the wire. Every frame carries the current ACK, so nothing stays to be acknowledged (09 R249). -/
def sendFrame (p : Port) (l : Nat) (f : OutFrame) (s : State) : State :=
  match linkBy s p l with
  | none => s
  | some k => emit (.frame p l (ackField k) (grantField k) f) (setLink p l (fun k => { k with unacked := 0 }) s)

/-- A DATA frame sent for the first time: it takes the next sequence, its credit and a replay entry (09 R246, R250). -/
def transmit (p : Port) (l : Nat) (m : Msg) (s : State) : State :=
  match linkBy s p l with
  | none => s
  | some k =>
    let len := msgBytes (nsMeta s m.head.nsid) m
    let v := vcOf m.op
    let c := creditNeed len
    let e : Sent := { seq := k.txNext, msg := m, bytes := len, vc := v, credit := c, resent := false, due := false }
    sendFrame p l (.data k.txNext false v m)
      (setLink p l (fun k =>
        { k with txNext := k.txNext + 1#24, sent := k.sent ++ [e],
                 vcs := modVec k.vcs v (fun x => { x with balance := x.balance - c }) }) s)

/-- Whether a message may be framed now (09 R246, R252). -/
def canFrame (s : State) (p : Port) (k : Link) (m : Msg) : Bool :=
  let len := msgBytes (nsMeta s m.head.nsid) m
  let v := vcOf m.op
  k.state = .up && !k.stopTx && replayBytes k + len ≤ replayShare s p &&
  (match k.vcs.toList[v]? with
   | some x => creditNeed len ≤ x.balance
   | none => false)

/-- What VC v may still send in this round (09 R242). -/
def wrrLeft (w : Nat × Nat × Nat) (v : Nat) : Nat :=
  if v = 1 then w.1 else if v = 2 then w.2.1 else if v = 3 then w.2.2 else 1

def wrrTake (w : Nat × Nat × Nat) (v : Nat) : Nat × Nat × Nat :=
  if v = 1 then (w.1 - 1, w.2.1, w.2.2) else if v = 2 then (w.1, w.2.1 - 1, w.2.2)
  else if v = 3 then (w.1, w.2.1, w.2.2 - 1) else w

/-- The next held message of a channel that may be framed. -/
def headOf (s : State) (p : Port) (k : Link) (v : Nat) : Option Msg :=
  match k.held.find? (fun m => vcOf m.op = v) with
  | some m => if canFrame s p k m then some m else none
  | none => none

/-- The message to frame next: VC0 first, then VC1 to VC3 in the ratio 8:4:1, a channel without credit skipped (09 R242).
It answers the message and the round as it stands after it. -/
def pick (s : State) (p : Port) (k : Link) : Option (Msg × (Nat × Nat × Nat)) :=
  match headOf s p k 0 with
  | some m => some (m, k.wrr)
  | none =>
    let ready := [1, 2, 3].filterMap (fun v => (headOf s p k v).map (fun m => (v, m)))
    match ready.find? (fun r => wrrLeft k.wrr r.1 > 0) with
    | some r => some (r.2, wrrTake k.wrr r.1)
    | none => match ready.head? with
      | some r => some (r.2, wrrTake (8, 4, 1) r.1)
      | none => none

/-- A frame of the replay share sent again, with RESENT set (09 R250). -/
def resendOne (p : Port) (l : Nat) (s : State) (e : Sent) : State :=
  sendFrame p l (.data e.seq true e.vc e.msg)
    (setLink p l (fun k => { k with sent := k.sent.map (fun x => if x.seq = e.seq then { x with resent := true, due := false } else x) }) s)

/-- Whether the balance of a channel covers a need. -/
def covered (k : Link) (v need : Nat) : Bool := match k.vcs.toList[v]? with
  | some x => need ≤ x.balance
  | none => false

/-- The next frame that the replay share owes after a handshake; it consumes credit as a new frame does (09 R254). -/
def sendDue (p : Port) (l : Nat) (e : Sent) (s : State) : State :=
  resendOne p l
    (setLink p l (fun k => { k with vcs := modVec k.vcs e.vc (fun x => { x with balance := x.balance - e.credit }) }) s) e

/-- The frames that the replay share owes go first and in order, then held messages, as long as credit, share and state allow. -/
def pump (p : Port) (l : Nat) : Nat → State → State
  | 0, s => s
  | fuel + 1, s =>
    match linkBy s p l with
    | none => s
    | some k =>
      match k.sent.find? (fun e => e.due) with
      | some e => if k.state = .up ∧ ¬ k.stopTx ∧ covered k e.vc e.credit then pump p l fuel (sendDue p l e s) else s
      | none => match pick s p k with
        | none => s
        | some (m, w) =>
          pump p l fuel (transmit p l m
            (setLink p l (fun k => { k with held := dropFirst (fun x => decide (x = m)) k.held, wrr := w }) s))

/-- Everything that a link may send now. -/
def pumpAll (p : Port) (l : Nat) (s : State) : State := match linkBy s p l with
  | some k => pump p l (k.sent.length + k.held.length + 1) s
  | none => s

/-- A message handed to a link: framed at once where it may be, else held (09 R258). -/
def sendMsg (p : Port) (l : Nat) (m : Msg) (s : State) : State :=
  match linkBy s p l with
  | none => s
  | some _ => pumpAll p l (setLink p l (fun k => { k with held := k.held ++ [m] }) s)

/-- A request: it takes the link's next TAG (09 R243). -/
def sendReq (p : Port) (l : Nat) (m : Msg) (s : State) : State :=
  match linkBy s p l with
  | none => s
  | some k =>
    sendMsg p l { m with head := { m.head with tag := k.tag } }
      (setLink p l (fun k => { k with tag := (k.tag + 1) % 65536 }) s)

/-- A head with no content. -/
def head0 : Head := { tag := 0, nsid := 0, slba := 0, gseq := 0, nlb1 := 0, ext := 0, layout := 0 }

/-- The link that carries the traffic of a logical hank to a peer (09 R257): at width 2, port A for even hanks and port B
for odd ones; at width 1, the member that is UP; with none UP, the first. -/
def linkFor (s : State) (entry hank : Nat) : Option (Port × Nat) :=
  let ls := linksTo s entry
  match ls.filter (linkUp s) with
  | [] => ls.head?
  | [u] => some u
  | ups => if hank % 2 = 0 then ups.head? else ups.getLast?

/-- Whether a message is a request, which takes a TAG of its link; an answer carries its request's (09 R243). -/
def isRequest (op : Nat) : Bool := has [0x01, 0x03, 0x10, 0x20, 0x21, 0x23, 0x25, 0x27, 0x28, 0x29, 0x2A, 0x2B, 0x30] op

/-- A message moved from one link to another: a request takes a TAG there, by which the answer to a splice's phase is known. -/
def moveMsg (was dest : Port × Nat) (s : State) (m : Msg) : State :=
  if !isRequest m.op then sendMsg dest.1 dest.2 m s
  else
    let tag := match linkBy s dest.1 dest.2 with
      | some k => k.tag
      | none => 0
    let rename (x : Port × Nat × Nat) : Port × Nat × Nat := if x = (was.1, was.2, m.head.tag) then (dest.1, dest.2, tag) else x
    let s := if m.op = 0x29 then { s with braid := { s.braid with
        splices := s.braid.splices.map (fun p => { p with phaseTags := p.phaseTags.map rename }) } } else s
    sendReq dest.1 dest.2 m s

/-- The messages that a member of a pair holds unframed, moved to the member that is UP: at width 1 all traffic uses it. Frames stay in the replay
share of the member that left (09 R257). -/
def moveHeld (p : Port) (l : Nat) (s : State) : State :=
  match linkBy s p l with
  | none => s
  | some k =>
    match (linksTo s k.entry).find? (fun q => q.1 ≠ p && !linkUp s q) with
    | none => s
    | some q =>
      let ms := match linkBy s q.1 q.2 with
        | some o => o.held
        | none => []
      ms.foldl (moveMsg q (p, l)) (setLink q.1 q.2 (fun k => { k with held := [] }) s)

/-- A request to a peer entry on the link of a hank. -/
def sendTo (entry hank : Nat) (m : Msg) (s : State) : State :=
  match linkFor s entry hank with
  | some (p, l) => sendReq p l m s
  | none => s

/-- The TIEOFF_NOTICE of a cause (09 R243, R265). -/
def noticeMsg (s : State) (cause : Nat) : Msg :=
  let wake := match s.prm.identity with
    | some i => i.wakeAddr
    | none => 0
  { op := 3, status := 0, head := head0, arg := cause + 256 * wake, body := .none }

/-- A notice sent on every UP link (09 R265 to R267); with stop, no further DATA frame follows. -/
def notifyAll (cause : Nat) (stop : Bool) (s : State) : State :=
  ((allLinks s).filter (linkUp s)).foldl (fun s pl =>
    let seq := match linkBy s pl.1 pl.2 with
      | some k => some k.txNext
      | none => none
    setLink pl.1 pl.2 (fun k => { k with stopTx := stop, notice := if stop then none else seq })
      (sendReq pl.1 pl.2 (noticeMsg s cause) s)) s

/-- A frame's data has left its buffer: its credit is granted again (09 R246). -/
def leaveBuffer (p : Port) (l v c : Nat) (s : State) : State :=
  setLink p l (fun k => { k with vcs := modVec k.vcs v (fun x => { x with held := x.held - c, given := x.given + c, room := x.room + c }) }) s

/-! ### Splices that lose a builder -/

/-- What a splice is reading, given up: a hank below PROGRESS that was being copied is dirty, and one of a repair that was being compared is to be
compared (10 R294, R296, R297). -/
def dropHankReads (id : Nat) (s : State) : State :=
  let rs := s.braid.hankReads.filter (fun r => r.splice = id)
  let again (p : Splice) : Splice := rs.foldl (fun p r =>
    if r.copy then (if p.repair || r.hank < p.progress then { p with dirty := insNat p.dirty r.hank } else p)
    else if p.repair then { p with again := insNat p.again r.hank } else p) p
  { s with braid := { s.braid with
    hankReads := s.braid.hankReads.filter (fun r => r.splice ≠ id),
    splices := s.braid.splices.map (fun p => if p.id = id then again p else p) } }

/-- A splice in BUILD or VERIFY whose builder's link is not UP is paused, with NOTICE 11.1 (10 R296); a repair, which begins while its peer is away, once
that peer is lost again (10 R304; log entry 78). -/
def pauseOne (lost : Nat) (sp : Splice) (s : State) : State :=
  if (sp.phase = .build ∨ sp.phase = .verify) ∧ (¬ sp.repair ∨ sp.builders = [lost]) ∧ sp.builders.any (fun b => !peerUp s b) then
    let s := dropHankReads sp.id s
    let s := { s with braid := { s.braid with
      splices := s.braid.splices.map (fun q => if q.id = sp.id then { q with phase := .paused, left := sp.phase, lostBuilder := true } else q) } }
    raise 11 1 sp.id sp.nsid
      (note (.splicePhase sp.id .paused sp.nsid sp.old sp.new none (some sp.progress)) s)
  else s

def pauseSplices (p : Port) (l : Nat) (s : State) : State :=
  let lost := match linkBy s p l with
    | some k => k.entry
    | none => 0
  s.braid.splices.foldl (fun s sp => pauseOne lost sp s) s

/-! ### Links leaving UP -/

/-- The handshake's flags as a link enters HANDSHAKE. -/
def toHandshake (k : Link) : Link :=
  { k with state := .handshake, ackSent := false, ackRcvd := false, late := false, noGain := 0, resentTo := none,
           nakFor := none }

/-- A link leaves UP for another state: tie-off begins, with NOTICE g.1 (09 R258). -/
def leaveUp (p : Port) (l : Nat) (f : Link → Link) (s : State) : State :=
  match linkBy s p l with
  | none => s
  | some k =>
    if k.state = .up then
      raise (peerGroup p) 1 l (nodeLow s k.entry) (setLink p l (fun k => { f k with tieMs := 0 }) s)
    else setLink p l f s

/-- A full link reset (09 R256): DATA frames stop, the replay share is kept, and the link passes through HANDSHAKE. -/
def linkReset (p : Port) (l : Nat) (violation : Bool) (s : State) : State :=
  match linkBy s p l with
  | none => s
  | some k =>
    let s := leaveUp p l toHandshake s
    let s := raise (peerGroup p) 2 l (nodeLow s k.entry) s
    if violation then raise (peerGroup p) 12 l (nodeLow s k.entry) s else s

/-- The other member of a pair, if it is UP: its width changes, so it makes a full link reset (09 R256, R257). -/
def widthChange (p : Port) (l : Nat) (s : State) : State :=
  match linkBy s p l with
  | none => s
  | some k =>
    match (linksTo s k.entry).find? (fun q => q.1 ≠ p) with
    | some q => if linkUp s q then setLink q.1 q.2 (fun k => { k with forWidth := true }) (linkReset q.1 q.2 false s) else s
    | none => s

/-- A link goes down: tie-off, the width of its pair, and the splices it builds for. -/
def linkDown (p : Port) (l : Nat) (f : Link → Link) (s : State) : State :=
  let was := linkUp s (p, l)
  let s := leaveUp p l f s
  if was then pauseSplices p l (widthChange p l s) else s

/-- A full link reset with what follows from it. -/
def resetLink (p : Port) (l : Nat) (violation : Bool) (s : State) : State :=
  let was := linkUp s (p, l)
  let s := linkReset p l violation s
  if was then pauseSplices p l (widthChange p l s) else s

/-- The sequence of the oldest frame in the replay share. -/
def txOldest (k : Link) : BitVec 24 := match k.sent with
  | e :: _ => e.seq
  | [] => k.txNext

/-- The RECNO of the newest START record (09 R253). -/
def startRecno (s : State) : Nat :=
  match argMax (fun r => r.recno) (s.jrnl.recs.filter (fun r => match r.body with
    | .start .. => true
    | _ => false)) with
  | some r => r.recno
  | none => 0

/-- The handshake payload of a link (09 R253). -/
def helloOf (s : State) (k : Link) (resume : BitVec 24) : Hello :=
  { nodeId := myNode s, powerOn := s.dev.powerOn, rxValid := k.rxSince,
    width := (linksTo s k.entry).length, rxLast := ackField k, txOldest := txOldest k, txNext := k.txNext,
    resume := resume, imageGen := s.boot.genUsed, startId := BitVec.ofNat 32 (startRecno s) }

/-- A link as it starts after a cold or device reset, or on leaving OFF (09 R254). -/
def freshLink (entry : Nat) : Link :=
  { state := .training, entry := entry, expect := 0#24, txNext := 0#24, sent := [], held := [],
    vcs := Vector.replicate 4 { balance := 0, lastGrant := 0#12, granted := 0, consumed := 0, given := 0, held := 0, room := 0 },
    wrr := (8, 4, 1), srtt := 0, samples := 0, timeout := 100, noGain := 0, replays := 0, resentTo := none, nakFor := none,
    unacked := 0, rxSince := false, peerStart := none, ackSent := false, ackRcvd := false, late := false, stale := [], cause := 0,
    tieMs := 0, everUp := false, lastBurst := none, slept := false, forWidth := false, status := none, tag := 0, tags := [],
    notice := none, wakeAddr := 0, stopTx := false }

/-- Whether the PEER section enables a port. -/
def portEnabled (s : State) (p : Port) : Bool := match s.prm.peer with
  | some x => (match p with
    | .a => x.enableA
    | .b => x.enableB)
  | none => false

/-- The links of a port, one for each entry that names it (09 R235, R255). -/
def portLinks (s : State) (p : Port) : List Link := match s.prm.peer with
  | some x => if portEnabled s p then
      (x.entries.zipIdx.filter (fun e => match p with
        | .a => e.1.portA
        | .b => e.1.portB)).map (fun e => freshLink e.2)
    else []
  | none => []

/-- A link back in TRAINING: PHY lost, or an attempt that starts again (09 R255). -/
def toTraining (k : Link) : Link := { toHandshake k with state := .training }

/-- Whether a link is in TRAINING or DISABLED. -/
def linkIdle (k : Link) : Bool := match k.state with
  | .training => true
  | .disabled => true
  | _ => false

/-- A link whose port has lost its PHY. The width of its pair changes if it was UP, or if it was passing through a full link reset
that a change of width had made (09 R256). -/
def lostLink (p : Port) (s : State) (l : Nat) : State :=
  match linkBy s p l with
  | none => s
  | some k =>
    if linkIdle k then s
    else if k.forWidth then
      widthChange p l (setLink p l (fun k => { toTraining k with forWidth := false }) s)
    else linkDown p l toTraining s

/-- A port's PHY lost: its links return to TRAINING (09 R255). -/
def lostPhy (p : Port) (phy : Nat) (s : State) : State :=
  let s := setPort p (fun q => { q with phy := phy }) s
  (List.range (s.peer.get p).links.length).foldl (lostLink p) s

/-- Peer ports stopped for SLEEP, DEEP or OFF: only the signal detector is left (09 R261; log entry 33). -/
def portsIdle (s : State) : State := lostPhy .b 0 (lostPhy .a 0 s)

/-- Enabled peer ports train again after a wake. -/
def portsTrain (s : State) : State :=
  [Port.a, Port.b].foldl (fun s p => if portEnabled s p then setPort p (fun q => { q with phy := 1 }) s else s) s

/-- HELLO sent by a link in HANDSHAKE (09 R254); its ACK and GRANT are zero (09 R239). -/
def sendHello (p : Port) (l : Nat) (s : State) : State :=
  match linkBy s p l with
  | none => s
  | some k => emit (.frame p l 0#24 [0, 0, 0, 0] (.hello (helloOf s k 0#24))) s

end Sys2Proof.Machine
end

