-- ==== Sys2Proof/Machine/Stopper.lean ====
section
/-! DEFINITION. A DANGER event and the entry to the stopper state (14 R394 to R397), waking (11 R319, R320), and record
flash operations handed to their banks (13 R359, R361). -/

namespace Sys2Proof.Machine

open Sys2Proof

/-! ### Record-flash operations -/

/-- Whether an operation erases. -/
def isErase : FlashWhat → Bool
  | .eraseLog _ => true
  | .eraseSector _ => true
  | .eraseBank _ => true
  | .refresh _ step => step = 0 || step = 3 || step = 6
  | _ => false

/-- Whether a bank is busy, and with an erase. -/
def bankBusy (s : State) (b : Nat) : Bool := (vecAt s.rf.busy b none).isSome
def bankErasing (s : State) (b : Nat) : Bool := match vecAt s.rf.busy b none with
  | some j => isErase j.what
  | none => false

/-- An erase of the device's own that HOLD defers: not the erase-ahead of the log, nor what a host ordered (13 R365). -/
def ownErase : FlashWhat → Bool
  | .eraseSector n => n < 271
  | .refresh _ _ => true
  | _ => false

/-- An operation that the gates of 03 R82 do not hold back: a thermal or stopper record, and the erases that keep room for them (03 R83, 12
R345, R346). -/
def passesGates : FlashWhat → Bool
  | .heat _ => true
  | .eraseSector n => 7 ≤ n && n < 15
  | _ => false

/-- Whether a waiting operation may start: the gates let it through (03 R82), its bank is idle, no erase runs in the other bank if it erases (13
R359), and the host's HOLD does not defer it (13 R365). -/
def mayStart (s : State) (j : FlashJob) : Bool :=
  (outwardOpen s || passesGates j.what) && !bankBusy s j.bank && (!isErase j.what || (!bankErasing s (1 - j.bank) && (!s.rf.hold || !ownErase j.what)))

/-- Whether an operation reaches a sector of its bank (13 R360). -/
def reaches (w : FlashWhat) (n : Nat) : Bool :=
  match w with
  | .record _ => n ≤ 1
  | .header _ => n = 2
  | .key _ => 3 ≤ n && n < 7
  | .heat _ => 7 ≤ n && n < 15
  | .entry i _ => n = 15 + i / 2
  | .eraseLog i => n = 15 + i / 2
  | .page off _ => n = off / 4096
  | .eraseSector k => n = k
  | .eraseBank _ => true
  | .refresh k _ => n = k

/-- Whether an erase that waits comes before an operation of its own bank: it erases what the operation reaches. -/
def eraseFirst (e w : FlashWhat) : Bool :=
  match e with
  | .eraseBank _ => true
  | .eraseLog i => reaches w (15 + i / 2)
  | .eraseSector n => reaches w n
  | .refresh n _ => reaches w n
  | _ => false

/-- An erase in the thermal-record area, which comes before any other erase in either bank (12 R345). -/
def heatErase : FlashWhat → Bool
  | .eraseSector n => 7 ≤ n && n < 15
  | _ => false

/-- Whether a waiting operation holds back one behind it. An erase that waits does not hold back programs elsewhere in its bank, and one that
HOLD defers does not hold back the erases that HOLD allows (13 R359, R365). -/
def holdsBack (s : State) (e j : FlashJob) : Bool :=
  (e.bank = j.bank && eraseFirst e.what j.what) ||
  (heatErase e.what && isErase j.what && !(s.rf.hold && !ownErase j.what))

/-- The first waiting operation that may start and that nothing before it holds back. -/
def nextJob (s : State) : List FlashJob → List FlashJob → Option FlashJob
  | _, [] => none
  | past, j :: rest =>
    if mayStart s j && !past.any (fun e => holdsBack s e j) then some j else nextJob s (j :: past) rest

/-- Waiting operations started, at most one on each bank. -/
def startJobs : Nat → State → State
  | 0, s => s
  | fuel + 1, s =>
    match nextJob s [] s.rf.queue with
    | none => s
    | some j =>
      startJobs fuel { s with rf := { s.rf with
        queue := dropFirst (fun x => decide (x = j)) s.rf.queue, busy := modVec s.rf.busy j.bank (fun _ => some j) } }

/-- An operation handed to record flash. -/
def flashJob (j : FlashJob) (s : State) : State :=
  startJobs 2 { s with rf := { s.rf with queue := s.rf.queue ++ [j] } }

/-- The bank that a record kept in both banks is written to first: the idle one, else bank 0 (13 R361). -/
def firstBank (s : State) : Nat := if bankBusy s 0 && !bankBusy s 1 then 1 else 0

/-- A record kept in both banks: written to the idle bank, then to the other (13 R361). -/
def flashBoth (w : FlashWhat) (s : State) : State := flashJob { bank := firstBank s, what := w, other := true } s

/-- Whether every slot of a bank's thermal-record area is written (12 R345). -/
def heatFull (s : State) (b : Nat) : Bool := (vecAt s.rf.banks b State.bank0).heat.length ≥ 1024

/-- The bank of a thermal or stopper record: the one that is not erasing, bank 0 when neither is (12 R346, 14 R397); the other where it holds
no erased slot (12 R345). -/
def heatBank (s : State) : Nat :=
  let b := if bankErasing s 0 then 1 else 0
  if heatFull s b && !heatFull s (1 - b) then 1 - b else b

/-- A record that does not wait behind others of its bank. -/
def flashUrgent (j : FlashJob) (s : State) : State :=
  startJobs 2 { s with rf := { s.rf with queue := j :: s.rf.queue } }

/-! ### Waking -/

/-- The hardware's participants restarted in reverse order and the state RUN, with INFO 12.1 (11 R319, R320). From DEEP or
PATROL every channel starts again under 07 R190. -/
def wake (source : Nat) (s : State) : State :=
  let st := s.ps.state
  if st = 2 ∨ st = 3 ∨ st = 5 then
    let deep := st = 3 ∨ (st = 5 ∧ s.ps.back = 3)
    let s := { s with ps := { s.ps with state := 0, lastWake := source }, pwr := { s.pwr with topUpWait := !s.pwr.charged } }
    let s := if deep then
        { s with pins := { s.pins with npwrEn := [true, true, true, true] } }
      else s
    raise 12 1 source 0 (portsTrain s)
  else if st = 1 then { s with ps := { s.ps with state := 0, lastWake := source } }
  else s

/-- The code of a power state (11 R313). -/
def pwrCode : PwrState → Nat
  | .run => 0
  | .idle => 1
  | .sleep => 2
  | .deep => 3
  | .off => 4

/-- An outstanding order of a power state. -/
def isPowerOrder (c : HostCmd) : Bool := match c.kind with
  | .powerOrder => true
  | _ => false

/-- What participants 7 and 8 had done, undone: NAND supplies and channels (11 R315, 07 R190), and the seal of the journal. -/
def restartStopped (h : Handshake) (s : State) : State :=
  let cut := has h.stopped 7 && (h.want = .deep || h.want = .off)
  let s := if cut then onPins (fun p => { p with npwrEn := [true, true, true, true] }) s else s
  if has h.stopped 8 && h.want = .off && s.jrnl.state = 5 then onJrnl (fun j => { j with state := 4 }) s else s

/-- RESPONSE to an order, kept among the last 64 answers of its link (09 R244). -/
def answerOrder (p : Port) (l tag status : Nat) (s : State) : State :=
  sendMsg p l { op := 2, status := status, head := { head0 with tag := tag }, arg := 0, body := .none }
    (setLink p l (fun k => { k with tags := ({ tag := tag, status := status } :: k.tags).take 64 }) s)

/-- The handshake taken down, and its participants running again in reverse order (11 R317). -/
def takeDown (h : Handshake) (s : State) : State := restartStopped h (onPs (fun p => { p with hs := none }) s)

/-- The idle-timer backoff doubled (11 R317). -/
def backOff (s : State) : State := onPs (fun p => { p with backoff := min (p.backoff * 2) 64 }) s

/-- A handshake abandoned: the participants that had stopped run again (11 R317). The reason and the participant are kept,
NOTICE 12.5 for reason 7 and NOTICE 12.4 otherwise; orders complete with 7h/84h; a timer entry backs off. The status of the
RESPONSE to a peer whose order is refused in this way is not stated: it is a free value (log entry 7). -/
def rollback (part reason : Nat) (s : State) : State :=
  match s.ps.hs with
  | none => s
  | some h =>
    let s := onPs (fun p => { p with
      refPart := part, refReason := reason, refState := pwrCode h.want, refusals := inc 32 p.refusals }) (takeDown h s)
    let s := if reason = 7 then raise 12 5 0 0 s else raise 12 4 part reason s
    let s := (s.cmds.filter isPowerOrder).foldl (fun s c => finish c 7 0x84 (part + 256 * reason) s) s
    let refused (s : State) (a : Port × Nat × Nat) : State :=
      let (v, s) := draw s
      answerOrder a.1 a.2.1 a.2.2 (v % 256) s
    let s := h.also.foldl refused s
    match h.asker with
    | .timer => if reason = 7 then s else backOff s
    | .held => if reason = 7 then s else backOff s
    | .host .. => s
    | .smbus => s
    | .peer p l tag => refused s (p, l, tag)

/-- A wake, or a shallower order, whatever the device is doing: a handshake is abandoned with reason 7 (11 R317, R320). -/
def wakeUp (source : Nat) (s : State) : State :=
  match s.ps.hs with
  | some h => rollback h.part 7 s
  | none => wake source s

/-! ### The stopper state -/

/-- Faults after which R396 makes no spill: they lie in the journal engine, in the DRAM controller, in the clock of either,
or in more than one channel; the clocks of the media path reach every channel (DEDUCED, log entry 15). -/
def noSpillFault (g b detail : Nat) : Bool :=
  (g, b, detail) ∈ [(15, 1, 2), (15, 2, 22), (15, 2, 27)] ||
  (g = 15 && b = 3 && (detail % 256) ∈ [4, 5, 6, 7, 8])

/-- A write that has not completed. -/
def isWrite (c : HostCmd) : Bool := match c.kind with
  | .write => true
  | .writeZeroes => true
  | .dsm => true
  | _ => false

/-- Step 3 of the stopper table: every outstanding write completes with 0h/20h, and no intent is admitted. Extents without
an INTENT record are dropped, their tokens free (01 R27). -/
def failWrites (s : State) : State :=
  let ws := s.cmds.filter isWrite
  let s := ws.foldl (fun s c => finish c 0 0x20 0 s) s
  { s with exts := s.exts.filter (fun e => e.recno.isSome || (match e.origin with
    | .host _ => false
    | .dropped => false
    | _ => true)) }

/-- The stopper record (14 R397). -/
def stopRecord (s : State) : HeatRec :=
  .stopper s.safe.group s.safe.bit
    (b2n s.safe.early + 2 * b2n s.safe.toggle + 4 * b2n s.safe.noSpill)
    s.safe.detail s.hx.gseq s.dev.powerOn s.dev.secs s.aon.stopResets

/-- Whether an operation is a step of a lowering. -/
def lowerJob : FlashWhat → Bool
  | .eraseBank _ => true
  | .record r => r.type = 0x4C || r.type = 0x6C
  | _ => false

/-- An erasing lowering stops: its erase is suspended and what it waits for is given up (14, coincidences). -/
def stopLowering (s : State) : State :=
  if s.rf.lstate = 0 then s
  else { s with rf := { s.rf with
    lstate := 0, queue := s.rf.queue.filter (fun j => !lowerJob j.what), busy := s.rf.busy.map (fun j => match j with
      | some k => if isErase k.what && lowerJob k.what then none else some k
      | none => none) } }

/-- A custodian command that waits ends with reason 5 (13, coincidences). -/
def stopCustodian (s : State) : State :=
  let pend := s.rf.queue.any (fun j => match j.what with
    | .page .. => true
    | .eraseSector n => n ≥ 271
    | _ => false)
  if pend then
    { s with rf := { s.rf with
      queue := s.rf.queue.filter (fun j => match j.what with
        | .page .. => false
        | .eraseSector n => n < 271
        | _ => true), cmdState := 3, cmdErr := 5 } }
  else s

/-- The DANGER event latched in SAFE (14 R394, step 2). -/
def latchDanger (g b detail : Nat) (toggle : Bool) (s : State) : State :=
  onSafe (fun f => { f with
    stopper := true, group := g, bit := b, detail := detail, stopSecs := s.dev.secs % 2 ^ 32,
    early := !s.boot.hostReady, toggle := toggle, noSpill := noSpillFault g b detail }) s

/-- The stopper record handed to record flash (14 R397, step 5). -/
def writeStopRecord (s : State) : State :=
  flashUrgent { bank := heatBank s, what := .heat (stopRecord s), other := false } s

/-- A stopper state entered before host ready orders its own device reset (14 R398), unless three in a row have not
reached host ready: READY then goes high (14 R399). -/
def stopperOrder (s : State) : State :=
  if s.aon.stopResets ≥ 3 then raise 15 12 0 0 (onBoot (fun b => { b with ready := true }) s)
  else if s.safe.early then onSafe (fun f => { f with order := true }) s else s

/-- Entry to the stopper state with the latched event (14 R394): steps 1 to 6. -/
def enterStopper (g b detail : Nat) (toggle : Bool) (s : State) : State :=
  latchDanger g b detail toggle s |> failWrites |> wakeUp 10 |> notifyAll 1 true |> stopLowering |> stopCustodian
    |> writeStopRecord |> onSafe (fun f => { f with safe := true }) |> stopperOrder

/-- A DANGER event raised: the first is latched and stops the device, a later one is counted (14 R394). -/
def dangerT (g b detail : Nat) (toggle : Bool) (s : State) : State :=
  let s := raise g b detail 0 s
  if s.safe.stopper then { s with safe := { s.safe with more := inc 16 s.safe.more } }
  else enterStopper g b detail toggle s

def danger (g b detail : Nat) (s : State) : State := dangerT g b detail false s

end Sys2Proof.Machine
end

