-- ==== Sys2Proof/Machine/Gate.lean ====
section
/-! DEFINITION. The breaker's moves that other chapters order, and the two wide resets: entry to CHECK and OFF (02 R35, R45, R448), the
core's orders to hold the gate low (02 R447), leaving HOLDUP (02 R45, R59), the cold and the device reset (00 R12, 03 R62). -/

namespace Sys2Proof.Machine

open Sys2Proof

/-! ### Straps (02 R38, 16 R432) -/

/-- What a strap's voltage, in mV, says: a level, or that it lies between a level and the next. -/
inductive StrapRead
  | level (l : Nat)
  | above (l : Nat)
  deriving DecidableEq, Repr

/-- The window or guard band of a voltage (16 R432). -/
def strapRead (mv : Nat) : StrapRead :=
  if mv ≤ 20 then .level 0
  else if mv < 80 then .above 0
  else if mv ≤ 120 then .level 1
  else if mv < 400 then .above 1
  else if mv ≤ 550 then .level 2
  else if mv < 1200 then .above 2
  else .level 3

/-- Of two levels that give one setting, either is taken (log entry 9). -/
def tie (strap l : Nat) : Nat := if Config.strapTieLower strap l then l else l + 1

/-- DVDT_SET: the slower slew is the more conservative; levels 2 and 3 are alike (02 R39). -/
def dvdtLevel (mv : Nat) : Nat := match strapRead mv with
  | .level l => l
  | .above l => if l = 2 then tie 0 2 else l + 1

/-- CL_SET and FT_SET: the lower limit and the shorter timer are the more conservative (02 R39). -/
def lowLevel (mv : Nat) : Nat := match strapRead mv with
  | .level l => l
  | .above l => l

/-- RTY_SET: latching off is the more conservative, and levels 0 to 2 all latch (02 R39). -/
def rtyLevel (mv : Nat) : Nat := match strapRead mv with
  | .level l => l
  | .above l => if l = 2 then 2 else tie 3 l

/-- Halyard's straps sampled (02 R35). -/
def sampleStraps (x : HlyStraps) (s : State) : State :=
  onHly (fun h => { h with dvdt := dvdtLevel x.dvdt, cl := lowLevel x.cl, ft := lowLevel x.ft, rty := rtyLevel x.rty }) s

/-- Straps that no command supplies: free voltages (log entry 41). -/
def anyStraps (s : State) : HlyStraps × State :=
  let (a, s) := draw s
  let (b, s) := draw s
  let (c, s) := draw s
  let (d, s) := draw s
  ({ dvdt := a, cl := b, ft := c, rty := d }, s)

/-! ### Moves of the breaker (02 R45) -/

/-- What OFF needs before CHECK (02 R45). -/
def mayCheck (s : State) : Bool := s.hly.vinGood && !s.hly.overVoltage && s.pins.sysRstN && !s.pins.testMode

/-- The breaker moved. -/
def setBreaker (b : Breaker) (s : State) : State := onHly (fun h => { h with breaker := b }) s

/-- A step of the start timeline reached (03 R60, BOOT PHASE). -/
def reach (n : Nat) (s : State) : State := onBoot (fun b => { b with phase := max b.phase n }) s

/-- Entry to CHECK, where the sink draws (02 R446); with an order pending, HELD in its place (02 R447). -/
def enterCheck (s : State) : State :=
  reach 1 (onHly (fun h => match h.held with
    | some _ => { h with breaker := .held, retryDue := false, heldOver := false }
    | none => { h with breaker := .check, sink := true, retryDue := false, heldOver := false }) s)

/-- OFF left for CHECK with fresh straps, once its condition holds (02 R35, R45). -/
def leaveOff (x : Option HlyStraps) (s : State) : State :=
  if s.hly.breaker = .off ∧ mayCheck s then
    (match x with
     | some x => enterCheck (sampleStraps x s)
     | none =>
       let (x, s) := anyStraps s
       enterCheck (sampleStraps x s))
  else s

/-- Entry to OFF: the gate low, the fault timer cleared (02 R36, R45), and a pending order dropped where VIN low, SYS_RST_N low or TEST_MODE
high is what caused the entry (02 R447). -/
def goOff (drop : Bool) (s : State) : State :=
  onHly (fun h => { h with
    breaker := .off, timer := false, collapsed := false, retryDue := false, heldOver := false, sink := false, dropHeld := false,
    held := if drop || h.dropHeld then none else h.held }) s

/-- VOUT, the rails and the bank no longer good: the gate is low. -/
def unpower (s : State) : State := onPwr (fun p => { p with voutOk := false, railsOk := false, charged := false }) s

/-- The gate is driven: RAMP, ENHANCE, ON and LIMIT (02 R447). -/
def gateDriven : Breaker → Bool
  | .ramp => true
  | .enhance => true
  | .on => true
  | .limit _ => true
  | _ => false

/-- The core orders the gate low: HELD at once from the states that drive it, else the order is pending (02 R447). Of two orders that stand
together, a thermal one outlasts any other and the newer replaces the older otherwise: DESIGN CHOICE, the spec names no order between them (log entry
60). -/
def gateLow (o : GateOrder) (s : State) : State :=
  let s := onHly (fun h => { h with held := some (if h.held = some .thermal then .thermal else o) }) s
  if gateDriven s.hly.breaker then
    unpower (onHly (fun h => { h with breaker := .held, timer := false, collapsed := false }) s)
  else s

/-- From HELD or RETRY_WAIT to CHECK, once no over-voltage is declared (02 R45, R448). -/
def backToCheck (s : State) : State :=
  if s.hly.overVoltage then
    onHly (fun h => if h.breaker = .held then { h with heldOver := true } else { h with retryDue := true }) s
  else enterCheck s

/-- An order ends; HELD passes to CHECK (02 R45, R447). -/
def endOrder (o : GateOrder) (s : State) : State :=
  if s.hly.held = some o then
    let s := onHly (fun h => { h with held := none }) s
    if s.hly.breaker = .held then backToCheck s else s
  else s

/-- A fault recorded in the fault word (02 R36, R48). -/
def recordFault (c : Nat) (s : State) : State := onHly (fun h => { h with faultClass := c }) s

/-- A trip: its class, and the count (02 R44, R46). -/
def recordTrip (c : Nat) (s : State) : State := onHly (fun h => { h with faultClass := c, trips := inc 8 h.trips }) s

/-- Where a trip leads, as RTY_SET selects (02 R45). -/
def tripState (s : State) : Breaker := if s.hly.rty = 3 then .retryWait else .latched

/-- Leaving HOLDUP at the end of the flush (02 R45). -/
def leaveHoldup (s : State) : State :=
  match s.hly.breaker with
  | .holdup .input => leaveOff none (goOff false s)
  | .holdup .trip => setBreaker (tripState s) s
  | _ => s

/-! ### The wide resets (00 R12, 03 R62) -/

/-- The breaker feeds VOUT: ON, and LIMIT reached from it. -/
def feeds : Breaker → Bool
  | .on => true
  | .limit .on => true
  | _ => false

/-- The core reset: everything volatile returns to its reset value; non-volatile content, pin levels and Halyard stay (00 R12). A
record-flash erase that a thermal shutdown suspended is remembered by its half-erased sector (12 R346). -/
def coreReset (aon : Aon) (s : State) : State :=
  let r := State.reset
  { r with
    hly := s.hly, cfg := s.cfg, pwr := { r.pwr with voutOk := feeds s.hly.breaker },
    jrnl := { r.jrnl with recs := s.jrnl.recs },
    media := { r.media with
      nand := s.media.nand, ckpt := s.media.ckpt, work := s.media.work, mirror := s.media.mirror, retired := s.media.retired },
    rf := { State.recWork0 s.rf.banks with suspended := s.rf.suspended },
    ctl := ⟨{ State.ctl0 with perstLow := s.ctl.a.perstLow }, { State.ctl0 with perstLow := s.ctl.b.perstLow }⟩,
    ps := { r.ps with wakeLow := s.ps.wakeLow, wakeTold := s.ps.wakeTold },
    safe := { r.safe with padHigh := s.safe.padHigh },
    dev := { r.dev with secs := s.dev.secs, powerOn := s.dev.powerOn, lostAon := s.dev.lostAon },
    aon := aon, pins := { r.pins with sysRstN := s.pins.sysRstN, testMode := s.pins.testMode },
    out := s.out, fresh := s.fresh, pending := s.pending }

/-- The power-on count increased (15 R423). -/
def countPowerOn (s : State) : State := onDev (fun d => { d with powerOn := (d.powerOn + 1) % 2 ^ 32 }) s

/-- Orders of the core end with its cold reset, but for a device reset's 100 ms: the thermal latch is cleared (12 R348) and OFF is left. -/
def dropOrders (s : State) : State := endOrder .powerOff (endOrder .thermal s)

/-- A cold reset of the core (00 R12): CLK_AON's state is cleared too, and the power-on count rises; within one that has not ended it is
absorbed (00 R13). -/
def coldReset (s : State) : State :=
  let s' := coreReset State.aon0 s
  dropOrders (if s.aon.coldHeld then s' else countPowerOn s')

/-- A device reset: the core in reset with CLK_AON kept, and the gate held low (03 R62). -/
def deviceReset (s : State) : State := gateLow .deviceReset (coreReset s.aon s)

/-- The end of a flush: the rails fall, the core takes a cold reset, and the breaker leaves HOLDUP (02, flush steps 10 and 11). -/
def endPowerFlush (s : State) : State := leaveHoldup (coldReset (onFlush (fun _ => none) s))

end Sys2Proof.Machine
end

