-- ==== Sys2Proof/Machine/Template.lean ====
section
/-! DEFINITION. Operation templates: what a sequencer puts on a channel's bus when it plays one (07 R195, R196), and which templates an
image may hold (07 R197). -/

namespace Sys2Proof.Machine

open Sys2Proof

/-- What a template is played with (07 R195, R196). -/
structure Play where
  tparam   : List Nat          -- READ_TIMING TPARAM, in ps
  row      : Nat               -- row address
  pageType : Option Nat        -- the native page's type; none in SLC mode
  lun      : Nat               -- die within the target
  levels   : List Int          -- the 16 offsets to set
  data     : List Byte         -- the page that a program carries
  more     : List (Nat × List Byte)  -- row address and page of each further plane
  deriving DecidableEq, Repr

/-- The row address: page, erase unit, die within the target, from bit 0, each ceil(log2) of its count wide (07 R196). -/
def rowAddr (pages units page unit lun : Nat) : Nat :=
  page + 2 ^ clog2 pages * (unit + 2 ^ clog2 units * lun)

/-- Kind and operand of a step (07 R195). -/
def stepKind (w : BitVec 16) : Nat := w.toNat / 4096
def stepArg (w : BitVec 16) : Nat := w.toNat % 256

/-- The n low bytes of an address, low byte first. -/
def addrBytes (n v : Nat) : List Nat := (le n v).map BitVec.toNat

/-- The cycles of one step that sends, waits or polls (07 R195). -/
def playStep (x : Play) (w : BitVec 16) : List Cycle :=
  let a := stepArg w
  match stepKind w with
  | 1 => [.cmd a]
  | 2 => [.addr (List.replicate (a % 8) 0 ++ addrBytes (a / 16 % 8) x.row)]
  | 3 => [.dataOut x.data]
  | 4 => [.dataIn]
  | 5 => [.wait (nth x.tparam a 0)]
  | 6 => [.poll (a = 1)]
  | 7 => [.levels ((x.levels.drop a).take 4)]
  | 8 => (match x.pageType with
    | some t => [.cmd ((a + t) % 256)]
    | none => [])
  | 11 => [.addr [a]]
  | 12 => [.addr [x.lun]]
  | _ => []

/-- A template played for one plane up to its first END step; `mark` is what follows the last MARK step, and at a PLANES step `next` plays that for the
next plane, where one is left (07 R195). -/
def playPlane (x : Play) (next : Option (List (BitVec 16) → List Cycle)) (mark : List (BitVec 16)) : List (BitVec 16) → List Cycle
  | [] => []
  | w :: ws =>
    if stepKind w = 0 then []
    else if stepKind w = 9 then playPlane x next ws ws
    else if stepKind w = 10 then (match next with
      | some f => .cmd (stepArg w) :: f mark
      | none => playPlane x next mark ws)
    else playStep x w ++ playPlane x next mark ws

/-- A template played for a plane and the further ones in turn. -/
def playPlanes (x : Play) : List (Nat × List Byte) → List (BitVec 16) → List Cycle
  | [], t => playPlane x none t t
  | p :: ps, t => playPlane x (some (playPlanes { x with row := p.1, data := p.2 } ps)) t t

/-- A template played (07 R195). -/
def play (x : Play) (t : List (BitVec 16)) : List Cycle := playPlanes x x.more t

/-- A template's purpose, for R197. -/
inductive Purpose | program | read | param | levels | other
  deriving DecidableEq, Repr

/-- Whether one step is allowed in a template of a purpose; `mark` says whether a MARK step lies before it (07 R197). -/
def stepOk (p : Purpose) (mark : Bool) (w : BitVec 16) : Bool :=
  let a := stepArg w
  w.toNat / 256 % 16 = 0 &&
  match stepKind w with
  | 0 => a = 0
  | 1 => true
  | 2 => !bit a 3 && !bit a 7
  | 3 => a = 0 && decide (p = .program)
  | 4 => a = 0 && (decide (p = .read) || decide (p = .param))
  | 5 => a ≤ 15
  | 6 => a ≤ 1
  | 7 => a ≤ 12 && decide (p = .levels)
  | 8 => true
  | 9 => a = 0
  | 10 => mark
  | 11 => true
  | 12 => a = 0
  | _ => false

/-- Whether every step is allowed. -/
def stepsOk (p : Purpose) : Bool → List (BitVec 16) → Bool
  | _, [] => true
  | mark, w :: ws => stepOk p mark w && stepsOk p (mark || stepKind w = 9) ws

/-- Whether a template may stand in an image (07 R197): an END step, only allowed steps, and a POLL but for T_LEVELS. -/
def templateOk (p : Purpose) (t : List (BitVec 16)) : Bool :=
  t.length = 16 && t.any (fun w => stepKind w = 0) && stepsOk p false t && (decide (p = .levels) || t.any (fun w => stepKind w = 6))

end Sys2Proof.Machine
end

