-- ==== Sys2Proof/Machine/MapOps.lean ====
section
/-! DEFINITION. The map and the sets: logical hanks (06 R155), the place of a data block in a set (06 R152, 10 R273, R274),
looking a block up, changing the map under the delta rule (05 R141, 06 R166), forming and closing sets (06 R151, R159,
R176), and filling page rows (10 R277). -/

namespace Sys2Proof.Machine

open Sys2Proof

/-! ### Geometry -/

def geo (s : State) : Geometry := s.prm.geometry.getD
  { fitted := [], dies := 1, planes := 1, units := 0, pagesNative := 0, pagesSlc := 0, cell := 1, ldpcM := 6, s := 1,
    spare := 0, peRated := 1, peRatedSlc := 1 }

/-- Block slots per page, S. -/
def slotsPerPage (s : State) : Nat := max 1 (geo s).s

/-- Native page types, b: 3 for TLC, 4 for QLC (07 R196). -/
def pageTypes (s : State) : Nat := if (geo s).cell = 2 then 4 else 3

/-- Physical pages of a unit in a mode, header included: the first wordline of a native unit holds the header alone (08 R215). -/
def pagesOf (s : State) (mode : Nat) : Nat := if mode = 0 then (geo s).pagesSlc else (geo s).pagesNative + 1 - pageTypes s

/-- Page rows of a set in a mode: every physical page but the header page. -/
def rowsOf (s : State) (mode : Nat) : Nat := pagesOf s mode - 1

/-- The parts of a unit address (06 R154). -/
def unitDie (addr : Nat) : Nat := addr / 16384
def unitNo (addr : Nat) : Nat := addr % 16384
def dieCh (die : Nat) : Nat := die % 16
def dieTgt (die : Nat) : Nat := (die / 16) % 8
def dieLun (die : Nat) : Nat := die / 128
def unitCh (addr : Nat) : Nat := dieCh (unitDie addr)
def unitTgt (addr : Nat) : Nat := dieTgt (unitDie addr)

def chan (s : State) (ch : Nat) : Channel := vecAt s.media.channels ch State.channel0
def tgtOf (s : State) (ch t : Nat) : Target := nth (chan s ch).targets t State.target0

/-- Whether a unit's target is usable: neither FAILED nor EXCLUDED (07 R209, 03 R86). -/
def unitUsable (s : State) (addr : Nat) : Bool :=
  let t := tgtOf s (unitCh addr) (unitTgt addr)
  t.fitted && t.state ≠ .failed && t.state ≠ .excluded

/-! ### The bus (07 R195, R196, R200) -/

/-- TPARAM of a channel: the image's, or what a host wrote before the seal (07 R192, 03 R98). -/
def chanTparam (s : State) (ch : Nat) : List Nat := match s.prm.readTiming with
  | some r => r.tparam.zipIdx.map (fun x => (kvGet s.prm.mediaRws (4096 * ch + 0x100 + 4 * x.2)).getD x.1)
  | none => []

/-- MTS of a channel (07 R192, 03 R98). -/
def chanMts (s : State) (ch : Nat) : Nat := match s.prm.readTiming with
  | some r => (kvGet s.prm.mediaRws (4096 * ch + 0x140)).getD r.mts
  | none => 0

/-- What a template is played with for a physical page of a unit in a mode: wordline p in SLC mode and for the header, NAND page
b + p − 1 otherwise (07 R196, 08 R215). -/
def playAt (s : State) (addr page : Nat) (slc : Bool) (levels : List Int) : Play :=
  let b := pageTypes s
  let wl := slc || page = 0
  { tparam := chanTparam s (unitCh addr),
    row := rowAddr (geo s).pagesNative (geo s).units (if wl then page else b + page - 1) (unitNo addr) (dieLun (unitDie addr)),
    pageType := if wl then none else some ((page - 1) % b), lun := dieLun (unitDie addr), levels := levels, data := [], more := [] }

/-- A template played on a unit's die: while it plays, the chip enable of that die's target is low, and every other one of the channel high (07
R187). -/
def onBus (addr : Nat) (x : Play) (t : List (BitVec 16)) (s : State) : State := emit (.bus (unitCh addr) (unitDie addr) (play x t)) s

/-- What a program template is played with: the page's bytes go out (07 R195, 08 R217, R224). -/
def playPage (s : State) (addr page : Nat) (slc : Bool) (bytes : List Byte) : Play := { playAt s addr page slc [] with data := bytes }

/-- The bytes of a page of slots at a physical page of a unit (08 R224). -/
def slotBytes (s : State) (addr page : Nat) (slots : List Slot) : List Byte := pageBytes (geo s) addr page slots

/-- A template of WRITE_TIMING. -/
def wTemplate (s : State) (f : WriteTiming → List (BitVec 16)) : List (BitVec 16) := match s.prm.writeTiming with
  | some w => f w
  | none => []

/-- A template of READ_TIMING. -/
def rTemplate (s : State) (f : ReadTiming → List (BitVec 16)) : List (BitVec 16) := match s.prm.readTiming with
  | some r => f r
  | none => []

/-! ### Logical hanks -/

/-- Hank-table entries that a namespace takes here (06 R155, 10 R283). -/
def nsHanks (s : State) (n : NsEntry) : Nat :=
  let l := nsLayout s n.nsid
  if l.cross = 5 then ceilDiv n.size (32 * max l.k 1) else ceilDiv n.size 32

/-- The first hank-table entry of a namespace: runs follow one another in ascending NSID order (06 R155). -/
def nsFirst (s : State) (nsid : Nat) : Nat :=
  sumN ((s.prm.namespaces.filter (fun n => n.nsid < nsid)).map (nsHanks s))

/-- The first entry after the last namespace's run: the splice run (10 R292). -/
def spliceRun (s : State) : Nat := sumN (s.prm.namespaces.map (nsHanks s))

/-- The logical hank of a block, and its place within the hank (06 R155, 10 R283, R284). -/
def hankOf (s : State) (nsid lba : Nat) : Nat :=
  let l := nsLayout s nsid
  nsFirst s nsid +
    (if l.cross = 5 then
      (if lba ≥ 2 ^ 39 then (lba % 2 ^ 36) / 32 else (lba / 32) / max l.k 1)
    else lba / 32)

/-- What the map says of a block. -/
inductive Look
  | unmapped
  | mapped (a : MAddr)
  | bad
  deriving DecidableEq, Repr

/-- The 32 places of a hank-form entry. -/
def slotBlocks (set slot : Nat) : List (Option MAddr) :=
  (List.range 32).map (fun i => some { set := set, block := 32 * slot + i })

/-- The 32 places of a hank. -/
def hankBlocks (s : State) (h : Nat) : List (Option MAddr) :=
  match kvGet s.map.hanks h with
  | none => List.replicate 32 none
  | some (.slot set slot) => slotBlocks set slot
  | some (.strand g) => (kvGet s.map.strands g).getD (List.replicate 32 none)
  | some (.moving bs) => bs
  | some .invalid => List.replicate 32 none

/-- A block looked up by hank and place. -/
def lookHank (s : State) (h i : Nat) : Look :=
  match kvGet s.map.hanks h with
  | some .invalid => .bad
  | _ => match nth (hankBlocks s h) i none with
    | some a => .mapped a
    | none => .unmapped

/-- A block looked up (06 R155, R156). -/
def look (s : State) (nsid lba : Nat) : Look := lookHank s (hankOf s nsid lba) (lba % 32)

/-- Mapped logical blocks (06 R184). -/
def mappedBlocks (s : State) : Nat :=
  sumN (s.map.hanks.map (fun e => ((hankBlocks s e.1).filter Option.isSome).length))

/-- Mapped blocks of one namespace (04 R106, NUSE). -/
def nsMapped (s : State) (n : NsEntry) : Nat :=
  let f := nsFirst s n.nsid
  sumN ((s.map.hanks.filter (fun e => f ≤ e.1 ∧ e.1 < f + nsHanks s n)).map
    (fun e => ((hankBlocks s e.1).filter Option.isSome).length))

/-- Valid data blocks of a set: those that the map names (06 R158). -/
def validOf (s : State) (set : Nat) : Nat :=
  sumN (s.map.hanks.map (fun e => ((hankBlocks s e.1).filter (fun a => match a with
    | some m => m.set = set
    | none => false)).length))

/-! ### Strand groups -/

def groupsUsed (s : State) : Nat := s.map.strands.length
def groupsFree (s : State) : Nat := Config.groups - groupsUsed s

/-- The lowest free strand group. -/
def freeGroup : Nat → List (Nat × List (Option MAddr)) → Nat
  | n, [] => n
  | n, (k, _) :: l => if k = n then freeGroup (n + 1) l else n

/-- The strand group of a hank, freed. -/
def dropGroup (h : Nat) (s : State) : State :=
  match kvGet s.map.hanks h with
  | some (.strand g) => onMap (fun m => { m with strands := kvDel m.strands g }) s
  | _ => s

/-- A hank made unmapped, its group freed (06 R164, R182). -/
def unmapHank (h : Nat) (s : State) : State :=
  onMap (fun m => { m with hanks := kvDel m.hanks h }) (dropGroup h s)

/-- Whether 32 places are those of one hank slot, in order. -/
def asSlot (bs : List (Option MAddr)) : Option (Nat × Nat) :=
  match bs.head? with
  | some (some a) =>
    if a.block % 32 = 0 ∧ bs = slotBlocks a.set (a.block / 32) then some (a.set, a.block / 32) else none
  | _ => none

/-- A hank given hank form. -/
def putSlot (h set slot : Nat) (s : State) : State :=
  onMap (fun m => { m with hanks := kvPut m.hanks h (.slot set slot) }) (dropGroup h s)

/-- A hank between the records of a change (log entry 17); with all 32 blocks in one slot it has hank form, with none mapped it is unmapped. -/
def putMoving (h : Nat) (bs : List (Option MAddr)) (s : State) : State :=
  match asSlot bs with
  | some (set, slot) => putSlot h set slot s
  | none => if bs.all Option.isNone then unmapHank h s
    else onMap (fun m => { m with hanks := kvPut m.hanks h (.moving bs) }) (dropGroup h s)

/-- A hank given strand form with these places, in its own group or in the lowest free one (06 R156); with none mapped it is unmapped (06 R164). -/
def putStrands (h : Nat) (bs : List (Option MAddr)) (s : State) : State :=
  if bs.all Option.isNone then unmapHank h s
  else match kvGet s.map.hanks h with
    | some (.strand g) => onMap (fun m => { m with strands := kvPut m.strands g bs }) s
    | _ =>
      let g := freeGroup 0 s.map.strands
      if g < Config.groups then
        onMap (fun m => { m with strands := kvPut m.strands g bs, hanks := kvPut m.hanks h (.strand g) }) s
      else putMoving h bs s

/-- Whether every place lies where a strand entry can name it: in a pool set, and not its last encodable block (06 R156). -/
def strandable (a : MAddr) : Bool := a.set < Config.poolSets && !(a.set = 32767 && a.block = 131071)

/-- Whether every mapped block of 32 places may be a strand. -/
def allStrandable (bs : List (Option MAddr)) : Bool := bs.all (fun b => match b with
  | some m => strandable m
  | none => true)

/-- One block of a hank moved to a new place: a strand of a hank in strand form stays one where its place allows it; any other hank is between the
records of a change (log entry 17). -/
def putBlock (h i : Nat) (a : MAddr) (s : State) : State :=
  let bs := modAt (hankBlocks s h) i (fun _ => some a)
  match kvGet s.map.hanks h with
  | some (.strand _) => if strandable a then putStrands h bs s else putMoving h bs s
  | _ => putMoving h bs s

/-- The form of a hank at rest (06 R167): one left between records has strand form where every place allows it. -/
def settleForm (h : Nat) (s : State) : State :=
  match kvGet s.map.hanks h with
  | some (.moving bs) => if allStrandable bs then putStrands h bs s else s
  | _ => s

/-- Every hank at rest. -/
def settleForms (s : State) : State := (s.map.hanks.map (fun e => e.1)).foldl (fun s h => settleForm h s) s

/-! ### Places in a set -/

def setBy (s : State) (idx : Nat) : Option SetE := s.map.sets.find? (fun e => e.idx = idx)

/-- One set table entry changed. -/
def setSet (idx : Nat) (f : SetE → SetE) (s : State) : State :=
  onMap (fun m => { m with sets := m.sets.map (fun e => if e.idx = idx then f e else e) }) s

/-- The channels that hold a member, ascending (10 R273). -/
def setChans (e : SetE) : List Nat := (List.range 16).filter (fun c => (nth e.members c none).isSome)

/-- The ways of an in-device mirror, 0 for a braid. -/
def ways (loc : Nat) : Nat := if loc = 3 then 2 else if loc = 4 then 3 else 0

/-- The indices of the members that carry data in a row (10 R273, R274). -/
def dataIdx (loc n r : Nat) : List Nat :=
  if ways loc = 0 then
    (List.range n).filter (fun i => i ≠ r % n ∧ (loc ≠ 2 ∨ i ≠ (r + 1) % n))
  else List.range (n / ways loc)

/-- D, the data members of a row (06 R152, 10 R274). -/
def dataCount (loc n : Nat) : Nat :=
  if loc = 1 then n - 1 else if loc = 2 then n - 2 else n / max (ways loc) 1

def localOf (s : State) (e : SetE) : Nat := ((layoutBy s e.layout).getD (layout0 s)).loc

/-- Channel, page row and slot of a data block of a set (06 R152). -/
def placeOf (s : State) (e : SetE) (b : Nat) : Nat × Nat × Nat :=
  let S := slotsPerPage s
  let D := max e.d 1
  let row := (b / S) / D
  let chs := setChans e
  let idx := nth (dataIdx (localOf s e) chs.length row) ((b / S) % D) 0
  (nth chs idx 0, row, b % S)

/-- Data blocks a set holds. -/
def setCap (s : State) (e : SetE) : Nat := rowsOf s e.mode * e.d * slotsPerPage s

def nandUnit (s : State) (addr : Nat) : Option NandUnit := s.media.nand.find? (fun u => u.addr = addr)

/-- The programmed slot at a media address. -/
def slotAt (s : State) (a : MAddr) : Option Slot :=
  match setBy s a.set with
  | none => none
  | some e =>
    let (ch, row, k) := placeOf s e a.block
    match nth e.members ch none with
    | none => none
    | some u => match nandUnit s u with
      | none => none
      | some n => match kvGet n.pages (row + 1) with
        | some sl => sl[k]?
        | none => none

/-- The GSEQ that a record of the delta gave a block or its deallocation (05 R141). -/
def knownGseq (s : State) (nsid lba : Nat) : Option Nat :=
  (s.map.known.find? (fun x => x.1 = nsid && x.2.1 = lba)).map (fun x => x.2.2)

/-- The GSEQ of a block's content: the one that a record of the delta gave it, else that of the slot it maps to where the slot is the block's own; 0
where it is unmapped (05 R141). -/
def gseqAt (s : State) (nsid lba : Nat) : Nat :=
  match knownGseq s nsid lba with
  | some g => g
  | none => match look s nsid lba with
    | .mapped a => (match slotAt s a with
      | some k => if k.nsid = nsid ∧ k.lba = lba then k.gseq else 0
      | none => 0)
    | _ => 0

/-! ### The delta rule -/

/-- Whether a record names a block that the image defines (05 R141). Parity LBAs of a long braid lie above 2^39 (10 R284). -/
def definedBlock (s : State) (nsid lba : Nat) : Bool :=
  match nsOf s nsid with
  | some n => lba < n.size || ((nsLayout s nsid).cross = 5 && lba ≥ 2 ^ 39)
  | none => false

/-- One block of a COMPLETION, PLACED: it changes only a block whose content is no newer (05 R141). -/
def placeBlock (nsid lba gseq : Nat) (a : MAddr) (s : State) : State :=
  if definedBlock s nsid lba && gseqAt s nsid lba ≤ gseq then putBlock (hankOf s nsid lba) (lba % 32) a s else s

/-- A COMPLETION, PLACED, of a run. A whole hank in a whole slot takes hank form at once (06 R160). -/
def applyPlaced (nsid slba nlb1 gseq : Nat) (a : MAddr) (s : State) : State :=
  if nlb1 = 31 ∧ slba % 32 = 0 ∧ a.block % 32 = 0 ∧
      (List.range 32).all (fun i => definedBlock s nsid (slba + i) && gseqAt s nsid (slba + i) ≤ gseq) then
    putSlot (hankOf s nsid slba) a.set (a.block / 32) s
  else (List.range (nlb1 + 1)).foldl
    (fun s i => placeBlock nsid (slba + i) gseq { set := a.set, block := a.block + i } s) s

/-- One block unmapped: a hank in hank form goes to strand form with the rest (06 R182). -/
def unmapBlock (h i : Nat) (s : State) : State :=
  let bs := modAt (hankBlocks s h) i (fun _ => none)
  match kvGet s.map.hanks h with
  | none => s
  | some (.strand _) => putStrands h bs s
  | some .invalid => danger 5 21 0 s
  | some _ => putMoving h bs s

/-- A COMPLETION, DEALLOCATED, of a run within one hank (06 R182). -/
def applyDealloc (nsid slba nlb1 gseq : Nat) (s : State) : State :=
  if nlb1 = 31 ∧ slba % 32 = 0 ∧
      (List.range 32).all (fun i => definedBlock s nsid (slba + i) && gseqAt s nsid (slba + i) ≤ gseq) then
    unmapHank (hankOf s nsid slba) s
  else (List.range (nlb1 + 1)).foldl (fun s i =>
    if definedBlock s nsid (slba + i) && gseqAt s nsid (slba + i) ≤ gseq then
      unmapBlock (hankOf s nsid (slba + i)) ((slba + i) % 32) s else s) s

/-- The local index of a block's hank under a layout (06 R155, 10 R283). -/
def localHank (l : Layout) (lba : Nat) : Nat :=
  if l.cross = 5 then (if lba ≥ 2 ^ 39 then (lba % 2 ^ 36) / 32 else lba / 32 / max l.k 1) else lba / 32

/-- Whether a namespace is being built in the splice run, for a splice of this brick or of another (10 R292). -/
def runOpen (s : State) (nsid : Nat) : Bool :=
  s.braid.splices.any (fun p => p.nsid = nsid && p.localRun) || s.braid.reserves.any (fun r => r.nsid = nsid && r.run)

/-- The layout of a namespace's part of the splice run, for a splice driven here or by another brick: the new one, and after the exchange the old one (10
R292). -/
def newLayout (s : State) (nsid : Nat) : Layout :=
  match s.braid.splices.find? (fun p => p.nsid = nsid) with
  | some p => (layoutBy s (if p.phase = .release then p.old else p.new)).getD (layout0 s)
  | none => match s.braid.reserves.find? (fun r => r.nsid = nsid) with
    | some r => (layoutBy s r.new).getD (layout0 s)
    | none => nsLayout s nsid

/-- The hank that a MAP_UPDATE concerns: kind 7 always refers to the splice run (10 R292). -/
def moveHank (s : State) (nsid lba : Nat) (kind : MoveKind) : Nat :=
  if kind = .splice then spliceRun s + localHank (newLayout s nsid) lba else hankOf s nsid lba

/-- The hank that a MAP_UPDATE concerns, whose block in the splice run names its layout in its metadata: the record does not (08 R229, 10 R292). -/
def movedHank (s : State) (nsid lba : Nat) (kind : MoveKind) (new : MAddr) : Nat :=
  match kind, (slotAt s new).bind (fun k => layoutBy s k.layout) with
  | .splice, some l => spliceRun s + localHank l lba
  | _, _ => moveHank s nsid lba kind

/-- One block of a MAP_UPDATE: it changes only a block that is still mapped at OLD, or unmapped where OLD names no location
(05 R141, 06 R166). -/
def moveBlock (nsid lba : Nat) (kind : MoveKind) (old : Option MAddr) (new : MAddr) (s : State) : State :=
  let h := movedHank s nsid lba kind new
  let here : Bool := match lookHank s h (lba % 32), old with
    | .mapped a, some o => decide (a = o)
    | .unmapped, none => true
    | _, _ => false
  if definedBlock s nsid lba && here then
    putBlock h (lba % 32) new s
  else s

def applyMove (nsid slba nlb1 : Nat) (kind : MoveKind) (old : Option MAddr) (new : MAddr) (s : State) : State :=
  (List.range (nlb1 + 1)).foldl (fun s i =>
    moveBlock nsid (slba + i) kind (old.map (fun a => { a with block := a.block + i }))
      { new with block := new.block + i } s) s

/-! ### Capacity and the SLC buffer -/

/-- Units fitted. -/
def unitsFitted (s : State) : Nat :=
  sumN ((geo s).fitted.map (fun m => sumN ((List.range 8).map (fun t => b2n (bit m t))))) * (geo s).dies * (geo s).units

/-- N, in bytes (06 R169). -/
def nativeBytes (s : State) : Nat :=
  unitsFitted s * ((geo s).pagesNative - 1) * slotsPerPage s * 4096 * 15 / 16

def opPermil (s : State) : Nat := match s.prm.mapping with
  | some m => m.opPermil
  | none => 1000

/-- The user capacity in hanks (06 R169). -/
def userHanks (s : State) : Nat := nativeBytes s * (1000 - opPermil s) / 1000 / 131072

/-- Blocks reserved by splices here (10 R291). -/
def reservedBlocks (s : State) : Nat :=
  sumN (s.braid.reserves.map (fun r => r.blocks)) + sumN (s.braid.splices.map (fun r => r.reserve))

/-- The free capacity F in bytes; a reservation counts as mapped (06 R169, 10 R291). -/
def freeBytes (s : State) : Nat := userHanks s * 131072 - 4096 * (mappedBlocks s + reservedBlocks s)

/-- The target size T of the SLC buffer (06 R170). -/
def slcTarget (s : State) : Nat := min (max (freeBytes s * 4 / 100) 17179869184) 2199023255552

/-- F in whole hanks. -/
def freeHanks (s : State) : Nat := freeBytes s / 131072

/-- T is recomputed when F changes by a whole hank, and C follows it only outside its 1 % band, with NOTICE 5.1 (06 R170). -/
def resizeSlc (s : State) : State :=
  let t := slcTarget s
  if s.map.state ≠ 3 ∨ freeHanks s = s.map.slcF then s
  else
    let s := onMap (fun m => { m with slcF := freeHanks s }) s
    if t * 100 > 101 * s.map.slc ∨ t * 100 < 99 * s.map.slc then raise 5 1 0 0 (onMap (fun m => { m with slc := t }) s) else s

/-- Host data bytes that SLC-mode sets hold (06 R170): their data blocks taken. -/
def slcUsed (s : State) : Nat :=
  4096 * sumN ((s.map.sets.filter (fun e => e.mode = 0)).map (fun e => e.fill))

/-! ### Units and sets -/

def unitBy (s : State) (addr : Nat) : Option UnitE := s.map.units.find? (fun u => u.addr = addr)

/-- One unit table entry changed. -/
def setUnit (addr : Nat) (f : UnitE → UnitE) (s : State) : State :=
  onMap (fun m => { m with units := m.units.map (fun u => if u.addr = addr then f u else u) }) s

/-- Whether a unit is free for a set: free or never written, on a usable target (06 R176, R185). -/
def isFree (s : State) (u : UnitE) : Bool := (u.state = 0 || u.state = 6) && unitUsable s u.addr

def freeOn (s : State) (ch : Nat) : List UnitE := s.map.units.filter (fun u => unitCh u.addr = ch && isFree s u)

/-- A channel that takes part in new sets: not FAILED, with a usable target. -/
def healthy (s : State) (ch : Nat) : Bool :=
  (chan s ch).state ≠ 4 && (chan s ch).targets.any (fun t => t.fitted && t.state ≠ .failed && t.state ≠ .excluded)

/-- The free set count: the least number of free units on a healthy channel (06 R172). -/
def freeSets (s : State) : Nat :=
  match ((List.range 16).filter (healthy s)).map (fun c => (freeOn s c).length) with
  | [] => 0
  | n :: l => l.foldl min n

/-- The unit that a channel gives to a set: the lowest PE, then the lowest die index, then the lowest unit number
(06 R176); for a wear move the highest PE (06 R177). -/
def chooseUnit (s : State) (worn : Bool) (ch : Nat) : Option Nat :=
  let c := sortBy (fun u => u.addr) (freeOn s ch)
  (if worn then argMax (fun u => u.pe) c else argMin (fun u => u.pe) c).map (fun u => u.addr)

/-- The least set index that no set uses, from a first one (06 R151). -/
def freeIndex (used : List Nat) : Nat → Nat → Option Nat
  | 0, _ => none
  | fuel + 1, n => if has used n then freeIndex used fuel (n + 1) else some n

/-- LAYOUT_KIND of a layout (08 R220, 10 R275). -/
def layoutKind (l : Layout) : Nat := if l.cross ≠ 0 then l.cross else l.loc

/-- The whipping header of a unit (08 R220). -/
def mkHeader (s : State) (role cell addr pe : Nat) (set : Option Nat) (lay : Layout) (d createGseq : Nat)
    (members : List (Option Nat)) (partner : Option Nat) : Header :=
  { role := role, cell := cell, gen := s.boot.genUsed, nodeId := myNode s, createGseq := createGseq,
    createSecs := s.dev.secs, pe := pe, set := set, layout := lay.id,
    layoutKind := if members = [] then 0 else layoutKind lay, position := unitCh addr, d := d, members := members,
    xk := if lay.cross = 5 then lay.k else if layoutKind lay ≥ 3 then (if lay.cross = 0 then ways lay.loc else lay.k) else 0,
    xm := if lay.cross = 5 then lay.m else 0, xpos := lay.pos, xnodes := lay.nodes, partner := partner }

/-- A unit's medium replaced: erased, then its header programmed (08 R216). -/
def putNand (u : NandUnit) (s : State) : State :=
  onMedia (fun m => { m with nand := sortBy (fun v => v.addr) (u :: m.nand.filter (fun v => v.addr ≠ u.addr)) }) s

end Sys2Proof.Machine
end

