-- ==== Sys2Proof/Machine/Flags.lean ====
section
/-! DEFINITION. Status computed from the state: alert levels (15 R410), the SMART critical warning (04 R107), pin levels
(01 R34, 14 R392), and the register fields of the blocks DEV and EVT (15). -/

namespace Sys2Proof.Machine

open Sys2Proof

/-- Pack fields into a register: each is a low bit and a value. -/
def pack (fs : List (Nat × Nat)) : Nat := sumN (fs.map (fun f => f.2 * 2 ^ f.1))

/-- ALERT_N is asserted (15 R410, R414): some status bit whose ALERT routing is 1 is set, outside OFF, the gates open. -/
def alertAsserted (s : State) : Bool :=
  outwardOpen s && s.ps.state ≠ 4 &&
  (List.range 16).any (fun g => decide (vecAt s.evt.status g 0#32 &&& vecAt s.evt.alert g 0#32 ≠ 0#32))

/-- Whether a participant of the sleep handshake runs: the device is awake, and no handshake has stopped it (11 R315, R317). -/
def partRuns (s : State) (n : Nat) : Bool := decide (s.ps.state ≤ 1) && !(match s.ps.hs with
  | some h => has h.stopped n
  | none => false)

/-! ### Levels of the output pins (16 R427) -/

/-- READY is driven high: host ready, the no-image state or the stopper state has been reached, outside OFF; otherwise it is released (01 R34, 14 R394,
16 R427). -/
def readyHigh (s : State) : Bool := (s.boot.ready || s.safe.stopper) && s.ps.state ≠ 4

/-- FAULT_N is pulled low: a stopper latch is set (14 R386). -/
def faultLow (s : State) : Bool := s.safe.stopper

/-- ALERT_N is pulled low (15 R410). -/
def alertLow (s : State) : Bool := alertAsserted s

/-- SMB_ALERT_N is pulled low, outside OFF (15 R411). -/
def smbAlertLow (s : State) : Bool := s.evt.smbAlert && s.ps.state ≠ 4

/-- HLY_FLT_N is pulled low: the breaker is in RETRY_WAIT or LATCHED (02 R37). -/
def hlyFaultLow (s : State) : Bool := match s.hly.breaker with
  | .retryWait => true
  | .latched => true
  | _ => false

/-- GATE is driven on (02 R447, 16 R427). -/
def gateHigh (s : State) : Bool := gateDriven s.hly.breaker

/-- NPWR_EN_g and DRAM_PWR_EN are high (16 R427, R428). -/
def npwrHigh (s : State) (g : Nat) : Bool := nth s.pins.npwrEn g false
def dramHigh (s : State) : Bool := s.pins.dramPwrEn

/-- Whether the supply of a channel's group is on: while it is off the R/B_N inputs are ignored (16 R428). -/
def supplied (s : State) (ch : Nat) : Bool := npwrHigh s (ch / 4)

/-- R/B_N of a target has read high while the status of its operation showed busy: NOTICE g.(4c′+1); the status decides (07 R208). -/
def rbDisagrees (high : Bool) (ch t : Nat) (s : State) : State :=
  if high && supplied s ch then raise (chanGroup ch) (chanBit ch + 1) t 0 s else s

/-- The bits of a group of the event block's GROUPS field. -/
def groupBits (s : State) : Nat :=
  sumN ((List.range 16).map (fun g => if vecAt s.evt.status g 0#32 = 0#32 then 0 else 2 ^ g))

/-! ### Hold-up and acknowledgement -/

/-- SLC capacity of one erase unit in bytes: its pages but the header page (05 R148). -/
def slcUnitBytes (s : State) : Nat := ((geo s).pagesSlc - 1) * slotsPerPage s * 4096

/-- Units that the spill reserve must hold for a token budget (05 R148). -/
def spillNeed (s : State) (budget : Nat) : Nat := ceilDiv (ceilDiv (budget * 4096 * 16) 15) (max (slcUnitBytes s) 1) + 16

/-- Whether a unit has an erase or a program that has not ended. -/
def unitWorks (s : State) (a : Nat) : Bool := s.media.erases.any (fun e => e.unit = a) || s.media.progs.any (fun p => p.unit = a)

/-- Whether every unit of a spill group is erased and has its header (05 R148, 08 R216). -/
def groupReady (s : State) (g : SpillGroup) : Bool := !g.dirty && !g.units.any (unitWorks s)

/-- Units that the spill reserve holds ready (05 R148, R149). -/
def spillHave (s : State) : Nat :=
  sumN ((s.map.spills.filter (fun g => !g.written && groupReady s g)).map (fun g => (g.units.filter (unitUsable s)).length))

/-- The spill reserve meets R148 (JRNL_STATUS, SPILL_READY). -/
def spillReady (s : State) : Bool := s.map.state = 3 && spillHave s ≥ spillNeed s s.pwr.budget

/-- Buffered acknowledgement is allowed by the hold-up store, the wake rule and the spill reserve (02 R54, 05 R149, 11 R324). -/
def bufferedAllowed (s : State) : Bool := s.pwr.bufackEn && !s.pwr.topUpWait && spillReady s

/-- A namespace is in buffered mode for a controller, but for FUA (04 R110). -/
def bufferedFor (s : State) (p : Port) (n : NsEntry) : Bool :=
  n.ack && (s.ctl.get p).feat.wce && bufferedAllowed s

/-- The write-protection state of a namespace: its newest NS_STATE, else the image's (03 R80, 05 NS_STATE). -/
def nsWp (s : State) (n : NsEntry) : Bool := match kvGet s.hx.wprot n.nsid with
  | some v => v ≠ 0
  | none => n.wp

/-- Writes to a namespace are refused: write-protected, capacity exhausted, or this brick is a member (06 R181, 10 R271). -/
def protectedNs (s : State) (n : NsEntry) : Bool := nsWp s n || s.map.capWp || !isHome s n.nsid

/-! ### Health -/

/-- A temperature at or above a threshold. -/
def hot (t : Int) : Option Int → Bool
  | some z => z ≥ t
  | none => false

/-- A temperature that keeps the device awake: a zone at or above warn, or a NAND zone at or above throttle on (11 R320). -/
def tooHot (s : State) : Bool := s.therm.warn || [3, 4].any (fun z => hot Config.nandOn (nth s.therm.zones z none))

/-- A temperature above a threshold. -/
def above (t : Int) : Option Int → Bool
  | some z => z > t
  | none => false

/-- Some zone is above its throttle-on threshold (04 R107, 12 R338): zones 0 to 2 are die zones, 3 and 4 NAND zones. -/
def throttleHot (s : State) : Bool :=
  (s.therm.zones.take 3).any (above Config.dieOn) || (s.therm.zones.drop 3).any (above Config.nandOn)

/-- Whether a set has a member on a failed target or channel (10 R278). -/
def degradedSet (s : State) (e : SetE) : Bool :=
  e.state ≠ 4 && (e.members.filterMap id).any (fun u => !unitUsable s u)

/-- NOTICE 11.8 for each set that has become degraded (10, events of group 11 and set states; log entry 57). -/
def tellDegraded (was : SetE → Bool) (s : State) : State :=
  s.map.sets.foldl (fun s e => if degradedSet s e && !was e then raise 11 8 0 0 s else s) s

/-- Sets DEGRADED or REBUILDING (10, BRAID DEGRADED). -/
def degradedCount (s : State) : Nat := (s.map.sets.filter (degradedSet s)).length

/-- The SMART critical-warning byte (04 R107). -/
def criticalWarning (s : State) : Byte :=
  BitVec.ofNat 8 (pack
    [(0, b2n s.map.capWp), (1, b2n (throttleHot s)),
     (2, b2n (!s.ctl.a.pend.isEmpty || !s.ctl.b.pend.isEmpty || degradedCount s > 0)),
     (3, b2n (s.safe.stopper || (!s.prm.namespaces.isEmpty && s.prm.namespaces.all (protectedNs s)))),
     (4, b2n s.pwr.class7)])

/-- The hottest zone, in units of 0.0625 °C (04, feature 04h; 12 R335). -/
def composite (s : State) : Int :=
  (s.therm.zones.filterMap id).foldl max (((s.therm.zones.filterMap id).head?).getD 0)

/-- The mean program/erase count over all fitted units against the rated count, in percent (04 R107). -/
def percentUsed (s : State) : Nat :=
  let n := s.map.units.length
  sumN (s.map.units.map (fun u => u.pe)) * 100 / max (n * (geo s).peRated) 1

/-- Native data capacity of the units not retired, in bytes (06 R181). -/
def nativeNow (s : State) : Nat :=
  (s.map.units.filter (fun u => u.state ≠ 5)).length * ((geo s).pagesNative - 1) * slotsPerPage s * 4096 * 15 / 16

/-- The required native capacity: 1030 / 1000 of the user capacity and the spill reserve (06 R181). -/
def nativeNeed (s : State) : Nat :=
  userHanks s * 131072 * 1030 / 1000 + spillNeed s s.pwr.budget * slcUnitBytes s

/-- Available Spare: 0 in capacity write protection, else the excess as a percentage of that at first start (04 R107). -/
def availableSpare (s : State) : Nat :=
  if s.map.capWp then 0
  else min 100 (max 1 (ceilDiv ((nativeNow s - nativeNeed s) * 100) (max (nativeBytes s - nativeNeed s) 1)))

/-! ### Registers -/

/-- Register block DEV. -/
def regDev (s : State) (o : Nat) : Nat :=
  match o with
  | 0x00 => Config.part + Config.revisionId * 2 ^ 16
  | 0x04 => s.dev.secs % 2 ^ 32
  | 0x08 => s.dev.secs / 2 ^ 32 % 2 ^ 16
  | 0x0C => s.dev.powerOn
  | 0x10 => pack [(0, b2n s.aon.restored), (1, b2n s.aon.noHistory)]
  | 0x14 => myNode s % 2 ^ 32
  | 0x18 => myNode s / 2 ^ 32
  | 0x1C => s.boot.genUsed
  | 0x20 => pack [(0, s.dev.badOffset % 2 ^ 25), (25, portNo s.dev.badPort)]
  | 0x34 => s.dev.scratch.toNat
  | _ => 0

/-- The routing register of a group. -/
def routeOf (s : State) (r : Route) (g : Nat) : Word :=
  match r with
  | .log => vecAt s.evt.log g 0#32
  | .msix => vecAt s.evt.msix g 0#32
  | .aen => vecAt s.evt.aen g 0#32
  | .alert => vecAt s.evt.alert g 0#32
  | .smbalert => vecAt s.evt.smb g 0#32

/-- The routing register at a place of the five. -/
def routeAt : Nat → Option Route
  | 0 => some .log
  | 1 => some .msix
  | 2 => some .aen
  | 3 => some .alert
  | 4 => some .smbalert
  | _ => none

/-- Register block EVT. -/
def regEvt (s : State) (o : Nat) : Nat :=
  if o < 0x40 then (vecAt s.evt.status (o / 4) 0#32).toNat
  else if 0x100 ≤ o ∧ o < 0x300 then
    (match routeAt ((o - 0x100) % 0x20 / 4) with
     | some r => (routeOf s r ((o - 0x100) / 0x20)).toNat
     | none => 0)
  else if 0x300 ≤ o ∧ o < 0x340 then
    pack [(0, vecAt s.evt.vec1 ((o - 0x300) / 4) 0), (8, vecAt s.evt.vec2 ((o - 0x300) / 4) 0)]
  else if o = 0x340 then groupBits s + pack [(16, b2n (alertAsserted s)), (17, b2n s.evt.smbAlert)]
  else if o = 0x344 then s.evt.queue.length
  else if o = 0x348 then s.evt.dropped
  else if o = 0x34C then s.evt.suppressed
  else if o = 0x350 then s.evt.nextSeq
  else 0

end Sys2Proof.Machine
end

