-- ==== Sys2Proof/Machine/Dies.lean ====
section
/-! DEFINITION. The dies: reads at the offsets in force (07 R200, R206, R212), the rewrites and fids that a read asks for (01 R32, 07 R207), and the
one operation that each die carries: what is issued next, what waits, what is suspended and resumed (07 R199 to R202, 05 R132). -/

namespace Sys2Proof.Machine

open Sys2Proof

/-! ### Rewrites and fids requested by a read -/

/-- A rewrite of a unit scheduled by a REWRITE record, unless one is live for it; the 4 097th is dropped, NOTICE 4.7 (05 R134,
06 R180). -/
def scheduleRewrite (unit cause : Nat) (s : State) : State :=
  if s.map.rewrites.any (fun r => r.1 = unit) then s
  else if s.map.rewrites.length ≥ Config.rewriteMax then raise 4 7 0 0 s
  else onMap (fun m => { m with rewrites := m.rewrites ++ [(unit, cause)] }) (note (.rewrite unit cause 0) s)

/-- Whether a unit is in SLC mode, as its header says. -/
def slcUnit (s : State) (addr : Nat) : Bool := match nandUnit s addr with
  | some n => (match n.header with
    | some h => decide (h.cell = 0)
    | none => false)
  | none => false

/-- The age bucket of a unit (07 R212). -/
def bucketOf (s : State) (addr : Nat) : Nat :=
  let pe := match unitBy s addr with
    | some u => u.pe
    | none => 0
  min (8 * pe / max (if slcUnit s addr then (geo s).peRatedSlc else (geo s).peRated) 1) 7

/-- The key of a die and bucket. -/
def fidKey (die bucket : Nat) : Nat := die * 8 + bucket

/-- Fitted dies in ascending die index (07 R443). -/
def fittedDies (s : State) : List Nat :=
  let g := geo s
  (List.range (128 * g.dies)).filter (fun d => bit (nth g.fitted (dieCh d) 0) (dieTgt d))

/-- The 16 offsets in force of a die and bucket: those of its last accepted fid, else the defaults of READ_LEVELS (07 R212, 03 R99). -/
def levelsOf (s : State) (die bucket : Nat) : List Int :=
  match kvGet s.media.levels (fidKey die bucket) with
  | some l => l
  | none => match s.prm.readLevels with
    | some r => nth (nth r.defaults ((fittedDies s).findIdx (fun d => d = die)) []) bucket []
    | none => []

/-- The levels of a page type, as ladder offsets shift them (07 R206, LEVEL_PAGE of R212). -/
def shifted (s : State) (slc : Bool) (ptype : Nat) (d : Int) (l : List Int) : List Int :=
  let pages := match s.prm.readLevels with
    | some r => r.levelPage
    | none => []
  l.zipIdx.map (fun x =>
    let senses := if slc then decide (x.2 = 15) else decide (x.2 < 15 ∧ nth pages x.2 99 = ptype)
    if senses then max (-128) (min 127 (x.1 + d)) else x.1)

/-- One read of a page at 16 offsets, counted: T_LEVELS first where the die's last set levels differ, then T_READ (07 R200). A unit on a target that
is not usable is not selected (07 R209). -/
def readAt (addr page : Nat) (want : List Int) (s : State) : State :=
  if !unitUsable s addr then s
  else
    let slc := slcUnit s addr
    let die := unitDie addr
    let s := onMedia (fun m => { m with channels := modVec m.channels (unitCh addr) (fun c => { c with reads := inc 32 c.reads }) }) s
    let s := if kvGet s.media.set die = some want then s
      else onBus addr (playAt s addr page slc want) (rTemplate s (fun r => r.tLevels))
        (onMedia (fun m => { m with set := kvPut m.set die want }) s)
    onBus addr (playAt s addr page slc want) (rTemplate s (fun r => r.tRead)) s

/-- One read of a page at the unit's offsets, those that its page type senses shifted (07 R206). -/
def busRead (addr page : Nat) (d : Int) (s : State) : State :=
  readAt addr page (shifted s (slcUnit s addr) ((page - 1) % pageTypes s) d (levelsOf s (unitDie addr) (bucketOf s addr))) s

/-- DELTA of a ladder level (07 R206). -/
def ladderDelta (s : State) (level : Nat) : Int := match s.prm.readLevels with
  | some r => if level = 1 then r.delta1 else if level = 2 then r.delta2 else r.delta3
  | none => 0

/-- The two reads that a level of the ladder adds (07 R206). -/
def ladderReads (addr page level : Nat) (s : State) : State :=
  busRead addr page (-(ladderDelta s level)) (busRead addr page (ladderDelta s level) s)

/-- A fid requested for a unit's die and bucket, unless one ran within the last hour (07 R207, R212). -/
def wantFid (addr : Nat) (s : State) : State :=
  let d := unitDie addr
  let b := bucketOf s addr
  let recent := match kvGet s.media.fidAt (fidKey d b) with
    | some t => s.dev.secs < t + 3600
    | none => false
  if recent || s.media.fidWant.any (fun w => w.1 = d && w.2 = b) then s
  else onMedia (fun m => { m with fidWant := m.fidWant ++ [(d, b)] }) s

/-- HARD_CAP of the code (07 R203, R204). -/
def hardCap (s : State) : Nat := 40 * (geo s).ldpcM - 40

/-- A page of a unit that needed a soft decode: NOTICE 8.1 at most once per second per channel, and a fid (07 R207). -/
def softNeeded (unit : Nat) (s : State) : State := wantFid unit (raiseEvery (0x10000 + unitCh unit) 1 8 1 0 0 s)

/-- A soft decode of n codewords counted at its level. -/
def countSoft (level n : Nat) (s : State) : State :=
  onMedia (fun m =>
    if level = 1 then { m with soft1 := sat 32 (m.soft1 + n) }
    else if level = 2 then { m with soft2 := sat 32 (m.soft2 + n) }
    else { m with soft3 := sat 32 (m.soft3 + n) }) s

/-- A codeword that no level of the ladder decodes: counted, with ERROR 8.4 (07 R206). -/
def unrecovered (s : State) : State := raise 8 4 0 0 (onMedia (fun m => { m with unrecovered := inc 32 m.unrecovered }) s)

/-- A converged codeword that fails its check: ERROR 8.5 (07 R205). -/
def checkFail (s : State) : State := raise 8 5 0 0 (onMedia (fun m => { m with checkFail := inc 32 m.checkFail }) s)

/-! ### What a die carries (07 R199) -/

/-- An operation that has not been issued. -/
def run0 : OpRun := { issued := false, suspends := 0, suspended := false, overdue := false }

/-- Whether an operation runs: issued and not suspended. -/
def running (r : OpRun) : Bool := r.issued && !r.suspended

/-- Whether a die carries a running operation: it takes no other (07 R199). -/
def dieBusy (s : State) (die : Nat) : Bool :=
  s.media.erases.any (fun e => unitDie e.unit = die && running e.run) ||
  s.media.progs.any (fun p => unitDie p.unit = die && running p.run) ||
  s.media.reads.any (fun r => unitDie r.unit = die && r.issued)

/-- The erase that a die carries, running or suspended. -/
def eraseOn (s : State) (die : Nat) : Option Erase := s.media.erases.find? (fun e => unitDie e.unit = die && e.run.issued)

/-- The program that a die carries, running or suspended. -/
def progOn (s : State) (die : Nat) : Option Prog := s.media.progs.find? (fun p => unitDie p.unit = die && p.run.issued)

/-- How far the erase or the program of a die has come. -/
def runOn (s : State) (die : Nat) : Option OpRun := match eraseOn s die with
  | some e => some e.run
  | none => (progOn s die).map (fun p => p.run)

/-- Whether the operation of a die is suspended. -/
def dieHeld (s : State) (die : Nat) : Bool := match runOn s die with
  | some r => r.suspended
  | none => false

/-- How far the operation of a die has come, changed. -/
def setRun (die : Nat) (f : OpRun → OpRun) (s : State) : State :=
  onMedia (fun m => { m with
    erases := m.erases.map (fun e => if unitDie e.unit = die && e.run.issued then { e with run := f e.run } else e),
    progs := m.progs.map (fun p => if unitDie p.unit = die && p.run.issued then { p with run := f p.run } else p) }) s

/-- The read that a die takes next: one of a ladder in progress first (07 R200). -/
def readNext (s : State) (die : Nat) : Option NRead :=
  let rs := s.media.reads.filter (fun r => unitDie r.unit = die && !r.issued)
  match rs.find? (fun r => r.level > 0) with
  | some r => some r
  | none => rs.head?

/-- A program or an erase that waits for a die. -/
inductive Waiting
  | erase (e : Erase)
  | prog (p : Prog)
  deriving DecidableEq, Repr

/-- The order of arrival of a waiting operation. -/
def Waiting.id : Waiting → Nat
  | .erase e => e.id
  | .prog p => p.id

/-- The unit of a waiting operation. -/
def Waiting.unit : Waiting → Nat
  | .erase e => e.unit
  | .prog p => p.unit

/-- Whether an operation still has to wait: the record that an erase follows is not durable (05 R132), or an earlier operation of its unit is to be
done first. -/
def mustWait (s : State) (w : Waiting) : Bool :=
  (match w with
    | .erase e => decide (e.after > s.jrnl.horizon)
    | .prog _ => false) ||
  s.media.erases.any (fun e => e.unit = w.unit && e.id < w.id) || s.media.progs.any (fun p => p.unit = w.unit && p.id < w.id)

/-- The programs and erases that wait for a die. -/
def waitingOn (s : State) (die : Nat) : List Waiting :=
  (s.media.erases.filter (fun e => unitDie e.unit = die && !e.run.issued)).map Waiting.erase ++
  (s.media.progs.filter (fun p => unitDie p.unit = die && !p.run.issued)).map Waiting.prog

/-- The program or erase that a die takes next: the oldest that need not wait. -/
def opNext (s : State) (die : Nat) : Option Waiting := argMin Waiting.id ((waitingOn s die).filter (fun w => !mustWait s w))

/-- Whether a program or an erase may be issued: not in the stopper state, nor during a flush or a thermal shutdown (02, flush step 4; 12 R347; 14
R394). -/
def mayIssue (s : State) : Bool := !s.safe.stopper && s.flush.isNone && s.therm.shut.isNone

/-! ### Issuing -/

/-- Blocks of an extent that a program carries are in flight to media from now on (01 R27). -/
def itemInFlight (i : PItem) (s : State) : State :=
  match i with
  | .ext x k => setExt x (fun e => { e with blks := modAt e.blks k (fun b =>
      { b with tok := if b.tok = .journaled then .inflight else b.tok }) }) s
  | .move .. => s

/-- Whether a program is in SLC mode: a header page, a unit of no braid set, or a set in SLC mode (07 R196, 08 R215). -/
def slcProg (s : State) (p : Prog) : Bool := p.header.isSome || (match setBy s p.set with
  | some e => decide (e.mode = 0)
  | none => true)

/-- The physical page of a program (08 R215). -/
def progPage (p : Prog) : Nat := if p.header.isSome then 0 else p.row + 1

/-- The bytes that a program sends (08 R217, R224). -/
def progBytes (s : State) (p : Prog) : List Byte := match p.header with
  | some (h, _) => headerPage (geo s) p.unit h
  | none => slotBytes s p.unit (progPage p) p.slots

/-- The template of a program. -/
def progTemplate (s : State) (p : Prog) : List (BitVec 16) :=
  wTemplate s (fun w => if slcProg s p then w.tProgSlc else w.tProgNative)

/-- The template of an erase. -/
def eraseTemplate (s : State) (cell : Nat) : List (BitVec 16) := wTemplate s (fun w => if cell = 0 then w.tEraseSlc else w.tEraseNative)

/-- What a program template is played with for a program. -/
def playOf (s : State) (p : Prog) : Play := playPage s p.unit (progPage p) (slcProg s p) (progBytes s p)

/-- The cycles of page programs on the planes of one die (07 R189, R195), counted. -/
def playProgs (p : Prog) (ps : List Prog) (s : State) : State :=
  onBus p.unit { playOf s p with more := ps.map (fun q => ((playOf s q).row, (playOf s q).data)) } (progTemplate s p)
    (onMedia (fun m => { m with channels := modVec m.channels (unitCh p.unit) (fun c => { c with programs := sat 32 (c.programs + 1 + ps.length) }) }) s)

/-- The cycles of erases on the planes of one die (07 R189, R195), counted. -/
def playErases (unit cell : Nat) (us : List Nat) (s : State) : State :=
  onBus unit { playAt s unit 0 (cell = 0) [] with more := us.map (fun u => ((playAt s u 0 (cell = 0) []).row, [])) } (eraseTemplate s cell)
    (onMedia (fun m => { m with channels := modVec m.channels (unitCh unit) (fun c => { c with erases := sat 32 (c.erases + 1 + us.length) }) }) s)

/-- The plane of a unit: the lowest bits of its number (PRESUMED from ONFI, log entry 70). -/
def planeOf (s : State) (unit : Nat) : Nat := unitNo unit % max 1 (geo s).planes

/-- Of some candidates in order, those on planes that no earlier one takes. -/
def onePerPlane (plane : Waiting → Nat) : List Nat → List Waiting → List Waiting
  | _, [] => []
  | taken, w :: ws => if has taken (plane w) then onePerPlane plane taken ws else w :: onePerPlane plane (plane w :: taken) ws

/-- The operations that go out with one in a multi-plane operation: of the same kind, mode and page, on other planes of its die, and free to go; none
where the template has no PLANES step (07 R189, R195; log entry 70). -/
def mates (s : State) (w : Waiting) : List Waiting :=
  let die := unitDie w.unit
  let alike : Waiting → Bool := fun x => match w, x with
    | .erase a, .erase b => decide (a.cell = b.cell)
    | .prog a, .prog b => decide (slcProg s a = slcProg s b ∧ progPage a = progPage b ∧ (playOf s a).pageType = (playOf s b).pageType)
    | _, _ => false
  let t := match w with
    | .erase e => eraseTemplate s e.cell
    | .prog p => progTemplate s p
  if t.any (fun x => stepKind x = 10) then
    onePerPlane (fun x => planeOf s x.unit) [planeOf s w.unit]
      (sortBy Waiting.id ((waitingOn s die).filter (fun x => x.id ≠ w.id && alike x && !mustWait s x)))
  else []

/-- Page programs issued: their tokens are in flight to media (01 R27). -/
def issueProgs (p : Prog) (ps : List Prog) (s : State) : State :=
  let s := onMedia (fun m => { m with progs := m.progs.map (fun q =>
    if (p :: ps).any (fun x => x.id = q.id) then { q with run := { q.run with issued := true } } else q) }) s
  ((p :: ps).flatMap (fun x => x.items)).foldl (fun s i => itemInFlight i s) (playProgs p ps s)

/-- Erases issued. -/
def issueErases (e : Erase) (es : List Erase) (s : State) : State :=
  playErases e.unit e.cell (es.map (fun x => x.unit)) (onMedia (fun m => { m with erases := m.erases.map (fun q =>
    if (e :: es).any (fun x => x.id = q.id) then { q with run := { q.run with issued := true } } else q) }) s)

/-- A program or an erase issued, with those on other planes that go out with it. -/
def issueOp (w : Waiting) (s : State) : State := match w with
  | .erase e => issueErases e ((mates s w).filterMap (fun x => match x with
      | .erase y => some y
      | .prog _ => none)) s
  | .prog p => issueProgs p ((mates s w).filterMap (fun x => match x with
      | .prog y => some y
      | .erase _ => none)) s

/-- A page read issued: the hard read, or the two reads of its ladder level (07 R206). -/
def issueRead (r : NRead) (s : State) : State :=
  let s := onMedia (fun m => { m with reads := m.reads.map (fun q => if q.rid = r.rid then { q with issued := true } else q) }) s
  if r.level = 0 then busRead r.unit r.page 0 s else ladderReads r.unit r.page r.level s

/-- The suspended operation of a die resumed (07 R202). -/
def resumeDie (die : Nat) (s : State) : State :=
  let e := (eraseOn s die).isSome
  onBus (die * 16384) (playAt s (die * 16384) 1 true []) (wTemplate s (fun w => if e then w.tEres else w.tPres))
    (setRun die (fun r => { r with suspended := false }) s)

/-- Whether the suspended operation of a die has been suspended for 2 ms in total (07 R202). -/
def dieOverdue (s : State) (die : Nat) : Bool := match runOn s die with
  | some r => r.overdue
  | none => false

/-- Whether a channel takes operations: it runs, or its unit is on a target that is not usable, whose reads are answered without the bus (07 R190,
R209). -/
def dieOpen (s : State) (die : Nat) : Bool := (chan s (dieCh die)).state = 3 || !unitUsable s (die * 16384)

/-- What a die takes next, issued: while its operation is suspended only reads, then the operation is resumed (07 R202); otherwise reads before
programs and erases (07 R200); a target that is not usable takes none of these (07 R209). -/
def pumpDie (s : State) (die : Nat) : State :=
  if dieBusy s die || !dieOpen s die then s
  else match readNext s die with
    | some r => if dieHeld s die && dieOverdue s die then resumeDie die s else issueRead r s
    | none =>
      if dieHeld s die then resumeDie die s
      else if !mayIssue s || !unitUsable s (die * 16384) then s
      else match opNext s die with
        | some w => issueOp w s
        | none => s

/-- Every die that an erase waits for: what a durable record lets go on (05 R132). -/
def pumpErases (s : State) : State := (distinct (s.media.erases.map (fun e => unitDie e.unit))).foldl pumpDie s

/-- Whether a die is idle: nothing runs there or is suspended, and nothing of a class before the last waits for it, so that a rewrite, patrol or fid
read may be issued (07 R200). -/
def dieIdle (s : State) (die : Nat) : Bool :=
  !dieBusy s die && dieOpen s die && !dieHeld s die && (readNext s die).isNone && (!mayIssue s || (opNext s die).isNone)

/-- Whether the dies of some units are idle; a unit on a target that is not usable is rebuilt from its row, and needs none. -/
def unitsIdle (s : State) (us : List Nat) : Bool := us.all (fun u => !unitUsable s u || dieIdle s (unitDie u))

/-! ### Queueing -/

/-- An erase of a unit queued for its die, once a record is durable, and what the unit becomes with it (05 R132, 08 R216). -/
def queueErase (cell unit after : Nat) (use : UnitUse) (s : State) : State :=
  let (id, s) := newKey s
  pumpDie (onMedia (fun m => { m with erases := m.erases ++
    [{ id := id, unit := unit, cell := cell, after := after, use := use, run := run0 }] }) s) (unitDie unit)

/-- A page program queued for its die. -/
def queueProg (set row unit : Nat) (slots : List Slot) (items : List PItem) (header : Option (Header × UnitUse)) (s : State) : State :=
  let (id, s) := newKey s
  pumpDie (onMedia (fun m => { m with progs := m.progs ++
    [{ id := id, set := set, row := row, ch := unitCh unit, unit := unit, slots := slots, items := items, header := header, run := run0 }] }) s)
    (unitDie unit)

/-- The whipping header of a unit, for what the unit becomes, as it stands now (08 R220). -/
def headerFor (s : State) (unit : Nat) (u : UnitUse) : Header :=
  let pe := match unitBy s unit with
    | some x => x.pe
    | none => 0
  mkHeader s u.role u.cell unit pe u.set ((layoutBy s u.layout).getD (layout0 s)) u.d u.createGseq u.members u.partner

/-- The header program of an erased unit queued (08 R215, R216). -/
def queueHeader (unit : Nat) (u : UnitUse) (s : State) : State :=
  queueProg Config.noSet 0 unit [] [] (some (headerFor s unit u, u)) s

/-- Suspended erases abandoned as a flush or a thermal shutdown begins (07 R202). -/
def abandonSuspended (s : State) : State := onMedia (fun m => { m with erases := m.erases.filter (fun e => !e.run.suspended) }) s

/-! ### What a relocation reads -/

/-- The unit and the physical page of a media block. -/
def pageAt (s : State) (a : MAddr) : Option (Nat × Nat) :=
  (setBy s a.set).bind (fun e =>
    let (ch, row, _) := placeOf s e a.block
    (nth e.members ch none).map (fun u => (u, row + 1)))

/-- The pages that hold some blocks, each once. -/
def pagesFor (s : State) (olds : List (Option MAddr)) : List (Nat × Nat) :=
  (olds.filterMap (fun o => o.bind (pageAt s))).foldl (fun l p => if l.contains p then l else l ++ [p]) []

/-- Whether blocks can be read now: every die that holds one is idle (07 R199, R200; log entry 68). -/
def sourcesIdle (s : State) (olds : List (Option MAddr)) : Bool := unitsIdle s ((pagesFor s olds).map (fun p => p.1))

/-- The levels of the ladder that the reads of a page climbed. -/
def climbed (soft : List SoftRead) (p : Nat × Nat) : List Nat :=
  (List.range 3).filter (fun l => soft.any (fun x => x.unit = p.1 && x.page = p.2 && x.level > l))

/-- The pages that hold some blocks, read: the hard read, and the ladder where the codewords of a page needed it (07 R200, R206; log entry 68). -/
def readPages (soft : List SoftRead) (olds : List (Option MAddr)) (s : State) : State :=
  (pagesFor s olds).foldl (fun s p => (climbed soft p).foldl (fun s l => ladderReads p.1 p.2 (l + 1) s) (busRead p.1 p.2 0 s)) s

/-- What follows from the codewords of a relocation that needed the ladder: they are counted, and their unit is due a rewrite and a fid (07 R206,
R207). -/
def softOutcome (s : State) (x : SoftRead) : State :=
  let s := if x.level > 3 then (List.range x.words).foldl (fun s _ => unrecovered s) s else countSoft x.level x.words s
  scheduleRewrite x.unit 2 (softNeeded x.unit s)

end Sys2Proof.Machine
end

