-- ==== Sys2Proof/Machine/Sets.lean ====
section
/-! DEFINITION. Braid sets: retiring units and the capacity check (06 R178, R179, R181), filling page rows (10 R277), closing and forming sets (06
R151, R159, R176, 08 R216), and a set of which a member fails to program (06 R179). -/

namespace Sys2Proof.Machine

open Sys2Proof

/-! ### Retiring units -/

/-- Native capacity below the required figure: ERROR 5.8, every namespace write-protected (06 R181). -/
def checkCapacity (s : State) : State :=
  if s.map.capWp || s.map.state ≠ 3 || nativeNow s ≥ nativeNeed s then s
  else
    let s := raise 5 8 0 0 (onMap (fun m => { m with capWp := true }) s)
    s.prm.namespaces.foldl (fun s n => note (.nsState n.nsid 1) s) s

/-- A unit retired, for good, with the NOTICE of an erase failure, 5.4, or of a program failure, 5.5 (06 R178, R179; log entry 69). -/
def retire (bit_ addr : Nat) (s : State) : State :=
  checkCapacity (raise 5 bit_ 0 0 (setUnit addr (fun u => { u with state := 5 })
    (onMedia (fun m => { m with retired := insNat m.retired addr }) s)))

/-! ### Filling page rows -/

/-- The Bromin slot of a data block (08 R229). -/
def dataSlot (s : State) (nsid lba gseq : Nat) (lay : Nat) (set block : Nat) (lost zf rep : Bool) (b : Blk) : Slot :=
  let hm := nsMeta s nsid
  { nsid := nsid, kind := 0, lost := lost, zeroFill := zf, replayed := rep, spill := false, hostMeta := hm,
    layout := lay, lba := lba, gseq := gseq, check := blockCheck nsid lba hm b, set := set, block := block, blk := b }

/-- An EMPTY slot (08 R231). -/
def emptySlot (lay set : Nat) : Slot :=
  { nsid := 0, kind := 7, lost := false, zeroFill := false, replayed := false, spill := false, hostMeta := false,
    layout := lay, lba := 0, gseq := 0, check := blockCheck 0 0 false zeroBlk, set := set, block := 0, blk := zeroBlk }

/-- The highest GSEQ of a page row's data slots (08 R229). -/
def rowGseq (data : List Slot) : Nat := data.foldl (fun g x => max g x.gseq) 0

/-- A parity slot of a row, with the row's highest GSEQ (08 R229, R231, 10 R276). -/
def paritySlot (q : Bool) (lay set row gseq : Nat) (xs : List Slot) : Slot :=
  let b := parityBlk (b2n q) (xs.map (fun x => x.blk))
  { nsid := 0, kind := if q then 6 else 5, lost := false, zeroFill := false, replayed := false, spill := false,
    hostMeta := true, layout := lay, lba := row, gseq := gseq,
    check := blockCheck 0 0 true b, set := set, block := 0, blk := b }

/-- The slots of one member's page in a complete row: data slots of data member d, parity, a mirror's copy, or EMPTY
(10 R273, R274, R276). The row's data slots come in block order: S for each data member. -/
def memberPage (s : State) (e : SetE) (row idx : Nat) (data : List Slot) : List Slot :=
  let S := slotsPerPage s
  let loc := localOf s e
  let n := (setChans e).length
  let page (d : Nat) := (data.drop (d * S)).take S
  let rowOf (k : Nat) := (List.range e.d).map (fun d => nth data (d * S + k) (emptySlot e.layout e.idx))
  if ways loc = 0 then
    if idx = row % n then (List.range S).map (fun k => paritySlot false e.layout e.idx row (rowGseq data) (rowOf k))
    else if loc = 2 ∧ idx = (row + 1) % n then
      (List.range S).map (fun k => paritySlot true e.layout e.idx row (rowGseq data) (rowOf k))
    else page (((dataIdx loc n row).findIdx? (fun i => i = idx)).getD 0)
  else if idx < ways loc * e.d then page (idx % max e.d 1)
  else List.replicate S (emptySlot e.layout e.idx)

/-- Whether a member's page in a row carries the data members' own slots (not parity, not a further copy). -/
def isDataPage (s : State) (e : SetE) (row idx : Nat) : Option Nat :=
  (dataIdx (localOf s e) (setChans e).length row).findIdx? (fun i => i = idx)

/-- The programs of one page row, one on every member, queued (10 R277). -/
def programRow (idx row : Nat) (full : List (Slot × Option PItem)) (s : State) : State :=
  match setBy s idx with
  | none => s
  | some e =>
    let S := slotsPerPage s
    let chs := setChans e
    chs.zipIdx.foldl (fun s ci =>
      let page := memberPage s e row ci.2 (full.map (fun f => f.1))
      let items := match isDataPage s e row ci.2 with
        | some d => ((full.drop (d * S)).take S).filterMap (fun f => f.2)
        | none => []
      queueProg idx row ((nth e.members ci.1 none).getD 0) page items none s) s

/-- Every complete row of a set's row buffer handed to the dies. -/
def flushRows (idx : Nat) : Nat → State → State
  | 0, s => s
  | fuel + 1, s =>
    match setBy s idx with
    | none => s
    | some e =>
      let w := e.d * slotsPerPage s
      if w = 0 ∨ e.row.length < w then s
      else
        let row := (e.fill - e.row.length) / w
        flushRows idx fuel (setSet idx (fun e => { e with row := e.row.drop w }) (programRow idx row (e.row.take w) s))

/-- One data slot appended to a set. -/
def appendSlot (idx : Nat) (sl : Slot) (i : Option PItem) (s : State) : State :=
  setSet idx (fun e => { e with row := e.row ++ [(sl, i)], fill := e.fill + 1 }) s

/-- EMPTY slots appended. -/
def padSet (idx n : Nat) (s : State) : State :=
  match setBy s idx with
  | none => s
  | some e => (List.range n).foldl (fun s _ => appendSlot idx (emptySlot e.layout idx) none s) s

/-- A set closed: its last row is filled up with EMPTY slots and programmed, and a UNIT record with STATE 1 is written
(06 R159, 10 R277). -/
def closeSet (idx : Nat) (s : State) : State :=
  match setBy s idx with
  | none => s
  | some e =>
    if e.state ≠ 1 then s
    else
      let w := e.d * slotsPerPage s
      let s := if e.row.length % (max w 1) = 0 then s else padSet idx (w - e.row.length % w) s
      let s := flushRows idx (e.fill + 1) s
      let s := setSet idx (fun e => { e with state := 2, closeGseq := s.hx.gseq }) s
      note (.unit true idx (if e.mode = 0 then 2 else 1) 1) s

/-! ### Forming sets (06 R151, R159, R176) -/

/-- A record that carries no data, and its record number. -/
def noteNo (b : JBody) (s : State) : Nat × State := journal (jrec s.hx.gseq b) s

/-- The layouts in use: that of each namespace, and the new one of each splice (06 R159). -/
def layoutsInUse (s : State) : List Nat :=
  distinct (s.prm.namespaces.map (fun n => (nsLayout s n.nsid).id) ++ s.braid.splices.map (fun p => p.new) ++ s.braid.reserves.map (fun r => r.new))

/-- Open sets of a layout that is no longer in use, closed (06 R159). -/
def closeUnused (s : State) : State :=
  (s.map.sets.filter (fun e => e.state = 1 && e.role ≠ 4 && !has (layoutsInUse s) e.layout)).foldl (fun s e => closeSet e.idx s) s

/-- Whether another set may be open: four for each layout in use, 144 at most, and 16 more that are kept for replay units (06 R159). -/
def mayOpen (s : State) (role : Nat) : Bool :=
  if role = 4 then (s.map.sets.filter (fun e => e.state = 1 && e.role = 4)).length < 16
  else (s.map.sets.filter (fun e => e.state = 1 && e.role ≠ 4)).length < 144

/-- What a unit becomes as a member of a set. -/
def setUse (i mode layout d createGseq : Nat) (members : List (Option Nat)) : UnitUse :=
  { state := 1, role := if mode = 0 then 2 else 1, cell := mode, set := some i, layout := layout, d := d, createGseq := createGseq,
    members := members, partner := none }

/-- What a unit becomes that returns to the free pool: WHIPPING_ONLY (08 R216). -/
def freeUse (s : State) : UnitUse :=
  { state := 0, role := 6, cell := 0, set := none, layout := (layout0 s).id, d := 0, createGseq := s.hx.gseq, members := [], partner := none }

/-- A new braid set: a UNIT record with STATE 0, one free unit on each healthy channel, and once that record is durable their erases and headers (05
R132, 06 R151, R159, R176, R185, 08 R216). None where some healthy channel has no free unit, or no index is left. -/
def openSet (mode role layout : Nat) (pool worn : Bool) (s : State) : Option (Nat × State) :=
  let s := closeUnused s
  let lay := (layoutBy s layout).getD (layout0 s)
  let members := (List.range 16).map (fun c => if healthy s c then chooseUnit s worn c else none)
  let n := (members.filter Option.isSome).length
  let used := s.map.sets.map (fun e => e.idx)
  let idx := if pool then freeIndex used Config.poolSets 0 else freeIndex used Config.setIndices Config.poolSets
  let complete := (List.range 16).all (fun c => !healthy s c || (nth members c none).isSome)
  match idx with
  | none => none
  | some i =>
    if n = 0 ∨ !complete ∨ (i ≥ Config.setIndices) ∨ !mayOpen s role then none
    else
      let d := dataCount lay.loc n
      let e : SetE :=
        { idx := i, members := members, mode := mode, state := 1, role := role, layout := layout, d := d,
          closeGseq := 0, createGseq := s.hx.gseq, fill := 0, row := [], failed := [], rebuild := false,
          released := false, erased := [] }
      let (r, s) := noteNo (.unit true i (if mode = 0 then 2 else 1) 0) s
      let us := members.filterMap id
      let s := onMap (fun m => { m with
        sets := sortBy (fun e => e.idx) (e :: m.sets),
        units := m.units.map (fun u => if has us u.addr then { u with state := 1 } else u) }) s
      some (i, us.foldl (fun s a => queueErase mode a r (setUse i mode layout d e.createGseq members) s) s)

/-- The open set of a role and layout. -/
def openFor (s : State) (role layout : Nat) : Option SetE :=
  s.map.sets.find? (fun e => e.state = 1 ∧ e.role = role ∧ e.layout = layout)

/-- Room for n blocks, in a hank slot or not: the first block number that the set would take. -/
def roomAt (s : State) (e : SetE) (n : Nat) (slot : Bool) : Option Nat :=
  let b := if slot then 32 * ceilDiv e.fill 32 else e.fill
  if b + n ≤ setCap s e then some b else none

/-- A set of a role with room for n blocks: the open one, else a new one after closing it. -/
def setWithRoom (mode role layout n : Nat) (slot pool worn : Bool) (s : State) : Option (Nat × Nat × State) :=
  match openFor s role layout with
  | some e =>
    (match roomAt s e n slot with
     | some b => some (e.idx, b, s)
     | none => match openSet mode role layout pool worn (closeSet e.idx s) with
       | some (i, s) => some (i, 0, s)
       | none => none)
  | none => match openSet mode role layout pool worn s with
    | some (i, s) => some (i, 0, s)
    | none => none

/-- The pages of a unit with one more. -/
def addPage (unit page : Nat) (sl : List Slot) (s : State) : State :=
  match nandUnit s unit with
  | some n => putNand { n with pages := kvPut n.pages page sl } s
  | none => s

/-! ### Programs that fail (06 R179) -/

/-- Extents among what a program carries. -/
def itemExt (i : PItem) : Option Nat := match i with
  | .ext x _ => some x
  | .move .. => none

/-- Whether an item belongs to the placing of an extent on a hank: one of its blocks, or a block that moves with it. -/
def itemOf (s : State) (id h : Nat) (i : PItem) : Bool := match i with
  | .ext x _ => x = id
  | .move n l k _ _ => moveHank s n l k = h

/-- An extent whose program failed, to be placed again in another set: its tokens stay in flight to media (01 R27, 06 R179), and EXTENT_PLACEMENT
hands its blocks to the channels again. -/
def unplace (s : State) (id : Nat) : State :=
  match extBy s id with
  | none => s
  | some e =>
    let h := hankOf s e.nsid e.slba
    setExt id (fun e => { e with blks := e.blks.map (fun b => { b with place := none, ok := false }) })
      (onMedia (fun m => { m with progs := m.progs.map (fun p => { p with items := p.items.filter (fun i => !itemOf s id h i) }) }) s)

/-- A set of which a member can take no more programs: it is closed at once, and what its row buffer and that member's queue held is placed elsewhere;
where the member failed to program, the set is to be evacuated (06 R179), where its target failed, rebuilt (07 R209, 10 R279). -/
def failSet (idx unit : Nat) (items : List PItem) (failed : Bool) (s : State) : State :=
  match setBy s idx with
  | none => s
  | some e =>
    let gone (p : Prog) : Bool := p.set = idx && p.unit = unit && !p.run.issued
    let ids := (items ++ (s.media.progs.filter gone).flatMap (fun p => p.items) ++ e.row.filterMap (fun x => x.2)).filterMap itemExt
    let wasOpen := e.state = 1
    let s := onMedia (fun m => { m with progs := m.progs.filter (fun p => !gone p) }) s
    let s := setSet idx (fun e =>
      { e with state := if e.state = 1 then 2 else e.state, closeGseq := if wasOpen then s.hx.gseq else e.closeGseq,
               fill := e.fill - e.row.length, row := [], failed := if failed then insNat e.failed unit else e.failed }) s
    let s := if wasOpen then note (.unit true idx (if e.mode = 0 then 2 else 1) 1) s else s
    let s := if failed then onMap (fun m => { m with evac := insNat m.evac idx }) s else s
    (ids.foldl insNat []).foldl unplace s

/-- A page program of a set that failed. -/
def programFailed (p : Prog) (s : State) : State := failSet p.set p.unit p.items true s

end Sys2Proof.Machine
end

