-- ==== Sys2Proof/Machine/Extents.lean ====
section
/-! DEFINITION. What follows from the progress of extents: when a command completes (01 R26, 04 R111), when an extent's
COMPLETION record is written (01 R28, 06 R166), deferred errors (04 R114), and the heat counter (06 R157, R161). -/

namespace Sys2Proof.Machine

open Sys2Proof

/-! ### Commands and their extents -/

/-- Whether an extent is a host's. -/
def isHostExt (e : Extent) : Bool := match e.origin with
  | .host _ => true
  | .dropped => true
  | _ => false

/-- Whether an extent belongs to a command. -/
def ofCmd (key : Nat) (e : Extent) : Bool := match e.origin with
  | .host k => k = key
  | _ => false

/-- Whether some change of a hank is under way: blocks placed and not yet covered, or a MAP_UPDATE of it not yet durable (06
R166, log entry 20). -/
def hankBusy (s : State) (h : Nat) (but : Nat) : Bool :=
  let moves : PItem → Bool := fun i => match i with
    | .move n l k _ _ => moveHank s n l k = h
    | .ext .. => false
  s.exts.any (fun e => e.id ≠ but && hankOf s e.nsid e.slba = h && (e.blks.any (fun b => b.place.isSome) || e.compRec.isSome)) ||
  s.media.progs.any (fun p => p.items.any moves) ||
  s.map.sets.any (fun e => e.row.any (fun x => match x.2 with
    | some i => moves i
    | none => false)) ||
  (ahead s).any (fun r => match r.body with
    | .mapUpdate n l _ k _ _ => moveHank s n l k = h
    | _ => false)

/-- Hanks that are to take a strand group once the blocks placed for them are covered (06 R156, R160). -/
def groupsPromised (s : State) : Nat :=
  (distinct ((s.exts.filter (fun e => e.nlb1 < 31 && !e.zero && e.blks.any (fun b => b.place.isSome))).map (fun e => hankOf s e.nsid e.slba) |>.filter
    (fun h => match kvGet s.map.hanks h with
      | none => true
      | some (.moving _) => true
      | _ => false))).length

/-- Whether a strand group can be taken: one is free that is not promised (06 R156, R165). -/
def groupToHave (s : State) : Bool := groupsFree s > groupsPromised s

/-- The untouched blocks of a promoted hank that may not stay where they are: those outside the pool sets, and the block that a
strand cannot name (06 R156, R162). -/
def toCopy (s : State) (e : Extent) : List Nat :=
  let bs := hankBlocks s (hankOf s e.nsid e.slba)
  (List.range 32).filter (fun i =>
    (i < e.slba % 32 || e.slba % 32 + e.nlb1 < i) && (match nth bs i none with
      | some a => !strandable a
      | none => false))

/-- Whether a deallocation's hank is as R182 needs it: no change of it is under way, and where part of a hank in hank form is covered, a group is to be
had and no uncovered block lies where it may not stay (06 R166, R182). -/
def deallocReady (s : State) (e : Extent) : Bool :=
  let h := hankOf s e.nsid e.slba
  let form : Bool := match kvGet s.map.hanks h with
    | some (.slot _ _) => groupToHave s && (toCopy s e).isEmpty
    | some (.moving _) => groupToHave s && (toCopy s e).isEmpty
    | _ => true
  !hankBusy s h e.id && (e.nlb1 = 31 || form)

/-- Whether part of an extent's hank is still to be programmed with it: the rest of a merged or zero-filled hank (06 R163, R165). -/
def hankOpen (s : State) (e : Extent) : Bool :=
  let h := hankOf s e.nsid e.slba
  let rest : PItem → Bool := fun i => match i with
    | .move n l k _ _ => (k = .merge || k = .zeroFill) && moveHank s n l k = h
    | .ext .. => false
  s.media.progs.any (fun p => p.items.any rest) || s.map.sets.any (fun x => x.row.any (fun y => match y.2 with
    | some i => rest i
    | none => false))

/-- Whether what an extent writes is on the medium: every block has a successful program status, with it the rest of a hank that is merged or zero-filled
(06 R163, R165); a deallocation has no block to program unless it is written by zero-fill. -/
def programmed (s : State) (e : Extent) : Bool :=
  if e.mode.dealloc && !e.zero then e.compRec.isSome || deallocReady s e
  else e.blks.all (fun b => b.ok) && !hankOpen s e

/-- Medium state: the extent is on the medium, and every mirror peer has acknowledged (01 R26, 04 R111). -/
def mediumDone (s : State) (e : Extent) : Bool := e.durable && e.waitOn.isEmpty && programmed s e

/-- Whether a write may complete: its intent records durable and, in medium acknowledgement, its extents in medium state
(01 R25, R26). An extent that is gone has ended. -/
def writeDone (s : State) (c : HostCmd) : Bool :=
  (s.exts.filter (ofCmd c.key)).all (fun e => e.durable && (c.buffered || mediumDone s e))

/-- Whether a namespace identifier of a command names a namespace. -/
def covers (nsid n : Nat) : Bool := nsid = n || nsid = 0xFFFFFFFF

/-- Whether a command is a fused pair whose Compare has not ended. -/
def isFused (c : HostCmd) : Bool := match c.kind with
  | .fused .. => true
  | _ => false

/-- Whether a Flush may complete (04 R111): no earlier write is short of medium state, and the Write of no earlier fused pair is still to be decided. -/
def flushDone (s : State) (c : HostCmd) : Bool :=
  (s.exts.filter (fun e => isHostExt e && covers c.nsid e.nsid && e.gseq < c.gseq)).all (mediumDone s) &&
  !s.cmds.any (fun d => isFused d && covers c.nsid d.nsid && d.gseq < c.gseq)

/-- One outstanding command completed if nothing is left to wait for. -/
def settleCmd (s : State) (key : Nat) : State :=
  match cmdBy s key with
  | none => s
  | some c => match c.kind with
    | .write => if writeDone s c then finish c 0 0 0 s else s
    | .writeZeroes => if writeDone s c then finish c 0 0 0 s else s
    | .dsm => if writeDone s c then finish c 0 0 0 s else s
    | .flush => if flushDone s c then finish c 0 0 0 s else s
    | _ => s

/-- Every outstanding command that is done, completed. -/
def settleCmds (s : State) : State := (s.cmds.map (fun c => c.key)).foldl settleCmd s

/-! ### COMPLETION records -/

/-- Whether two extents share a block. -/
def shares (e f : Extent) : Bool :=
  e.nsid = f.nsid && e.slba ≤ f.slba + f.nlb1 && f.slba ≤ e.slba + e.nlb1

/-- Whether some earlier extent that shares a block has no COMPLETION record yet (06 R166). -/
def behindEarlier (s : State) (e : Extent) : Bool :=
  s.exts.any (fun f => f.gseq < e.gseq && shares e f && f.compRec.isNone)

/-- Whether the last token of an extent has reached the point where it would return to free (01 R28). -/
def readyToClose (s : State) (e : Extent) : Bool :=
  e.compRec.isNone && mediumDone s e && e.builders.isEmpty && !behindEarlier s e

/-- The media address that a COMPLETION names: that of the first block. -/
def firstPlace (e : Extent) : Option MAddr := match e.blks.head? with
  | some b => b.place
  | none => none

/-- A COMPLETION record of an extent. -/
def completionRec (s : State) (e : Extent) (o : Outcome) : JRec :=
  { recno := 0, gseq := e.gseq, carried := false, replayed := match e.origin with
      | .replay => true
      | _ => false,
    ctrl2 := (match e.origin with
      | .host _ => e.port = .b && dualPort s
      | _ => false),
    body := .completion e.nsid e.slba e.nlb1 e.ext o e.acked e.layout (firstPlace e) }

/-- An extent's COMPLETION record written (01 R28). -/
def closeExt (o : Outcome) (s : State) (e : Extent) : State :=
  let (n, s) := journal (completionRec s e o) s
  setExt e.id (fun e => { e with compRec := some n }) s

/-- The outcome of an extent in the ordinary course. -/
def usualOutcome (e : Extent) : Outcome := if e.mode.dealloc && !e.zero then .deallocated else .placed

/-- COMPLETION records of every extent that is ready, in ascending GSEQ (06 R166). -/
def closeReady (s : State) : State :=
  (sortBy (fun e => e.gseq) s.exts).foldl (fun s e =>
    match extBy s e.id with
    | some x => if readyToClose s x then closeExt (usualOutcome x) s x else s
    | none => s) s

/-- Everything that can follow from an extent's progress. -/
def settle (s : State) : State := settleCmds (closeReady s)

/-! ### Deferred errors -/

/-- The DEFERRED record of a run of an extent, with REPLAYED where replay writes it (04 R114, 05 R129, R130). -/
def deferRun (replayed : Bool) (nsid slba nlb cause ext gseq : Nat) (s : State) : State :=
  (journal { jrec gseq (.deferred nsid slba nlb cause true (dualPort s) ext s.dev.secs) with replayed := replayed } s).2

/-- A deferred error on one controller: its entry in C1h, DROPPED when the log is full, and the pending mark (04 R114, R117). -/
def deferOn (x : C1Entry) (p : Port) (s : State) : State :=
  setCtl p (fun c =>
    if c.c1.length < 256 then { c with c1 := c.c1 ++ [x], pend := insNat c.pend x.nsid }
    else { c with dropped := inc 32 c.dropped, pend := insNat c.pend x.nsid }) s

/-- The asynchronous event of a deferred error (04 R114). -/
def deferAen : Aen := { type := 7, info := 0x81, log := 0xC1 }

/-- What a durable DEFERRED record does (04 R114). -/
def deferDurable (r : JRec) (nsid slba nlb cause : Nat) (c1 c2 : Bool) (seconds : Nat) (s : State) : State :=
  let x : C1Entry := { nsid := nsid, cause := cause, nlb := nlb, slba := slba, seq := r.gseq, seconds := seconds,
                       recno := r.recno, stamp := s.hx.stamp + 1 }
  let s := if c1 then deferOn x .a s else s
  let s := if c2 then deferOn x .b s else s
  let s := raise 4 8 nsid (slba % 2 ^ 32) s
  if outwardOpen s then
    (if c2 then postAen .b deferAen else id) ((if c1 then postAen .a deferAen else id) s)
  else s

/-- Whether R115 refuses an I/O command of a controller with an arrival stamp. -/
def heldBack (c : Ctl) (nsid stamp : Nat) : Bool :=
  has c.pend nsid &&
  (let es := c.c1.filter (fun x => x.nsid = nsid)
   es.isEmpty || es.any (fun x => x.stamp ≤ stamp))

/-! ### Checks that fail at a hand-off (01 R29) -/

/-- Whether the host has been told that the write of an extent is complete. -/
def acknowledged (s : State) (e : Extent) : Bool := match e.origin with
  | .host k => (match cmdBy s k with
    | some _ => false
    | none => true)
  | .dropped => false
  | _ => false

/-- Extents of a command whose INTENT record is not durable, dropped: their tokens are free at once (01 R27). -/
def dropUnjournaled (key : Nat) (s : State) : State :=
  onExts (fun es => (es.filter (fun e => !ofCmd key e || e.durable)).map
    (fun e => if ofCmd key e then { e with origin := .dropped } else e)) s

/-- A command ended by Data Transfer Error, 0h/04h, with ERROR g.7 (01 R29, 15 R415). -/
def transferError (key : Nat) (s : State) : State :=
  match cmdBy s key with
  | none => s
  | some c => dropUnjournaled key (raise (hostGroup c.port) 7 0 0 (finish c 0 4 0 s))

/-- The answer that a peer awaits once its extent's COMPLETION is durable (10 R281, R285, R293, R304; STATUS by 09
R243); blocks copied by one message are answered together. -/
def answerPeer (e : Extent) (st : Nat) (s : State) : State :=
  let hd (tag : Nat) : Head :=
    { tag := tag, nsid := e.nsid, slba := e.slba, gseq := e.gseq, nlb1 := e.nlb1, ext := e.ext, layout := e.layout }
  match e.origin with
  | .mirror p l tag => sendMsg p l { op := 0x11, status := st, head := hd tag, arg := 0, body := .none } s
  | .longData p l tag => sendMsg p l { op := 0x22, status := st, head := hd tag, arg := 0, body := .none } s
  | .longParity p l tag => sendMsg p l { op := 0x22, status := st, head := hd tag, arg := 0, body := .none } s
  | .copy p l tag _ =>
    if s.exts.any (fun x => x.id ≠ e.id && x.origin = e.origin) ∧ st = 0 then s
    else sendMsg p l { op := 0x26, status := st, head := hd tag, arg := 0, body := .none } s
  | _ => s

/-- A check that fails at the journal hand-off: no record names the extent, so its tokens are free at once (01 R27, R29). -/
def journalCheckFailed (e : Extent) (s : State) : State :=
  let s := match e.origin with
    | .host k => transferError k s
    | _ => answerPeer e 5 s
  onExts (fun es => es.filter (fun x => x.id ≠ e.id)) s

/-- A check that fails after the INTENT record at a hand-off of 01 R29, counted from 0: a completed write is a dangerous
failure, DANGER 15.4 (14, detail codes); otherwise the command ends with 0h/04h and the old content stands, COMPLETION
ABANDONED (log entry 19). -/
def mediaCheckFailed (handOff : Nat) (e : Extent) (s : State) : State :=
  if acknowledged s e then danger 15 4 handOff s
  else
    let s := match e.origin with
      | .host k => transferError k s
      | _ => s
    match extBy s e.id with
    | some x => if x.compRec.isNone then
        setExt x.id (fun x => { x with stopped := true })
          (closeExt .abandoned s { x with blks := x.blks.map (fun b => { b with place := none }) })
      else s
    | none => s

/-! ### Heat (06 R157, R161) -/

/-- The epoch. -/
def epoch (s : State) : Nat := s.hx.gseq / 2 ^ 24

/-- A hank's counter, decayed to the current epoch. -/
def heat (s : State) (h : Nat) : Nat :=
  match kvGet s.map.heat h with
  | some (c, e) => c / 2 ^ ((epoch s + 8 - e) % 8)
  | none => 0

/-- A hank's counter written with the current epoch. -/
def setHeat (h c : Nat) (s : State) : State :=
  onMap (fun m => { m with heat := if c = 0 then kvDel m.heat h else kvPut m.heat h (c, epoch s % 8) }) s

/-- Whether a hank has a mapped block. -/
def hankMapped (s : State) (h : Nat) : Bool := (hankBlocks s h).any Option.isSome

/-- One more extent written to a hank: its counter rises if the hank already has a mapped block (06 R161). -/
def warm (h : Nat) (s : State) : State :=
  if hankMapped s h then setHeat h (min 31 (heat s h + 1)) s else s

end Sys2Proof.Machine
end

