-- ==== Sys2Proof/Machine/Placement.lean ====
section
/-! DEFINITION. Placing a journaled extent by the form of its hank (06 R160 to R168, R182), copying the blocks of a hank, and the command
EXTENT_PLACEMENT. -/

namespace Sys2Proof.Machine

open Sys2Proof

/-! ### Runs in a set -/

/-- A run of n blocks reserved in a set of a role: the set is padded to the run's first block (06 R152, R153). -/
def takeRun (mode role layout n : Nat) (slot pool worn : Bool) (s : State) : Option (Nat × Nat × State) :=
  match setWithRoom mode role layout n slot pool worn s with
  | some (i, b, s) =>
    (match setBy s i with
     | some e => some (i, b, padSet i (b - e.fill) s)
     | none => none)
  | none => none

/-- The blocks of a run appended, each with what its program carries. -/
def appendRun (i : Nat) (xs : List (Slot × Option PItem)) (s : State) : State :=
  flushRows i (xs.length + 1) (xs.foldl (fun s x => appendSlot i x.1 x.2 s) s)

/-- Whether the SLC buffer has room for n blocks (06 R159, R170). -/
def slcRoom (s : State) (n : Nat) : Bool := slcUsed s + 4096 * n ≤ s.map.slc

/-- Where host writes go: the SLC host set while the SLC buffer has room, otherwise the native host set (06 R159). The mode,
the role, and whether it is a pool set. -/
def hankDest (s : State) (n : Nat) : Nat × Nat × Bool :=
  if slcRoom s n then (0, 0, true) else ((geo s).cell, 1, false)

/-- The open pool set: the SLC host set, or the hot set when the SLC buffer is full (06 R160). -/
def poolDest (s : State) (n : Nat) : Nat × Nat × Bool :=
  if slcRoom s n then (0, 0, true) else ((geo s).cell, 2, true)

/-! ### One placed run -/

/-- A block of an extent as it goes to the medium. -/
def extSlot (s : State) (e : Extent) (set block k : Nat) (x : XBlk) : Slot × Option PItem :=
  (dataSlot s e.nsid (e.slba + k) e.gseq e.layout set (block + k) x.lost false (match e.origin with
    | .replay => true
    | _ => false) (x.blk.getD zeroBlk), some (.ext e.id k))

/-- Whether the source of a copied block cannot be recovered (06 R168). -/
def gone (src : RelocReads) (old : Option MAddr) : Bool := match old with
  | some a => src.lost.contains a
  | none => false

/-- A block copied from its place in the map: content, GSEQ and flags travel with it; a block that cannot be recovered, now or before, holds zeros under
the lost flag (06 R168, 08 R231). -/
def copySlot (s : State) (nsid lba layout : Nat) (kind : MoveKind) (old : Option MAddr) (lost : Bool) (new : MAddr) :
    Slot × Option PItem :=
  match old.bind (slotAt s) with
  | some k =>
    (if k.lost || lost then
      { dataSlot s nsid lba k.gseq layout new.set new.block true false k.replayed zeroBlk with hostMeta := k.hostMeta, check := blockCheck nsid lba k.hostMeta zeroBlk }
     else { k with layout := layout, set := new.set, block := new.block, spill := false },
     some (.move nsid lba kind old new))
  | none =>
    ({ dataSlot s nsid lba 0 layout new.set new.block (lost || old.isSome) old.isNone false zeroBlk with gseq := 0 },
     some (.move nsid lba kind old new))

/-- The place of an extent's blocks noted. -/
def notePlaces (id set block : Nat) (s : State) : State :=
  setExt id (fun e => { e with blks := e.blks.zipIdx.map (fun x =>
    { x.1 with place := some { set := set, block := block + x.2 }, ok := false }) }) s

/-- A block lost during a relocation: counted, with ERROR 5.12 (06 R168). -/
def lostBlock (nsid lba : Nat) (s : State) : State :=
  raise 5 12 nsid (lba % 2 ^ 32) (onMap (fun m => { m with lostBlocks := inc 32 m.lostBlocks }) s)

/-- The 32 blocks of a hank written to a hank slot: the extent's own blocks and a copy of every other, which is read first (06 R163, R165). -/
def wholeHank (e : Extent) (kind : MoveKind) (src : RelocReads) (set block : Nat) (s : State) : State :=
  let h := hankOf s e.nsid e.slba
  let base := e.slba / 32 * 32
  let first := e.slba % 32
  let olds := hankBlocks s h
  let others := (List.range 32).filter (fun i => i < first ∨ first + e.nlb1 < i)
  let xs := (List.range 32).map (fun i =>
    let new : MAddr := { set := set, block := block + i }
    if first ≤ i ∧ i ≤ first + e.nlb1 then
      (match e.blks[i - first]? with
       | some x => (dataSlot s e.nsid (base + i) e.gseq e.layout set (block + i) x.lost e.zero false (x.blk.getD zeroBlk),
                    some (PItem.ext e.id (i - first)))
       | none => copySlot s e.nsid (base + i) e.layout kind (nth olds i none) false new)
    else copySlot s e.nsid (base + i) e.layout kind (nth olds i none) (gone src (nth olds i none)) new)
  let s := readPages src.soft (others.map (fun i => nth olds i none)) s
  let s := appendRun set xs (notePlaces e.id set (block + first) s)
  (others.filter (fun i => gone src (nth olds i none))).foldl (fun s i => lostBlock e.nsid (base + i) s) s

/-- The extent's blocks alone, as a run. -/
def ownBlocks (e : Extent) (set block : Nat) (s : State) : State :=
  appendRun set (e.blks.zipIdx.map (fun x => extSlot s e set block x.2 x.1)) (notePlaces e.id set block s)

/-! ### Copying the blocks of a hank -/

/-- The namespace of a logical hank and the LBA of its first block; hanks of a long braid hold LBAs by stripe (10 R283). -/
def hankBase (s : State) (h : Nat) : Option (Nat × Nat) :=
  (s.prm.namespaces.find? (fun n => nsFirst s n.nsid ≤ h ∧ h < nsFirst s n.nsid + nsHanks s n)).map
    (fun n => (n.nsid, 32 * (h - nsFirst s n.nsid)))

/-- The namespace and LBA of a mapped block: those of its slot's metadata, else by its hank (08 R229). -/
def nameAt (s : State) (h i : Nat) (a : MAddr) : Nat × Nat :=
  match slotAt s a with
  | some k => (k.nsid, k.lba)
  | none => match hankBase s h with
    | some (n, b) => (n, b + i)
    | none => (0, 0)

/-- The layout under which a hank's blocks are kept: that of its namespace, or its splice's new one (10 R292). -/
def hankLayout (s : State) (h nsid : Nat) : Nat :=
  if h ≥ spliceRun s then (newLayout s nsid).id else (nsLayout s nsid).id

/-- The kind of a relocation's MAP_UPDATE; the splice run is kept under kind 7 (10 R292). -/
def kindFor (s : State) (h : Nat) (k : MoveKind) : MoveKind := if h ≥ spliceRun s then .splice else k

/-- Places of a hank whose blocks meet a test. -/
def placesIn (s : State) (h : Nat) (p : MAddr → Bool) : List Nat :=
  (List.range 32).filter (fun i => match nth (hankBlocks s h) i none with
    | some a => p a
    | none => false)

/-- The namespace of a hank's first mapped block. -/
def hankNs (s : State) (h : Nat) : Nat :=
  match (placesIn s h (fun _ => true)).head? with
  | some i => (match nth (hankBlocks s h) i none with
    | some a => (nameAt s h i a).1
    | none => 0)
  | none => 0

/-- The name of the block at a place of a hank, mapped or not. -/
def nameOf (s : State) (h i : Nat) : Nat × Nat := match nth (hankBlocks s h) i none with
  | some a => nameAt s h i a
  | none => ((hankBase s h).getD (0, 0)).map id (fun b => b + i)

/-- Some blocks of a hank read and copied to a run of a set, each with its MAP_UPDATE; those that cannot be recovered are lost (06 R168). -/
def moveBlocks (h : Nat) (kind : MoveKind) (idxs : List Nat) (src : RelocReads) (layout set block : Nat) (s : State) : State :=
  let bs := hankBlocks s h
  let xs := idxs.zipIdx.map (fun x =>
    copySlot s (nameOf s h x.1).1 (nameOf s h x.1).2 layout (kindFor s h kind) (nth bs x.1 none) (gone src (nth bs x.1 none))
      { set := set, block := block + x.2 })
  let names := (idxs.filter (fun i => gone src (nth bs i none))).map (nameOf s h)
  names.foldl (fun s x => lostBlock x.1 x.2 s) (appendRun set xs (readPages src.soft (idxs.map (fun i => nth bs i none)) s))

/-- A hank's 32 blocks copied to a hank slot of a set (06 R164, R171, R173); none where no set can take them. -/
def copyHank (h : Nat) (kind : MoveKind) (mode role layout : Nat) (pool worn : Bool) (src : RelocReads) (s : State) : Option State :=
  (takeRun mode role layout 32 true pool worn s).map (fun r => moveBlocks h kind (List.range 32) src layout r.1 r.2.1 r.2.2)

/-- The layout of a hank's own namespace. -/
def layoutOfHank (s : State) (h : Nat) : Nat := hankLayout s h (hankNs s h)

/-- A demotion: a hank's blocks copied to a hank slot of the relocation set (06 R164); nothing is done where no set can take them. -/
def demoteHank (h : Nat) (src : RelocReads) (s : State) : State :=
  match copyHank h .demotion (geo s).cell 3 (layoutOfHank s h) false false src s with
  | some t => onMap (fun m => { m with demotions := inc 32 m.demotions }) t
  | none => s

/-- What follows from the codewords of some blocks that needed the ladder as they were copied (07 R206, R207). -/
def softAll (src : RelocReads) (olds : List (Option MAddr)) (s t : State) : State :=
  let ps := pagesFor s olds
  (src.soft.filter (fun x => ps.contains (x.unit, x.page))).foldl softOutcome t

/-! ### The forms of a placement -/

/-- A set closed after the extent, where Motur closes it. -/
def closeIf (close : Bool) (set : Nat) (s : State) : State := if close then closeSet set s else s

/-- Placement of an extent of all 32 blocks, in a free hank slot (06 R160). -/
def placeFull (e : Extent) (close : Bool) (s : State) : State :=
  let (mode, role, pool) := hankDest s 32
  match takeRun mode role e.layout 32 true pool false s with
  | some (i, b, s) => closeIf close i (ownBlocks e i b s)
  | none => s

/-- Placement of blocks as strands in the open pool set (06 R160). -/
def placeStrands (e : Extent) (close : Bool) (s : State) : State :=
  let n := e.nlb1 + 1
  let (mode, role, pool) := poolDest s n
  match takeRun mode role e.layout n false pool false s with
  | some (i, b, s) => closeIf close i (ownBlocks e i b s)
  | none => s

/-- Placement by zero-fill: the whole hank in hank form, with zeros for what the extent does not supply (06 R165). -/
def placeZeroFill (e : Extent) (close : Bool) (src : RelocReads) (s : State) : State :=
  let (mode, role, pool) := hankDest s 32
  match takeRun mode role e.layout 32 true pool false s with
  | some (i, b, s) =>
    raise 5 3 e.nsid (e.slba % 2 ^ 32) (onMap (fun m => { m with zeroFills := inc 32 m.zeroFills })
      (closeIf close i (wholeHank e .zeroFill src i b s)))
  | none => s

/-- A merge: all 32 blocks written to a free hank slot (06 R163). -/
def placeMerge (e : Extent) (close : Bool) (src : RelocReads) (s : State) : State :=
  let (mode, role, pool) := hankDest s 32
  match takeRun mode role e.layout 32 true pool false s with
  | some (i, b, s) =>
    onMap (fun m => { m with merges := inc 32 m.merges }) (closeIf close i (wholeHank e .merge src i b s))
  | none => s

/-- A promotion: the written blocks as strands, and with them the untouched blocks that may not stay (06 R162). -/
def placePromote (e : Extent) (close : Bool) (src : RelocReads) (s : State) : State :=
  let idxs := toCopy s e
  let n := e.nlb1 + 1 + idxs.length
  let (mode, role, pool) := poolDest s n
  match takeRun mode role e.layout n false pool false s with
  | some (i, b, s) =>
    onMap (fun m => { m with promotions := inc 32 m.promotions })
      (closeIf close i
        (moveBlocks (hankOf s e.nsid e.slba) .promotion idxs src e.layout i (b + e.nlb1 + 1) (ownBlocks e i b s)))
  | none => s

/-- Whether an open pool set has, or could get, room for n blocks. -/
def poolHasRoom (s : State) (layout n : Nat) : Bool :=
  let (mode, role, pool) := poolDest s n
  (takeRun mode role layout n false pool false s).isSome

/-- A partial extent on a hank in hank form: promoted, or else merged (06 R160, R162, R163). A promotion that only lack of
groups or of room prevents is declined with NOTICE 5.2. -/
def placeOnHank (e : Extent) (close : Bool) (src : RelocReads) (h : Nat) (s : State) : State :=
  let promoteT := match s.prm.mapping with
    | some m => m.promoteT
    | none => 31
  if heat s h > promoteT then
    if groupsFree s > Config.groupReserve ∧ poolHasRoom s e.layout (e.nlb1 + 1 + (toCopy s e).length) then
      placePromote e close src s
    else placeMerge e close src (raise 5 2 e.nsid (e.slba % 2 ^ 32) s)
  else placeMerge e close src s

/-- Whether a hank in strand form has all 32 blocks mapped, so that it could be demoted (06 R164). -/
def demotable (s : State) (h : Nat) : Bool := match kvGet s.map.hanks h with
  | some (.strand _) => (hankBlocks s h).all Option.isSome
  | _ => false

/-- The hanks whose groups could be demoted. -/
def demotables (s : State) : List Nat := (s.map.hanks.map (fun e => e.1)).filter (demotable s)

/-- The coldest hank that could be demoted (06 R165); of equally cold ones the lowest is taken: DESIGN CHOICE, the spec names none (log entry 71). -/
def coldest (s : State) : Option Nat := argMin (fun h => heat s h) (demotables s)

/-- A counter read: its decayed value is written back with the current epoch (06 R157). -/
def touchHeat (s : State) (h : Nat) : State := setHeat h (heat s h) s

/-- A demotion of the coldest group, to free it, unless a change of its hank is in flight already or its dies are not free; what needs the group waits
(06 R157, R165, R166). -/
def demoteColdest (h : Nat) (src : RelocReads) (s : State) : State :=
  let s := (demotables s).foldl touchHeat s
  if hankBusy s h 0 || !sourcesIdle s (hankBlocks s h) then s else demoteHank h src s

/-- A partial extent on an unmapped hank: strands while a group can be had; else the coldest demotable group is demoted and the
extent waits; else zero-fill (06 R160, R165). -/
def placeOnUnmapped (e : Extent) (close : Bool) (src : RelocReads) (s : State) : State :=
  if groupToHave s then placeStrands e close s
  else match coldest s with
    | some h => demoteColdest h src s
    | none => placeZeroFill e close src s

/-- The branch of R160 that an extent takes. A hank that a failed change left between records is merged where every block is mapped, and else takes strand
form (log entry 17). -/
def placeForm (e : Extent) (close : Bool) (src : RelocReads) (s : State) : State :=
  let h := hankOf s e.nsid e.slba
  if e.zero then placeZeroFill e close src s
  else if e.nlb1 = 31 then placeFull e close s
  else match kvGet s.map.hanks h with
    | none => placeOnUnmapped e close src s
    | some (.strand _) => placeStrands e close s
    | some (.slot _ _) => placeOnHank e close src h s
    | some (.moving bs) => if bs.all Option.isSome then placeMerge e close src s else placePromote e close src s
    | some .invalid => danger 5 21 0 s

/-- The hank's counter rises with an extent that writes data, and not with a deallocation (06 R161). -/
def warmFor (e : Extent) (s : State) : State := if e.mode.dealloc then s else warm (hankOf s e.nsid e.slba) s

/-- An extent placed; its hank's counter rises with it, and stays as it was while the extent still waits (06 R160, R161). -/
def placeExtent (e : Extent) (close : Bool) (src : RelocReads) (s : State) : State :=
  let t := placeForm e close src (warmFor e s)
  match extBy t e.id with
  | some x => if x.blks.all (fun b => b.place.isNone) then onMap (fun m => { m with heat := s.map.heat }) t else t
  | none => t

/-- A deallocation whose hank cannot take strand form: its blocks are written by zero-fill (06 R165, R182). -/
def toZeroFill (e : Extent) : Extent :=
  { e with zero := true,
           blks := List.replicate (e.nlb1 + 1)
             { tok := .freed, blk := some zeroBlk, check := 0#64, place := none, ok := false, lost := false } }

/-- The zero-fill of a deallocation. -/
def zeroFillDealloc (e : Extent) (close : Bool) (src : RelocReads) (s : State) : State :=
  placeZeroFill (toZeroFill e) close src (setExt e.id toZeroFill s)

/-- A partial deallocation of a hank in hank form (06 R182): uncovered blocks that cannot stay are copied into the open pool set first, with MAP_UPDATE
kind 4; with no group to be had the coldest demotable group is demoted and the deallocation waits, and with none R165 applies. A group to be had and no
pool set with room: the hank is zero-filled, DESIGN CHOICE, the spec says only what lack of a group leads to (log entry 72). -/
def prepareDealloc (e : Extent) (close : Bool) (src : RelocReads) (s : State) : State :=
  if groupToHave s then
    let idxs := toCopy s e
    let (mode, role, pool) := poolDest s idxs.length
    match takeRun mode role e.layout idxs.length false pool false s with
    | some (i, b, s) => closeIf close i (moveBlocks (hankOf s e.nsid e.slba) .promotion idxs src e.layout i b s)
    | none => zeroFillDealloc e close src s
  else match coldest s with
    | some c => demoteColdest c src s
    | none => zeroFillDealloc e close src s

/-- The holder of a data block of a long braid: its position in the layout's nodes (10 R283). -/
def holderPos (l : Layout) (lba : Nat) : Nat :=
  let n := l.k + l.m
  let h := lba / 32
  (h / max l.k 1 + h % max l.k 1) % max n 1

/-- Whether this brick keeps the blocks of an extent: always, but for a home's extent of a long braid held elsewhere. -/
def keptHere (s : State) (e : Extent) : Bool :=
  let l := (layoutBy s e.layout).getD (layout0 s)
  if l.cross ≠ 5 then true
  else match e.origin with
    | .host _ => holderPos l e.slba = l.pos
    | .dropped => holderPos l e.slba = l.pos
    | _ => true

/-- Whether an extent's hank has hank form, or is between records. -/
def onHankSlot (s : State) (e : Extent) : Bool := match kvGet s.map.hanks (hankOf s e.nsid e.slba) with
  | some (.slot _ _) => true
  | some (.moving _) => true
  | _ => false

/-- Whether an extent has something for Motur to place: blocks that hold tokens and have no place, or a zero-fill; or a partial deallocation of a hank in
hank form whose hank is not yet as R182 needs it. -/
def toPlace (s : State) (e : Extent) : Bool :=
  if e.mode.dealloc && !e.zero then e.nlb1 < 31 && onHankSlot s e && !deallocReady s e
  else e.blks.all (fun b => (e.zero || b.tok = .journaled || b.tok = .inflight || b.tok = .mirrorPending) && b.place.isNone)

/-- Whether Motur may place an extent now (05 R132, R142, 06 R166, 14 R394): the blocks of its hank that it may have to copy lie on dies that are idle (07
R199). -/
def mayPlace (s : State) (e : Extent) : Bool :=
  e.durable && toPlace s e && keptHere s e &&
  e.compRec.isNone && s.map.state = 3 && s.jrnl.state = 4 && !s.safe.stopper && s.flush.isNone && s.therm.shut.isNone && partRuns s 4 &&
  !hankBusy s (hankOf s e.nsid e.slba) e.id &&
  (e.nlb1 = 31 || !onHankSlot s e || sourcesIdle s (hankBlocks s (hankOf s e.nsid e.slba))) &&
  !s.exts.any (fun f => f.gseq < e.gseq && shares e f && f.compRec.isNone)

/-- One extent placed, or its deallocation prepared. -/
def placeOne (e : Extent) (close : Bool) (src : RelocReads) (s : State) : State :=
  let t := if e.mode.dealloc && !e.zero then prepareDealloc e close src s else placeExtent e close src s
  softAll src (hankBlocks s (hankOf s e.nsid e.slba)) s t

/-- EXTENT_PLACEMENT: Motur places a journaled extent by the form of its hank and queues its programs, or prepares the hank of a partial deallocation;
`src` says how the blocks read that it copies. With 16 free sets or fewer the extent waits, and NOTICE 5.7 is raised at most once per second (06
R174). -/
def execExtentPlacement (ext : Nat) (close checksOk : Bool) (src : RelocReads) (s : State) :
    Host.Outcome State Fault Refusal :=
  match extBy s ext with
  | none => .next s
  | some e =>
    if !mayPlace s e then .next s
    else if !checksOk && !e.mode.dealloc then .next (settle (mediaCheckFailed 2 e s))
    else if freeSets s ≤ 16 then .next (raiseEvery (evKey 5 7) 1 5 7 e.nsid (e.slba % 2 ^ 32) s)
    else .next (resizeSlc (placeOne e close src s))

end Sys2Proof.Machine
end

