-- ==== Sys2Proof/Machine/Mirrors.lean ====
section
/-! DEFINITION. What an extent sends to other bricks once its INTENT record is durable: mirror copies (10 R281), long-braid
writes and deltas (10 R285), and the dual writes and dirty bits of splices and repairs (10 R294, R295, R304). -/

namespace Sys2Proof.Machine

open Sys2Proof

/-- The other bricks of a layout, as peer entries, in NODES order. -/
def others (s : State) (l : Layout) : List Nat :=
  (l.nodes.filter (fun n => n ≠ myNode s)).filterMap (entryOf s)

/-- The peer entry of a position of a layout. -/
def entryAt (s : State) (l : Layout) (pos : Nat) : Option Nat := entryOf s (nth l.nodes pos 0)

/-- Whether a namespace is spread by a cross-device mirror. -/
def isMirror (l : Layout) : Bool := l.cross = 3 || l.cross = 4

/-- The blocks of an extent as they travel: a deallocated block travels as zeros (log entry 21). -/
def wireBlks (s : State) (e : Extent) : List CheckedBlk :=
  (List.range (e.nlb1 + 1)).map (fun i =>
    let b := match e.blks[i]? with
      | some x => x.blk.getD zeroBlk
      | none => zeroBlk
    { blk := b, check := blockCheck e.nsid (e.slba + i) (nsMeta s e.nsid) b })

/-- The head of a message about part of an extent. -/
def partHead (e : Extent) (off n : Nat) : Head :=
  { tag := 0, nsid := e.nsid, slba := e.slba + off, gseq := e.gseq, nlb1 := n - 1, ext := e.ext, layout := e.layout }

/-- The frames of an extent, at most two blocks each (09 R239, R243, 10 R288). -/
def extMsgs (op flag : Nat) (e : Extent) (bs : List CheckedBlk) : List Msg :=
  (chunks 2 (bs.length + 1) bs).zipIdx.map (fun c =>
    { op := op, status := 0, head := partHead e (2 * c.2) c.1.length, arg := e.nlb1 + 256 * (2 * c.2) + flag,
      body := .blocks c.1 })

/-- An extent sent to a peer: MIRROR_WRITE (09 R243). -/
def sendCopy (e : Extent) (s : State) (entry : Nat) : State :=
  (extMsgs 0x10 0 e (wireBlks s e)).foldl (fun s m => sendTo entry (hankOf s e.nsid e.slba) m s) s

/-- The present content of a block: what the map names, or zeros (01 R30). -/
def contentAt (s : State) (nsid lba : Nat) : Blk :=
  match look s nsid lba with
  | .mapped a => match slotAt s a with
    | some k => k.blk
    | none => zeroBlk
  | _ => zeroBlk

/-- The stripe and the data index of a block of a long braid (10 R283). -/
def stripeOf (l : Layout) (lba : Nat) : Nat := lba / 32 / max l.k 1
def dataPos (l : Layout) (lba : Nat) : Nat := lba / 32 % max l.k 1

/-- The peer entries that hold the parity of a block's stripe, by parity index (10 R283). -/
def parityHolders (s : State) (l : Layout) (lba : Nat) : List (Option Nat) :=
  (List.range l.m).map (fun i => entryAt s l ((stripeOf l lba + l.k + i) % max (l.k + l.m) 1))

/-- The deltas of an extent: old XOR new; for a deallocation the old content (10 R285). -/
def deltas (s : State) (e : Extent) : List CheckedBlk :=
  (List.range (e.nlb1 + 1)).map (fun i =>
    let old := contentAt s e.nsid (e.slba + i)
    let d := match e.blks[i]? with
      | some x => if e.mode.dealloc then old else xorBlk old (x.blk.getD zeroBlk)
      | none => old
    { blk := d, check := blockCheck e.nsid (e.slba + i) (nsMeta s e.nsid) d })

/-- LB_DELTA sent to every parity holder; the extent waits for each frame's acknowledgement from each (10 R285, steps 3 and 5). -/
def sendDeltas (e : Extent) (l : Layout) (s : State) : State :=
  let hs := (parityHolders s l e.slba).filterMap id
  let ms := (extMsgs 0x21 0 e (deltas s e)).map (fun m => { m with arg := dataPos l e.slba })
  setExt e.id (fun e => { e with waitOn := hs.flatMap (fun h => List.replicate ms.length h) })
    (hs.foldl (fun s h => ms.foldl (fun s m => sendTo h (hankOf s e.nsid e.slba) m s) s) s)

/-- The LB_WRITE frames of an extent; a deallocation carries no blocks (10 R285, R288). -/
def lbMsgs (s : State) (e : Extent) : List Msg :=
  if e.mode.dealloc then
    [{ op := 0x20, status := 0, head := partHead e 0 (e.nlb1 + 1), arg := e.nlb1 + 2 ^ 31, body := .none }]
  else extMsgs 0x20 0 e (wireBlks s e)

/-- LB_WRITE sent to the data holder; the home waits for its LB_ACK (10 R285, steps 2 and 6). -/
def sendLbWrite (e : Extent) (l : Layout) (s : State) : State :=
  match entryAt s l (holderPos l e.slba) with
  | none => s
  | some h =>
    setExt e.id (fun e => { e with waitOn := [h], blks := e.blks.map (fun b => { b with ok := true, tok := .mirrorPending }) })
      ((lbMsgs s e).foldl (fun s m => sendTo h (hankOf s e.nsid e.slba) m s) s)

/-! ### Splices and repairs -/

/-- The splice or repair of a namespace (10 R289). -/
def spliceOf (s : State) (nsid : Nat) : Option Splice := s.braid.splices.find? (fun p => p.nsid = nsid)

/-- One splice changed. -/
def setSplice (id : Nat) (f : Splice → Splice) (s : State) : State :=
  onBraid (fun b => { b with splices := b.splices.map (fun p => if p.id = id then f p else p) }) s

/-- A hank of a splice marked dirty. -/
def markDirty (id hank : Nat) (s : State) : State := setSplice id (fun p => { p with dirty := insNat p.dirty hank }) s

/-- Whether writes of a namespace are tracked by its splice: from BUILD until SWITCH (10 R294). -/
def tracking (p : Splice) : Bool := p.phase ≠ .prepare && p.phase ≠ .switch && p.phase ≠ .release && p.phase ≠ .aborted

/-- Whether a splice copies a hank now (10 R294). -/
def copying (s : State) (p : Splice) (hank : Nat) : Bool := s.braid.hankReads.any (fun r => r.splice = p.id && r.copy && r.hank = hank)

/-- Whether a write below PROGRESS goes to the builders too: dual-writing is on, no builder's copy is stale, the hank is not being copied, and the new
layout is a mirror whose builders hold whole copies; in a long braid and in a local splice the hank is marked instead (10 R294, coincidences; log entry
22). -/
def dualWrites (s : State) (p : Splice) (hank : Nat) : Bool :=
  tracking p && !p.repair && p.dual && !s.braid.dualOff && !p.localRun && hank < p.progress &&
  (match layoutBy s p.new with
   | some l => isMirror l
   | none => false) && !p.builders.isEmpty && !copying s p hank && !p.builders.any (fun b => isStale s b p.nsid)

/-- What a splice or repair does with a write whose intent is durable (10 R294, R304). -/
def trackWrite (e : Extent) (s : State) : State :=
  match spliceOf s e.nsid with
  | none => s
  | some p =>
    let h := e.slba / 32
    if !tracking p then s
    else if p.repair || copying s p h then markDirty p.id h s
    else if h ≥ p.progress then s
    else if e.mode.dual && dualWrites s p h then
      setExt e.id (fun e => { e with builders := p.builders })
        (p.builders.foldl (sendCopy { e with layout := p.new }) s)
    else markDirty p.id h s

/-- What a durable INTENT record of this brick's own namespace sends (10 R281, R285). -/
def sendExtent (e : Extent) (s : State) : State :=
  let l := (layoutBy s e.layout).getD (layout0 s)
  if isMirror l then
    let cur := (others s l).filter (fun x => !isStale s x e.nsid)
    setExt e.id (fun e => { e with waitOn := cur }) (cur.foldl (sendCopy e) s)
  else if l.cross = 5 then
    (if holderPos l e.slba = l.pos then sendDeltas e l s else sendLbWrite e l s)
  else s

/-- The tokens of an extent that waits for no one any more. -/
def stopBuilders (e : Extent) : Extent := { e with builders := [] }

/-- Dual-writing stops at 25 % mirror-pending tokens and resumes below 12.5 % with every builder UP (10 R295). -/
def dualCheck (s : State) : State :=
  let active := s.braid.splices.filter (fun p => tracking p && !p.repair)
  match active with
  | [] => s
  | p :: _ =>
    let mp := tokens .mirrorPending s
    if !s.braid.dualOff then
      (if 4 * mp ≥ s.pwr.budget then
        let hit := s.exts.filter (fun e => !e.builders.isEmpty)
        let s := hit.foldl (fun s e => match spliceOf s e.nsid with
          | some q => markDirty q.id (e.slba / 32) s
          | none => s) s
        raise 11 2 p.id p.nsid (onBraid (fun b => { b with dualOff := true }) (onExts (fun es => es.map stopBuilders) s))
      else s)
    else if 8 * mp < s.pwr.budget && active.all (fun q => q.builders.all (peerUp s)) then
      raise 11 3 p.id p.nsid (onBraid (fun b => { b with dualOff := false }) s)
    else s

end Sys2Proof.Machine
end

