-- ==== Sys2Proof/Machine/HostOps.lean ====
section
/-! DEFINITION. Accepting a host command (01 R22, 04 R105, R108, R115), the checks on it (04 R103, R109), reservations'
access rules, and contrary orders (04 R120, R121). -/

namespace Sys2Proof.Machine

open Sys2Proof

/-! ### Fetching -/

/-- A controller takes commands: enabled and ready, its link up, not stopped, and no R127 (04 R105, R126, R127). -/
def ctlRuns (s : State) (p : Port) : Bool :=
  let c := s.ctl.get p
  c.en && c.rdy && !c.cfs && c.link && !s.hx.perstHeld && !powerFails s && (p = .a || dualPort s)

/-- An admin command is fetched: it comes on queue 0. -/
def fetchAdmin (s : State) (h : Hdr) : Bool := ctlRuns s h.port && h.sq = 0 && s.ps.state ≠ 4

/-- An I/O command is fetched: its queue exists (04 R108). -/
def fetchIo (s : State) (h : Hdr) : Bool :=
  ctlRuns s h.port && (s.ctl.get h.port).sqs.any (fun q => q.qid = h.sq) && s.ps.state ≠ 4

/-- A command accepted: the arrival stamp advances to it, the sleep backoff returns to 1, collection sees the host, and the
command head of its queue advances (01 R22, 06 R172, 11 R318). -/
def stampCmd (h : Hdr) (s : State) : State :=
  setCtl h.port (fun c => { c with
      asqHead := if h.sq = 0 then (c.asqHead + 1) % (c.asqs + 1) else c.asqHead,
      sqs := c.sqs.map (fun q => if q.qid = h.sq then { q with head := (q.head + 1) % max q.size 1 } else q) })
    (onMap (fun m => { m with gcMs := 0 }) (onPs (fun p => { p with backoff := 1 })
      (onHx (fun x => { x with stamp := (x.stamp + h.dt) % 2 ^ 64 }) s)))

/-- A fetched command wakes the device: the activity is PCIe's (11 R317, R320). -/
def wakeFor (p : Port) (s : State) : State :=
  if s.ps.state = 0 ∧ s.ps.hs.isNone then s else wakeUp (1 + portNo p) s

/-- An I/O command in a host-ordered non-operational state: the reported state returns to the last operational one (11 R321). -/
def endOrdered (s : State) : State :=
  match s.ps.ordered with
  | some (p, _) => setCtl p (fun c => { c with feat := { c.feat with ps := c.feat.psOp } }) (onPs (fun x => { x with ordered := none }) s)
  | none => s

/-- An I/O command accepted. -/
def acceptIo (h : Hdr) (s : State) : State := endOrdered (wakeFor h.port (stampCmd h s))

/-- An admin command accepted. -/
def acceptAdmin (h : Hdr) (s : State) : State := wakeFor h.port (stampCmd h s)

/-- What an admin command meets in the no-image state: only Identify, Get Log Page and Image Stage run (03 R93). -/
def adminOk (s : State) : Bool := !s.boot.noImage

/-- An admin command that R93 refuses, or its meaning on the accepted state. -/
def admin (h : Hdr) (f : State → State) (s : State) : Host.Outcome State Fault Refusal :=
  if !fetchAdmin s h then .next s
  else if !adminOk s then .next (answer h 0 0x01 0 (acceptAdmin h s))
  else .next (f (acceptAdmin h s))

/-- An I/O command's meaning on the accepted state. -/
def io (h : Hdr) (f : State → State) (s : State) : Host.Outcome State Fault Refusal :=
  if !fetchIo s h then .next s else .next (f (acceptIo h s))

/-- A new command takes the next global write sequence (01 R22). -/
def takeGseq (s : State) : Nat × State := (s.hx.gseq, onHx (fun x => { x with gseq := (x.gseq + 1) % 2 ^ 64 }) s)

/-- Whether an extent is a write of port B with the stamp of now and no INTENT record: a write of port A with that stamp goes before it (01 R22,
04 R119). -/
def behindPortA (s : State) (e : Extent) : Bool :=
  isHostExt e && e.port = .b && e.stamp = s.hx.stamp && e.recno.isNone

/-- The sequences that a write of port A with the stamp of now takes over: those of port B's writes and fused pairs that are still to be admitted
(01 R22, 04 R119; log entry 4). -/
def portASeqs (s : State) : List Nat :=
  (s.exts.filter (behindPortA s)).map (fun e => e.gseq) ++
  (s.cmds.filter (fun c => isFused c && c.port = .b && c.stamp = s.hx.stamp && !c.begun)).map (fun c => c.gseq)

/-- The next global write sequence, given to a command of a port: of equal stamps port A's comes first, and port B's writes move up by one (01
R22, 04 R119). -/
def giveGseq (p : Port) (s : State) : Nat × State :=
  let (g, t) := takeGseq s
  match p, argMin id (portASeqs s) with
  | .a, some m =>
    (m, onCmds (fun l => l.map (fun c => if c.gseq ≥ m then { c with gseq := c.gseq + 1 } else c))
      (onExts (fun l => l.map (fun e => if isHostExt e && e.recno.isNone && decide (e.gseq ≥ m) then { e with gseq := e.gseq + 1 } else e)) t))
  | _, _ => (g, t)

/-! ### Checks -/

/-- MDTS of the HOST section. -/
def mdts (s : State) : Nat := match s.prm.host with
  | some x => x.mdts
  | none => 0

/-- Reservation types 5 and 6 are held by every registrant. -/
def isRegistrant (s : State) (nsid : Nat) (id : BitVec 128) : Bool :=
  s.resv.any (fun r => r.nsid = nsid && r.hostId = id)

/-- Whether a reservation keeps a host out; the access rules are NVMe's (PRESUMED, log entry 23). -/
def resvConflict (s : State) (p : Port) (nsid : Nat) (write : Bool) : Bool :=
  let id := (s.ctl.get p).feat.hostId
  match s.hold.find? (fun x => x.nsid = nsid) with
  | none => false
  | some x =>
    let own := decide (x.hostId = id)
    let reg := isRegistrant s nsid id
    match x.rtype with
    | 1 => write && !own
    | 2 => !own
    | 3 => write && !(own || reg)
    | 4 => !(own || reg)
    | 5 => write && !reg
    | 6 => !reg
    | _ => false

/-- What refuses an I/O command on one namespace: namespace unknown 0h/0Bh, deferred errors pending 7h/81h (04 R115), a
transfer beyond MDTS 0h/02h and a range beyond NSZE 0h/80h (04 R109), protection 0h/20h, reservation 0h/83h. In the stopper
state every write is refused with 0h/20h first (14 R395). Log entry 23 fixes the order. -/
def refuseIo (s : State) (h : Hdr) (nsid slba nlb : Nat) (write data : Bool) : Option (Nat × Nat × Nat) :=
  if write && s.safe.stopper then some (0, 0x20, 0)
  else match nsOf s nsid with
    | none => some (0, 0x0B, 0)
    | some n =>
      let c := s.ctl.get h.port
      if heldBack c nsid s.hx.stamp then some (7, 0x81, c.c1.length)
      else if data && nlb > 2 ^ mdts s then some (0, 0x02, 0)
      else if slba + nlb > n.size then some (0, 0x80, 0)
      else if write && protectedNs s n then some (0, 0x20, 0)
      else if resvConflict s h.port nsid write then some (0, 0x83, 0)
      else none

/-! ### Outstanding commands -/

/-- A command record with nothing decided. -/
def newCmd (key : Nat) (h : Hdr) (kind : CmdKind) (nsid slba nlb1 gseq : Nat) (s : State) : HostCmd :=
  { key := key, port := h.port, sq := h.sq, cid := h.cid, kind := kind, nsid := nsid, slba := slba, nlb1 := nlb1,
    stamp := s.hx.stamp, gseq := gseq, buffered := false, found := [], waitRec := none, failed := none, live := true, begun := false }

def addCmd (c : HostCmd) (s : State) : State := onCmds (fun l => l ++ [c]) s

/-- The value that a command's completion carries when the record it waits for is durable. -/
def cmdDw0 (c : HostCmd) : Nat := match c.kind with
  | .spliceStart => c.nlb1
  | .spliceSwitch => c.nlb1
  | .spliceAbort => c.nlb1
  | _ => 0

/-- Commands that wait for a record which is now durable, completed. -/
def finishWaiting (recno : Nat) (s : State) : State :=
  (s.cmds.filter (fun c => c.waitRec = some recno)).foldl (fun s c => finish c 0 0 (cmdDw0 c) s) s

/-- Whether the journal takes records now: it runs, or replays (05 R139, 14 R395). -/
def journalOpen (s : State) : Bool := s.jrnl.state = 3 || s.jrnl.state = 4

/-- A command that completes when a record is durable (05 R132): the record written and the command kept. -/
def recordFor (h : Hdr) (kind : CmdKind) (nsid x : Nat) (b : JBody) (s : State) : State :=
  let (key, s) := newKey s
  let (n, s) := journal (hostRec h.port b s) s
  addCmd { newCmd key h kind nsid 0 x s.hx.gseq s with waitRec := some n } s

/-! ### Contrary orders (04 R120, R121) -/

/-- The event group of a losing master's port; the SMBus has none. -/
def masterGroup : Master → Option Nat
  | .hostA => some 2
  | .hostB => some 3
  | .peerA => some 2
  | .peerB => some 3
  | .smbus => none

def hostMaster (p : Port) : Master := match p with
  | .a => .hostA
  | .b => .hostB

def peerMaster (p : Port) : Master := match p with
  | .a => .peerA
  | .b => .peerB

/-- A lost order is counted (04, CONFLICTS). -/
def countConflict (s : State) : State := onHx (fun x => { x with conflicts := inc 16 x.conflicts }) s

/-- A host's lost order: 7h/82h, and NOTICE 2.24 or 3.24 in its port's group (04 R121). -/
def hostLoses (h : Hdr) (s : State) : State :=
  raise (hostGroup h.port) 24 0 0 (answer h 7 0x82 0 (countConflict s))

/-- An outstanding host order that loses to a later one. -/
def cmdLoses (c : HostCmd) (s : State) : State :=
  raise (hostGroup c.port) 24 0 0 (finish c 7 0x82 0 (countConflict s))

/-- The newest order noted for an object. -/
def noteOrder (o : OrderObj) (m : Master) (v : Nat) (s : State) : State :=
  onOrders (fun l => { obj := o, master := m, stamp := s.hx.stamp, value := v } :: l.filter (fun r => r.obj ≠ o)) s

/-- The newest order of an object. -/
def orderOf (s : State) (o : OrderObj) : Option OrderRec := s.orders.find? (fun r => r.obj = o)

/-- The rank of masters whose orders carry the same stamp (04 R121). -/
def rank : Master → Nat
  | .hostA => 0
  | .hostB => 1
  | .peerA => 2
  | .peerB => 2
  | .smbus => 3

/-- Whether a value of a feature loses: another master gave one in the same cycle and ranks before (04 R121). -/
def featureLoses (s : State) (o : OrderObj) (m : Master) : Bool := match orderOf s o with
  | some r => r.stamp = s.hx.stamp && rank r.master < rank m
  | none => false

end Sys2Proof.Machine
end

