-- ==== Sys2Proof/Machine/Reads.lean ====
section
/-! DEFINITION. Reading a block: its newest source (01 R30, R31), page reads and the soft-read ladder (07 R205 to R207),
reconstruction from the row and from peers (01 R33, 10 R278, R282, R287), and the commands NAND_READ_COMPLETE and
SOFT_DECODE_DONE. -/

namespace Sys2Proof.Machine

open Sys2Proof

/-! ### What a reader gets -/

/-- A block found for a command. -/
def foundFor (key idx : Nat) (f : Found) (s : State) : State :=
  setCmd key (fun c => { c with found := modAt c.found idx (fun _ => f) }) s

/-- The record of a block that a READ_REQ asked for (10 R288). -/
def recordOf (s : State) (nsid lba gseq : Nat) (f : Found) (unmapped : Bool) : BlockRec :=
  match f with
  | .got b => { check := blockCheck nsid lba (nsMeta s nsid) b, gseq := gseq % 2 ^ 56, unmapped := unmapped, lost := false, blk := b }
  | _ => { check := ~~~ (blockCheck nsid lba (nsMeta s nsid) zeroBlk), gseq := gseq % 2 ^ 56, unmapped := false, lost := true,
           blk := zeroBlk }

/-- A served READ_REQ answered once every block has been read: READ_DATA within the payload limit, under the request's TAG (09
R243, 10 R288). -/
def answerServe (v : Serve) (s : State) : State :=
  if v.recs.all Option.isSome then
    let n := if nsMeta s v.nsid then 1 else 2
    let s := onBraid (fun b => { b with serves := b.serves.filter (fun w => w ≠ v) }) s
    ((chunks n (v.recs.length + 1) (v.recs.filterMap id)).zipIdx).foldl (fun s c =>
      sendMsg v.port v.link
        { op := 0x24, status := 0,
          head := { head0 with tag := v.tag, nsid := v.nsid, slba := v.slba + n * c.2, nlb1 := c.1.length - 1 },
          arg := v.arg, body := .recs c.1 } s) s
  else s

/-- A block found for a READ_REQ. -/
def foundServe (p : Port) (l tag idx : Nat) (r : BlockRec) (s : State) : State :=
  let s := onBraid (fun b => { b with serves := b.serves.map (fun v =>
    if v.port = p ∧ v.link = l ∧ v.tag = tag then { v with recs := modAt v.recs idx (fun _ => some r) } else v) }) s
  match s.braid.serves.find? (fun v => v.port = p ∧ v.link = l ∧ v.tag = tag) with
  | some v => answerServe v s
  | none => s

/-- A block read for a splice (10 R293, R297). -/
def foundHank (key idx : Nat) (r : BlockRec) (s : State) : State :=
  onBraid (fun b => { b with hankReads := b.hankReads.map (fun v =>
    if v.key = key then { v with recs := modAt v.recs idx (fun _ => some r) } else v) }) s

/-- A block found for a reader. -/
def deliver (r : Reader) (idx nsid lba gseq : Nat) (f : Found) (unmapped : Bool) (s : State) : State :=
  match r with
  | .cmd key => foundFor key idx f s
  | .peer p l tag => foundServe p l tag idx (recordOf s nsid lba gseq f unmapped) s
  | .splice key => foundHank key idx (recordOf s nsid lba gseq f unmapped) s

/-! ### Peers -/

/-- A READ_REQ for one block sent to the first of the peers that is UP; none left: the block is lost (10 R282). -/
def askPeer (r : Reader) (idx nsid lba part : Nat) (solve : Option Nat) : List Nat → State → Option State
  | [], _ => none
  | e :: rest, s =>
    if s.safe.stopper || !peerUp s e then askPeer r idx nsid lba part solve rest s
    else match linkFor s e (hankOf s nsid lba) with
      | none => askPeer r idx nsid lba part solve rest s
      | some (p, l) =>
        let tag := match linkBy s p l with
          | some k => k.tag
          | none => 0
        let a : Ask := { port := p, link := l, tag := tag, reader := r, idx := idx, nsid := nsid, lba := lba, part := part,
                         rest := rest, solve := solve }
        let hd : Head := { head0 with nsid := nsid, slba := lba, layout := (nsLayout s nsid).id }
        some (sendReq p l { op := 0x23, status := 0, head := hd, arg := part, body := .none }
          (onBraid (fun b => { b with asks := b.asks ++ [a] }) s))

/-- Whether a reader is a READ_REQ, which this brick serves from its own medium alone (10 R287). -/
def forPeer (r : Reader) : Bool := match r with
  | .peer .. => true
  | _ => false

/-- A block that no source gave (01 R33). -/
def giveUp (r : Reader) (idx nsid lba : Nat) (s : State) : State := deliver r idx nsid lba 0 .lost false s

/-! ### Long braids (10 R283 to R287) -/

/-- The LBA of data index d in the stripe of a block, and of parity i. -/
def stripeLba (l : Layout) (lba d : Nat) : Nat := 32 * (stripeOf l lba * l.k + d) + lba % 32
def parityLba (l : Layout) (lba i : Nat) : Nat := 2 ^ 39 + i * 2 ^ 36 + 32 * stripeOf l lba + lba % 32

/-- One more answer for a solution. -/
def solveGot (id : Nat) (d : Option (Nat × Blk)) (p : Option (Nat × Blk)) (s : State) : State :=
  onBraid (fun b => { b with solves := b.solves.map (fun v => if v.id = id then
    { v with left := v.left - 1, data := v.data ++ d.toList, par := v.par ++ p.toList } else v) }) s

/-- A solution whose answers are all in: the missing block from P, Q and R (10 R276, R287). -/
def finishSolve (id : Nat) (s : State) : State :=
  match s.braid.solves.find? (fun v => v.id = id) with
  | none => s
  | some v =>
    if v.left > 0 then s
    else
      let l := nsLayout s v.nsid
      let s := onBraid (fun b => { b with solves := b.solves.filter (fun w => w.id ≠ id) }) s
      match (solveRow l.k v.data v.par).bind (fun xs => kvGet xs (dataPos l v.lba)) with
      | some b => deliver v.reader v.idx v.nsid v.lba 0 (.got b) false s
      | none => giveUp v.reader v.idx v.nsid v.lba s

/-- One other block of the stripe asked for, or read here. -/
def solvePart (id : Nat) (nsid lba part d : Nat) (pos : Nat) (l : Layout) (s : State) : State :=
  let here : Blk → State → State := fun b s =>
    if part = 0 then solveGot id (some (d, b)) none s else solveGot id none (some (part - 1, b)) s
  if pos = l.pos then here (contentAt s nsid lba) s
  else match entryAt s l pos with
    | none => solveGot id none none s
    | some e => (askPeer (.cmd 0) d nsid lba part (some id) [e] s).getD (solveGot id none none s)

/-- A block of a long braid whose holder cannot give it: the other data hanks and the parity hanks of the stripe (10 R287). -/
def startSolve (r : Reader) (idx nsid lba : Nat) (s : State) : State :=
  let l := nsLayout s nsid
  let (id, s) := newKey s
  let j := dataPos l lba
  let ds := (List.range l.k).filter (fun d => d ≠ j)
  let v : Solve := { id := id, reader := r, idx := idx, nsid := nsid, lba := lba, left := ds.length + l.m, data := [], par := [] }
  let s := onBraid (fun b => { b with solves := b.solves ++ [v] }) s
  let s := ds.foldl (fun s d => solvePart id nsid (stripeLba l lba d) 0 d ((stripeOf l lba + d) % max (l.k + l.m) 1) l s) s
  let s := (List.range l.m).foldl (fun s i =>
    solvePart id nsid (parityLba l lba i) (i + 1) i ((stripeOf l lba + l.k + i) % max (l.k + l.m) 1) l s) s
  finishSolve id s

/-- The next source of a block that the row did not give (01 R33): the members of a mirror in NODES order whose copy is current,
or the stripe of a long braid; none in the stopper state (14 R395). -/
def nextSource (r : Reader) (idx nsid lba : Nat) (s : State) : State :=
  let l := nsLayout s nsid
  if forPeer r || s.safe.stopper then giveUp r idx nsid lba s
  else if isMirror l then
    (askPeer r idx nsid lba 0 none ((others s l).filter (fun e => !isStale s e nsid)) s).getD (giveUp r idx nsid lba s)
  else if l.cross = 5 then startSolve r idx nsid lba s
  else giveUp r idx nsid lba s

/-! ### Starting reads -/

/-- Whether an extent covers a block. -/
def coversBlock (e : Extent) (nsid lba : Nat) : Bool := e.nsid = nsid && e.slba ≤ lba && lba ≤ e.slba + e.nlb1

/-- Whether an accepted extent gives a block's content: its INTENT record is written, or its token holds the data (01 R30, log entry 25). -/
def givesBlock (e : Extent) (lba : Nat) : Bool := e.recno.isSome || (match e.blks[lba - e.slba]? with
  | some b => decide (b.tok ≠ .waiting) && b.blk.isSome
  | none => false)

/-- The newest extent below a sequence that holds a block in DRAM: its content, zeros where it deallocates (01 R30, log entry 25). -/
def dramBelow (below : Option Nat) (s : State) (nsid lba : Nat) : Option (Blk × Nat) :=
  match argMax (fun e => e.gseq) (s.exts.filter (fun e =>
      coversBlock e nsid lba && givesBlock e lba && !e.stopped && e.gseq < below.getD (e.gseq + 1))) with
  | some e =>
    if e.gseq < gseqAt s nsid lba then none
    else some (match e.blks[lba - e.slba]? with
      | some b => if e.mode.dealloc then zeroBlk else b.blk.getD zeroBlk
      | none => zeroBlk, e.gseq)
  | none => none

/-- The newest content of a block in DRAM. -/
def dramBlock (s : State) (nsid lba : Nat) : Option (Blk × Nat) := dramBelow none s nsid lba

/-- The sequence below which a reader looks: a fused pair's Compare sees the writes before the pair (04 R109). -/
def readBelow (s : State) (r : Reader) : Option Nat := match r with
  | .cmd key => (match cmdBy s key with
    | some c => if isFused c then some c.gseq else none
    | none => none)
  | _ => none

/-- A wanted slot added to a page read of this reader that has not climbed, or a new page read queued for its die (07 R200, R201); a read of a target
that is not usable is not played (07 R209). -/
def wantSlot (w : Want) (unit page : Nat) (s : State) : State :=
  if s.media.reads.any (fun r => r.unit = unit && r.page = page && r.level = 0 && r.wants.any (fun x => x.reader = w.reader)) then
    onMedia (fun m => { m with reads := m.reads.map (fun r =>
      if r.unit = unit ∧ r.page = page ∧ r.level = 0 ∧ r.wants.any (fun x => x.reader = w.reader) then
        { r with wants := r.wants ++ [w], left := insNat r.left w.slot } else r) }) s
  else
    let (id, s) := newKey s
    pumpDie (onMedia (fun m => { m with
      reads := m.reads ++ [{ rid := id, unit := unit, page := page, level := 0, left := [w.slot], softBad := false, issued := false, wants := [w] }] }) s)
      (unitDie unit)

/-- One block of a read started from its newest source (01 R30): DRAM, zeros for an unmapped block, or the mapped location; a
long braid's block from its holder (10 R287). -/
def startBlock (r : Reader) (nsid : Nat) (idx lba : Nat) (s : State) : State :=
  let l := nsLayout s nsid
  let local_ := forPeer r || l.cross ≠ 5 || decide (holderPos l lba = l.pos)
  match dramBelow (readBelow s r) s nsid lba with
  | some (b, g) => deliver r idx nsid lba g (.got b) false s
  | none =>
    if !local_ then
      (match (entryAt s l (holderPos l lba)).bind (fun e => askPeer r idx nsid lba 0 none [e] s) with
       | some s => s
       | none => startSolve r idx nsid lba s)
    else match look s nsid lba with
      | .unmapped => deliver r idx nsid lba 0 (.got zeroBlk) true s
      | .bad => deliver r idx nsid lba 0 .lost false (danger 5 21 0 s)
      | .mapped a => match setBy s a.set with
        | none => deliver r idx nsid lba 0 .lost false s
        | some e =>
          let (ch, row, k) := placeOf s e a.block
          match nth e.members ch none with
          | none => deliver r idx nsid lba 0 .lost false s
          | some u => wantSlot { reader := r, idx := idx, slot := k } u (row + 1) s

/-- Every block of a read started. -/
def startRead (r : Reader) (nsid slba n : Nat) (s : State) : State :=
  (List.range n).foldl (fun s i => startBlock r nsid i (slba + i) s) s

/-! ### Ending commands that read -/

/-- The namespace's block content that the host gets: data, and metadata where it carries any. -/
def hostBlk (s : State) (nsid : Nat) (b : Blk) : Blk := if nsMeta s nsid then b else { b with hm := [] }

/-- The blocks found. -/
def gotBlks (c : HostCmd) : List Blk := c.found.filterMap (fun f => match f with
  | .got b => some b
  | _ => none)

/-- Whether two blocks hold the same data, and metadata where the namespace carries any. -/
def sameBlk (m : Bool) (a b : Blk) : Bool := decide (a.data = b.data) && (!m || decide (a.hm = b.hm))

/-- Extents of a write: the parts of it that fall within one hank (01 R23). -/
def pieces : Nat → Nat → Nat → List (Nat × Nat)
  | 0, _, _ => []
  | fuel + 1, slba, n =>
    if n = 0 then []
    else
      let m := min n (32 - slba % 32)
      (slba, m) :: pieces fuel (slba + m) (n - m)

/-- A block of an extent that waits for its token and its data. -/
def emptyBlk : XBlk := { tok := .waiting, blk := none, check := 0#64, place := none, ok := false, lost := false }

/-- Extents of a host write, waiting for their tokens; those of a deallocation carry no data and claim none (01 R23, 04 R104). -/
def addExtents (c : HostCmd) (slba n gseq ext0 : Nat) (m : Mode) (s : State) : State :=
  let l := (nsLayout s c.nsid).id
  ((pieces (n + 1) slba n).zipIdx).foldl (fun s x =>
    let (id, s) := newKey s
    let e : Extent :=
      { id := id, origin := .host c.key, port := c.port, nsid := c.nsid, slba := x.1.1, nlb1 := x.1.2 - 1,
        ext := (ext0 + x.2) % 256, gseq := gseq, stamp := c.stamp, mode := m, layout := l,
        blks := if m.dealloc then [] else List.replicate x.1.2 emptyBlk, recno := none, durable := false, stopped := false,
        waitOn := [], acked := 0, builders := [], resent := [], compRec := none, zero := false, rxHeld := 0 }
    onExts (fun es => es ++ [e]) s) s

/-- A fused pair whose Compare found equal data: the Write goes on under the sequence that the pair took (04 R113). -/
def fusedGoesOn (c : HostCmd) (w : FusedWrite) (s : State) : State :=
  let s := finish c 0 0 0 s
  let (key, s) := newKey s
  let buf := match nsOf s w.nsid with
    | some n => bufferedFor s c.port n && !w.fua
    | none => false
  let d : HostCmd := { c with key := key, cid := w.cid, kind := .write, nsid := w.nsid, slba := w.slba, nlb1 := 0,
                              buffered := buf, found := [] }
  if c.live then
    addExtents d w.slba 1 c.gseq 0 { buffered := buf, fua := w.fua, dealloc := false, mirrored := false, dual := false } (addCmd d s)
  else s

/-- The completion of a command whose blocks have all been sought (01 R33, 04 R113, status codes). -/
def finishRead (key : Nat) (s : State) : State :=
  match cmdBy s key with
  | none => s
  | some c =>
    if c.found.any (fun f => f = .waiting) then s
    else
      let lost := c.found.any (fun f => f = .lost)
      let unrec (s : State) : State := raise (hostGroup c.port) 6 0 0 s
      match c.kind with
      | .read =>
        let s := if c.live then emit (.blocks c.port c.sq c.cid ((gotBlks c).map (hostBlk s c.nsid))) s else s
        if lost then unrec (finish c 2 0x81 0 s) else finish c 0 0 0 s
      | .verify => if lost then unrec (finish c 2 0x81 0 s) else finish c 0 0 0 s
      | .compare data =>
        if lost then unrec (finish c 2 0x81 0 s)
        else if (List.zipWith (sameBlk (nsMeta s c.nsid)) (gotBlks c) data).all id then finish c 0 0 0 s
        else finish c 2 0x85 0 s
      | .fused data w =>
        let abortWrite (s : State) : State := if c.live then post c.port c.sq w.cid 0 0x09 0 s else s
        if lost then abortWrite (unrec (finish c 2 0x81 0 s))
        else if (gotBlks c).all (fun b => sameBlk (nsMeta s c.nsid) b data) then fusedGoesOn c w s
        else abortWrite (finish c 2 0x85 0 s)
      | _ => s

/-- Every command that reads, completed if nothing is left to wait for. -/
def finishReads (s : State) : State := (s.cmds.map (fun c => c.key)).foldl (fun s k => finishRead k s) s

/-- Whether a fused pair's Compare may read: the data of every earlier write to its block is in DRAM, and no earlier pair on the block is
undecided (04 R109, R113). -/
def fusedClear (s : State) (c : HostCmd) : Bool :=
  !s.exts.any (fun e => isHostExt e && coversBlock e c.nsid c.slba && e.gseq < c.gseq && !givesBlock e c.slba && !e.stopped) &&
  !s.cmds.any (fun d => isFused d && d.nsid = c.nsid && d.slba = c.slba && d.gseq < c.gseq)

/-- One fused pair's Compare begun, if it may be. -/
def beginFused (s : State) (key : Nat) : State :=
  match cmdBy s key with
  | none => s
  | some c =>
    if isFused c && !c.begun && fusedClear s c then
      startRead (.cmd key) c.nsid c.slba 1 (setCmd key (fun c => { c with begun := true }) s)
    else s

/-- Every command that reads, completed if nothing is left to wait for; the fused pairs that waited behind an earlier write begin. -/
def settleReads (s : State) : State := finishReads ((s.cmds.map (fun c => c.key)).foldl beginFused (finishReads s))

/-! ### The end of a page read -/

/-- The page's slot, as programmed. -/
def pageSlot (s : State) (r : NRead) (k : Nat) : Option Slot :=
  (nandUnit s r.unit).bind (fun n => (kvGet n.pages r.page).bind (fun sl => sl[k]?))

/-- One want of a page read answered from the page's slot; a block with the lost flag goes on to the peers (06 R168). -/
def wantGot (r : NRead) (w : Want) (s : State) : State :=
  match pageSlot s r w.slot with
  | none => s
  | some k =>
    if k.lost then nextSource w.reader w.idx k.nsid k.lba s
    else deliver w.reader w.idx k.nsid k.lba k.gseq (.got k.blk) false s

/-- One want rebuilt: from the row where its inputs allow (the codewords of outstanding reads that it rebuilds are named by read and slot), NOTICE 11.11 at most once per second, else from the next source (01
R33, 10 R278, R445). -/
def wantRebuilt (r : NRead) (row : List (Nat × Nat)) (w : Want) (s : State) : State :=
  match pageSlot s r w.slot with
  | none => s
  | some k =>
    if row.contains (r.rid, w.slot) && !k.lost then
      deliver w.reader w.idx k.nsid k.lba k.gseq (.got k.blk) false
        (raiseEvery (evKey 11 11) 1 11 11 0 0 (onBraid (fun b => { b with reconRow := inc 32 b.reconRow }) s))
    else nextSource w.reader w.idx k.nsid k.lba s

/-- The wants of some slots. -/
def wantsOf (r : NRead) (slots : List Nat) : List Want := r.wants.filter (fun w => has slots w.slot)

/-- A page read gone. -/
def dropRead (rid : Nat) (s : State) : State := onMedia (fun m => { m with reads := m.reads.filter (fun r => r.rid ≠ rid) }) s

/-- Bits corrected in a converged codeword: the counters, and a rewrite beyond 75 % of HARD_CAP (01 R32, 07 R204). -/
def countBits (r : NRead) (s : State) (bits : Nat) : State :=
  let s := onMedia (fun m => { m with hardOk := inc 32 m.hardOk, maxCorr := max m.maxCorr (sat 16 bits) }) s
  if 4 * bits > 3 * hardCap s then
    scheduleRewrite r.unit 1 (onMedia (fun m => { m with hardHigh := inc 32 m.hardHigh }) s)
  else s

/-- The die of a read that ended, or that climbs to a level of the ladder: it takes what waits for it (07 R200 to R202). -/
def nextOn (unit : Nat) (s : State) : State := settleReads (pumpDie s (unitDie unit))

/-- The slots of one read that its row rebuilds. -/
def rowOf (rid : Nat) (slots : List Nat) : List (Nat × Nat) := slots.map (fun k => (rid, k))

/-- A read that climbs to a level of the ladder with the codewords that are left: its next reads wait for the die as those of the first class (07 R200,
R206). -/
def climb (rid level : Nat) (left : List Nat) (bad : Bool) (ws : List Want) (s : State) : State :=
  onMedia (fun m => { m with reads := m.reads.map (fun x =>
    if x.rid = rid then { x with level := level, left := left, softBad := bad, issued := false, wants := ws } else x) }) s

/-- NAND_READ_COMPLETE: a page read ends and each wanted codeword is hard-decoded; codewords that do not converge climb the
ladder, unless the target has failed (07 R205, R206, R209). -/
def execNandReadComplete (rid : Nat) (words : Polled (List HardDecode)) (row : List Nat) (s : State) : Host.Outcome State Fault Refusal :=
  match s.media.reads.find? (fun r => r.rid = rid) with
  | none => .next s
  | some r =>
    if r.level ≠ 0 ∨ !r.issued ∨ words.result.length ≠ r.left.length then .next s
    else
      let s := rbDisagrees words.rbHigh (unitCh r.unit) (unitTgt r.unit) s
      if !unitUsable s r.unit then
        .next (nextOn r.unit (r.wants.foldl (fun s w => wantRebuilt r (rowOf rid row) w s) (dropRead rid s)))
      else
        let zs := r.left.zip words.result
        let good := zs.filterMap (fun z => match z.2 with
          | .converged _ => some z.1
          | _ => none)
        let bad := zs.filterMap (fun z => match z.2 with
          | .badCheck _ => some z.1
          | _ => none)
        let fail := zs.filterMap (fun z => match z.2 with
          | .failed => some z.1
          | _ => none)
        let bits := zs.filterMap (fun z => match z.2 with
          | .converged b => some b
          | .badCheck b => some b
          | .failed => none)
        let s := bits.foldl (countBits r) s
        let s := bad.foldl (fun s _ => checkFail s) s
        let s := if fail.isEmpty then dropRead rid s
          else climb rid 1 fail false (wantsOf r fail) s
        let s := (wantsOf r good).foldl (fun s w => wantGot r w s) s
        .next (nextOn r.unit ((wantsOf r bad).foldl (fun s w => wantRebuilt r (rowOf rid row) w s) s))

/-- The end of a ladder: a rewrite is scheduled, but not from a read of which a soft decode converged on a wrong check (07 R207,
coincidences). -/
def softEnded (r : NRead) (bad : Bool) (s : State) : State := if bad then s else scheduleRewrite r.unit 2 s

/-- SOFT_DECODE_DONE: a soft decode of the page's codewords ends; the ladder stops when all have converged, climbs, or after level
3 leaves the rest to reconstruction with ERROR 8.4 (07 R205, R206). -/
def execSoftDecodeDone (rid : Nat) (left badCheck : List Nat) (row : List Nat) (s : State) : Host.Outcome State Fault Refusal :=
  match s.media.reads.find? (fun r => r.rid = rid) with
  | none => .next s
  | some r =>
    if r.level = 0 ∨ !r.issued then .next s
    else
      let left := r.left.filter (has left)
      let conv := r.left.filter (fun k => !has left k)
      let bad := conv.filter (has badCheck)
      let good := conv.filter (fun k => !has badCheck k)
      let s := countSoft r.level conv.length (if r.level = 1 then softNeeded r.unit s else s)
      let s := bad.foldl (fun s _ => checkFail s) s
      let wrong := r.softBad || !bad.isEmpty
      let s := if left.isEmpty ∨ r.level ≥ 3 then softEnded r wrong (dropRead rid s)
        else climb rid (r.level + 1) left wrong (wantsOf r left) s
      let s := (wantsOf r good).foldl (fun s w => wantGot r w s) s
      let s := (wantsOf r bad).foldl (fun s w => wantRebuilt r (rowOf rid row) w s) s
      if r.level ≥ 3 ∧ ¬ left.isEmpty then
        let s := left.foldl (fun s _ => unrecovered s) s
        .next (nextOn r.unit ((wantsOf r left).foldl (fun s w => wantRebuilt r (rowOf rid row) w s) s))
      else .next (nextOn r.unit s)

end Sys2Proof.Machine
end

