-- ==== Sys2Proof/Machine/HostIo.lean ====
section
/-! DEFINITION. The I/O commands (04 R103 to R113, 06 R182) and the first steps of a write: tokens, data, admission to the
journal (01 R23 to R25, 05 R134, R138). -/

namespace Sys2Proof.Machine

open Sys2Proof

/-! ### Writes -/

/-- The mode of a host's extent; the mirrored and dual-write bits are set at admission (05 R130). -/
def hostMode (buffered fua dealloc : Bool) : Mode :=
  { buffered := buffered, fua := fua, dealloc := dealloc, mirrored := false, dual := false }

/-- The acknowledgement mode of a write (04 R110). -/
def ackMode (s : State) (p : Port) (nsid : Nat) (fua : Bool) : Bool :=
  !fua && (match nsOf s nsid with
    | some n => bufferedFor s p n
    | none => false)

/-- A write command accepted: stamped, given a sequence, split into extents (01 R22, R23). Its acknowledgement mode is fixed here (DESIGN CHOICE,
log entry 60: 01 R26 does not say whether a write accepted before the first measurement's end changes its mode). -/
def startWrite (h : Hdr) (kind : CmdKind) (nsid slba nlb1 : Nat) (fua dealloc : Bool) (s : State) : State :=
  let (key, s) := newKey s
  let (g, s) := giveGseq h.port s
  let buf := ackMode s h.port nsid fua
  let c : HostCmd := { newCmd key h kind nsid slba nlb1 g s with buffered := buf }
  settle (addExtents c slba (nlb1 + 1) g 0 (hostMode buf fua dealloc) (addCmd c s))

/-- WRITE (01 R22, R23; 04 R103, R109). -/
def execWrite (h : Hdr) (nsid slba nlb1 : Nat) (fua : Bool) (s : State) : Host.Outcome State Fault Refusal :=
  io h (fun s => match refuseIo s h nsid slba (nlb1 + 1) true true with
    | some (t, c, d) => answer h t c d s
    | none => startWrite h .write nsid slba nlb1 fua false s) s

/-- WRITE_ZEROES: the range is deallocated, whatever DEAC says (04 R103, R104). -/
def execWriteZeroes (h : Hdr) (nsid slba nlb1 : Nat) (s : State) : Host.Outcome State Fault Refusal :=
  io h (fun s => match refuseIo s h nsid slba (nlb1 + 1) true false with
    | some (t, c, d) => answer h t c d s
    | none => startWrite h .writeZeroes nsid slba nlb1 false true s) s

/-- The first refusal among the ranges of a Dataset Management command; a range is its first block and its blocks. -/
def refuseRanges (s : State) (h : Hdr) (nsid : Nat) : List (Nat × Nat) → Option (Nat × Nat × Nat)
  | [] => refuseIo s h nsid 0 0 true false
  | (slba, n) :: rest => match refuseIo s h nsid slba n true false with
    | some r => some r
    | none => refuseRanges s h nsid rest

/-- Ranges of a Dataset Management command: each takes a sequence and one extent per hank (04 R104). -/
def dsmRanges (c : HostCmd) : Nat → List (Nat × Nat) → State → State
  | _, [], s => s
  | ext0, (slba, n) :: rest, s =>
    let (g, s) := giveGseq c.port s
    dsmRanges c (ext0 + (pieces (n + 1) slba n).length) rest
      (addExtents c slba n g ext0 (hostMode c.buffered false true) s)

/-- DATASET_MANAGEMENT: attribute AD deallocates up to 256 ranges; other attributes are ignored (04 R103, R104). -/
def execDatasetManagement (h : Hdr) (nsid : Nat) (ad : Bool) (ranges : List (Nat × Nat)) (s : State) :
    Host.Outcome State Fault Refusal :=
  io h (fun s =>
    if ad then
      (match refuseRanges s h nsid (ranges.take 256) with
       | some (t, c, d) => answer h t c d s
       | none =>
         let (key, s) := newKey s
         let c : HostCmd := { newCmd key h .dsm nsid 0 0 s.hx.gseq s with buffered := ackMode s h.port nsid false }
         settle (dsmRanges c 0 (ranges.take 256) (addCmd c s)))
    else match refuseIo s h nsid 0 0 false false with
      | some (t, c, d) => answer h t c d s
      | none => answer h 0 0 0 s) s

/-- FLUSH: completes when every earlier write to the namespace is in medium state (04 R111). -/
def execFlush (h : Hdr) (nsid : Nat) (s : State) : Host.Outcome State Fault Refusal :=
  io h (fun s =>
    match if nsid = 0xFFFFFFFF then none else refuseIo s h nsid 0 0 false false with
    | some (t, c, d) => answer h t c d s
    | none =>
      let (key, s) := newKey s
      settle (addCmd (newCmd key h .flush nsid 0 0 s.hx.gseq s) s)) s

/-! ### Reads -/

/-- A command that reads, accepted. -/
def startReader (h : Hdr) (kind : CmdKind) (nsid slba n : Nat) (s : State) : State :=
  let (key, s) := newKey s
  let c : HostCmd := { newCmd key h kind nsid slba (n - 1) s.hx.gseq s with found := List.replicate n .waiting }
  settleReads (startRead (.cmd key) nsid slba n (addCmd c s))

/-- READ: each block comes from its newest source (01 R30 to R33). -/
def execRead (h : Hdr) (nsid slba nlb1 : Nat) (s : State) : Host.Outcome State Fault Refusal :=
  io h (fun s => match refuseIo s h nsid slba (nlb1 + 1) false true with
    | some (t, c, d) => answer h t c d s
    | none => startReader h .read nsid slba (nlb1 + 1) s) s

/-- VERIFY: reads, decodes, checks and reconstructs as a Read does; transfers nothing (04 R103). -/
def execVerify (h : Hdr) (nsid slba nlb1 : Nat) (s : State) : Host.Outcome State Fault Refusal :=
  io h (fun s => match refuseIo s h nsid slba (nlb1 + 1) false false with
    | some (t, c, d) => answer h t c d s
    | none => startReader h .verify nsid slba (nlb1 + 1) s) s

/-- COMPARE: the newest source against the host's data (04 R113). -/
def execCompare (h : Hdr) (nsid slba nlb1 : Nat) (data : List Blk) (s : State) : Host.Outcome State Fault Refusal :=
  if data.length ≠ nlb1 + 1 then .fault .illFormed
  else io h (fun s => match refuseIo s h nsid slba (nlb1 + 1) false true with
    | some (t, c, d) => answer h t c d s
    | none => startReader h (.compare data) nsid slba (nlb1 + 1) s) s

/-- A fused pair on one block (04 R113, fused outcomes). -/
def fusedPair (h : Hdr) (nsid slba nlb1 : Nat) (data : Blk) (w : FusedWrite) (s : State) : State :=
  if nlb1 ≠ 0 ∨ w.nlb1 ≠ 0 ∨ w.slba ≠ slba ∨ w.nsid ≠ nsid then
    post h.port h.sq w.cid 0 0x09 0 (answer h 0 0x02 0 s)
  else match refuseIo s h nsid slba 1 true true with
    | some (t, c, d) => post h.port h.sq w.cid 0 0x09 0 (answer h t c d s)
    | none =>
      let (key, s) := newKey s
      let (g, s) := giveGseq h.port s
      settleReads (addCmd { newCmd key h (.fused data w) nsid slba 0 g s with found := [.waiting] } s)

/-- FUSED_COMPARE_AND_WRITE (04 R113). -/
def execFusedCompareAndWrite (h : Hdr) (nsid slba nlb1 : Nat) (data : Blk) (second : Option FusedWrite) (s : State) :
    Host.Outcome State Fault Refusal :=
  io h (fun s => match second with
    | none => answer h 0 0x0A 0 s
    | some w => fusedPair h nsid slba nlb1 data w s) s

/-! ### Reservations (04 R103; 05 R130; the rules between commands are NVMe's, log entry 23) -/

/-- A reservation command of a host on a namespace, refused where the namespace is unknown or pending. -/
def resvCmd (h : Hdr) (nsid : Nat) (f : State → State) (s : State) : Host.Outcome State Fault Refusal :=
  io h (fun s => match nsOf s nsid with
    | none => answer h 0 0x0B 0 s
    | some _ =>
      let c := s.ctl.get h.port
      if heldBack c nsid s.hx.stamp then answer h 7 0x81 c.c1.length s else f s) s

/-- This controller's host. -/
def hostIdOf (s : State) (p : Port) : BitVec 128 := (s.ctl.get p).feat.hostId

/-- The registered key of a host. -/
def keyOf (s : State) (nsid : Nat) (id : BitVec 128) : Option (BitVec 64) :=
  (s.resv.find? (fun r => r.nsid = nsid && r.hostId = id)).map (fun r => r.key)

/-- A RESERVATION record (05 R130). -/
def resvRec (nsid : Nat) (id : BitVec 128) (key : BitVec 64) (rtype action : Nat) : JBody :=
  .reservation nsid id key rtype action

/-- The PTPL record that CPTPL asks for: 2 clears, 3 sets. -/
def ptplRec (h : Hdr) (nsid cptpl : Nat) (s : State) : State :=
  if cptpl = 2 then noteFor h.port (resvRec nsid (hostIdOf s h.port) 0#64 0 5) s
  else if cptpl = 3 then noteFor h.port (resvRec nsid (hostIdOf s h.port) 0#64 0 4) s
  else s

/-- RESERVATION_REGISTER: register 0, unregister 1, replace 2 (05 R130). -/
def execReservationRegister (h : Hdr) (nsid rrega : Nat) (iekey : Bool) (cptpl : Nat) (crkey nrkey : BitVec 64) (s : State) :
    Host.Outcome State Fault Refusal :=
  resvCmd h nsid (fun s =>
    let id := hostIdOf s h.port
    let cur := keyOf s nsid id
    let s0 := ptplRec h nsid cptpl s
    match rrega with
    | 0 => (match cur with
      | none => recordFor h .resv nsid 0 (resvRec nsid id nrkey 0 0) s0
      | some k => if k = nrkey then answer h 0 0 0 s0 else answer h 0 0x83 0 s)
    | 1 => (match cur with
      | some k => if iekey || k = crkey then recordFor h .resv nsid 0 (resvRec nsid id k 0 1) s0 else answer h 0 0x83 0 s
      | none => answer h 0 0x83 0 s)
    | 2 => (match cur with
      | some k => if iekey || k = crkey then recordFor h .resv nsid 0 (resvRec nsid id nrkey 0 0) s0 else answer h 0 0x83 0 s
      | none => if iekey then recordFor h .resv nsid 0 (resvRec nsid id nrkey 0 0) s0 else answer h 0 0x83 0 s)
    | _ => answer h 0 0x02 0 s) s

/-- The asynchronous event of a reservation notification (04, log page 80h; NVMe's codes, log entry 23). -/
def resvAen : Aen := { type := 6, info := 0, log := 0x80 }

/-- A reservation notification for a host: 1 registration preempted, 2 reservation released, 3 reservation preempted, on each controller
of that host whose mask of feature 82h lets it through (04, features and log pages; the rules are NVMe's, log entry 23). -/
def resvNotify (nsid type : Nat) (id : BitVec 128) (s : State) : State :=
  [Port.a, Port.b].foldl (fun s p =>
    let c := s.ctl.get p
    if c.feat.hostId ≠ id ∨ ¬ c.en ∨ bit (kvCount c.feat.resvMask nsid) (type - 1) then s
    else postAen p resvAen (setCtl p (fun c => { c with resvLog := c.resvLog ++ [(type, nsid)] }) s)) s

/-- Registrants of a namespace but this host. -/
def otherRegs (s : State) (nsid : Nat) (id : BitVec 128) : List Registrant := s.resv.filter (fun r => r.nsid = nsid && r.hostId ≠ id)

/-- Unregister records for every registrant of a key but this host: what an acquire that preempts writes (05 R130). -/
def preempted (s : State) (nsid : Nat) (id : BitVec 128) (key : BitVec 64) : List Registrant :=
  s.resv.filter (fun r => r.nsid = nsid && r.key = key && r.hostId ≠ id)

/-- A preempt: the registrants of the key are unregistered, every other one for key 0 under types 5 and 6; the reservation is taken over
where its holder's key is named (NVMe's rules, log entry 23). -/
def preempt (h : Hdr) (nsid rtype : Nat) (key prkey : BitVec 64) (s : State) : State :=
  let id := hostIdOf s h.port
  let held := s.hold.find? (fun x => x.nsid = nsid)
  let shared : Bool := match held with
    | some x => x.rtype ≥ 5 && prkey = 0#64
    | none => false
  let takes : Bool := match held with
    | some x => shared || keyOf s nsid x.hostId = some prkey
    | none => false
  let out := if shared then otherRegs s nsid id else preempted s nsid id prkey
  if out.isEmpty && !takes then answer h 0 0x83 0 s
  else
    let s := out.foldl (fun s r => resvNotify nsid 1 r.hostId s) s
    let gone (s : State) (r : Registrant) : State := noteFor h.port (resvRec nsid r.hostId r.key 0 1) s
    if takes then recordFor h .resv nsid 0 (resvRec nsid id key rtype 2) (out.foldl gone s)
    else match out.getLast? with
      | some r => recordFor h .resv nsid 0 (resvRec nsid r.hostId r.key 0 1) (out.dropLast.foldl gone s)
      | none => s

/-- RESERVATION_ACQUIRE: acquire 0, preempt 1, preempt and abort 2 (05 R130). -/
def execReservationAcquire (h : Hdr) (nsid racqa rtype : Nat) (iekey : Bool) (crkey prkey : BitVec 64) (s : State) :
    Host.Outcome State Fault Refusal :=
  resvCmd h nsid (fun s =>
    let id := hostIdOf s h.port
    match keyOf s nsid id with
    | none => answer h 0 0x83 0 s
    | some k =>
      if !iekey && k ≠ crkey then answer h 0 0x83 0 s
      else if rtype = 0 ∨ rtype > 6 then answer h 0 0x02 0 s
      else match racqa with
        | 0 => (match s.hold.find? (fun x => x.nsid = nsid) with
          | none => recordFor h .resv nsid 0 (resvRec nsid id k rtype 2) s
          | some x => if x.hostId = id ∧ x.rtype = rtype then answer h 0 0 0 s else answer h 0 0x83 0 s)
        | 1 | 2 => preempt h nsid rtype k prkey s
        | _ => answer h 0 0x02 0 s) s

/-- RESERVATION_RELEASE: release 0, clear 1 (05 R130). -/
def execReservationRelease (h : Hdr) (nsid rrela rtype : Nat) (iekey : Bool) (crkey : BitVec 64) (s : State) :
    Host.Outcome State Fault Refusal :=
  resvCmd h nsid (fun s =>
    let id := hostIdOf s h.port
    match keyOf s nsid id with
    | none => answer h 0 0x83 0 s
    | some k =>
      if !iekey && k ≠ crkey then answer h 0 0x83 0 s
      else match rrela with
        | 0 => (match s.hold.find? (fun x => x.nsid = nsid) with
          | none => answer h 0 0 0 s
          | some x =>
            if x.hostId ≠ id then answer h 0 0 0 s
            else if x.rtype ≠ rtype then answer h 0 0x02 0 s
            else
              let s := if rtype ≥ 3 then (otherRegs s nsid id).foldl (fun s r => resvNotify nsid 2 r.hostId s) s else s
              recordFor h .resv nsid 0 (resvRec nsid id k rtype 3) s)
        | 1 =>
          let s := (otherRegs s nsid id).foldl
            (fun s r => noteFor h.port (resvRec nsid r.hostId r.key 0 1) (resvNotify nsid 3 r.hostId s)) s
          let s := noteFor h.port (resvRec nsid id k 0 3) s
          recordFor h .resv nsid 0 (resvRec nsid id k 0 1) s
        | _ => answer h 0 0x02 0 s) s

/-- The registrants of a namespace, each with its controller, or 0xFFFF for a host of neither (the layout is NVMe's extended
Reservation Status structure, PRESUMED, log entry 23). -/
def resvReport (s : State) (nsid : Nat) : List Byte :=
  let rs := s.resv.filter (fun r => r.nsid = nsid)
  let held := s.hold.find? (fun x => x.nsid = nsid)
  let rtype := match held with
    | some x => x.rtype
    | none => 0
  le 4 0 ++ le 1 rtype ++ le 2 rs.length ++ zeros 2 ++ le 1 (b2n (has s.ptpl nsid)) ++ zeros 54 ++
  rs.flatMap (fun r =>
    let c := if hostIdOf s .a = r.hostId then 1 else if hostIdOf s .b = r.hostId then 2 else 0xFFFF
    let holds := match held with
      | some x => decide (x.hostId = r.hostId) || x.rtype ≥ 5
      | none => false
    le 2 c ++ le 1 (b2n holds) ++ zeros 5 ++ le 8 r.key.toNat ++ le 16 r.hostId.toNat ++ zeros 32)

/-- RESERVATION_REPORT: returns the reservation state (04 R103). -/
def execReservationReport (h : Hdr) (nsid : Nat) (s : State) : Host.Outcome State Fault Refusal :=
  resvCmd h nsid (fun s => answer h 0 0 0 (emit (.bytes h.port h.sq h.cid (resvReport s nsid)) s)) s

/-! ### Tokens, data and admission -/

/-- Whether an extent waits for its tokens. -/
def wantsTokens (e : Extent) : Bool := e.recno.isNone && e.blks.any (fun b => b.tok = .waiting)

/-- A received extent whose tokens have come: its data leaves the receive buffer (09 R246). -/
def drainBuffer (e : Extent) (s : State) : State :=
  match e.origin with
  | .mirror p l _ => leaveBuffer p l 1 e.rxHeld s
  | .longData p l _ => leaveBuffer p l 2 e.rxHeld s
  | .longParity p l _ => leaveBuffer p l 2 e.rxHeld s
  | _ => s

/-- BUFFER_TOKEN_GRANT: the waiting extent with the earliest stamp is granted one token for each block, if that many are free
(01 R23). -/
def execBufferTokenGrant (s : State) : Host.Outcome State Fault Refusal :=
  match argMin (fun e => e.stamp) (s.exts.filter wantsTokens) with
  | none => .next s
  | some e =>
    if e.blks.length ≤ tokensFree s ∧ ¬ s.safe.stopper ∧ ¬ powerFails s then
      .next (drainBuffer e (setExt e.id (fun e => { e with rxHeld := 0, blks := e.blks.map (fun b => { b with tok := .filling }) }) s))
    else .next s

/-- LOGICAL_BLOCK_ARRIVAL: a block's data arrives in DRAM and its end-to-end check is computed (01 R24). -/
def execLogicalBlockArrival (ext idx : Nat) (blk : Blk) (s : State) : Host.Outcome State Fault Refusal :=
  match extBy s ext with
  | none => .next s
  | some e => match e.blks[idx]? with
    | none => .next s
    | some b =>
      if b.tok = .filling && b.blk.isNone && isHostExt e then
        let m := nsMeta s e.nsid
        let blk : Blk := if m then blk else { blk with hm := zeros 64 }
        .next (settleReads (setExt ext (fun e => { e with blks := modAt e.blks idx (fun b =>
          { b with blk := some blk, check := blockCheck e.nsid (e.slba + idx) m blk }) }) s))
      else .next s

/-- Whether an extent's data and checks are in DRAM (01 R25). -/
def filled (e : Extent) : Bool := e.blks.all (fun b => b.tok = .filling && b.blk.isSome)

/-- Whether the switch of a splice holds new writes to a namespace (10 R298, step 1). -/
def heldBySwitch (s : State) (nsid : Nat) : Bool := match spliceOf s nsid with
  | some p => p.phase = .switching
  | none => false

/-- Whether an earlier extent on the same stripe of a long braid waits for LB_ACK (10 R285, step 1). -/
def stripeBusy (s : State) (e : Extent) : Bool :=
  let l := nsLayout s e.nsid
  l.cross = 5 && isHostExt e && s.exts.any (fun f =>
    f.id ≠ e.id && f.nsid = e.nsid && isHostExt f && f.recno.isSome && f.compRec.isNone &&
    stripeOf l f.slba = stripeOf l e.slba)

/-- Room in the journal for one more open extent (05 R134, R138). -/
def admitRoom (s : State) : Bool :=
  writable s ≥ 2 * (openExts s + 1) + 16384 + 1 && openExts s + 1 ≤ Config.openMax

/-- Whether an extent is the Write of a fused pair. -/
def pairWrite (s : State) (f : Extent) : Bool := match f.origin with
  | .host k => (match cmdBy s k with
    | some c => c.begun
    | none => false)
  | _ => false

/-- Whether an earlier fused pair on a block of an extent is still to end: until its Write's INTENT record no other write to the block is applied
(04 R109, R113). -/
def behindFused (s : State) (e : Extent) : Bool :=
  s.cmds.any (fun c => isFused c && c.nsid = e.nsid && c.gseq < e.gseq && e.slba ≤ c.slba && c.slba ≤ e.slba + e.nlb1) ||
  s.exts.any (fun f => pairWrite s f && f.recno.isNone && f.gseq < e.gseq && shares e f)

/-- Whether an extent is ready for its INTENT record, but for journal room. -/
def readyToAdmit (s : State) (e : Extent) : Bool :=
  e.recno.isNone && filled e && s.jrnl.state = 4 && !s.safe.stopper && s.flush.isNone &&
  !(isHostExt e && heldBySwitch s e.nsid) && !stripeBusy s e && !behindFused s e

/-- The XOR of an extent's checks (05 R130). -/
def checkFold (e : Extent) : Check := e.blks.foldl (fun c b => c ^^^ b.check) 0#64

/-- The INTENT record of an extent (05 R130). -/
def intentRec (e : Extent) : JRec :=
  { recno := 0, gseq := e.gseq, carried := false, replayed := false, ctrl2 := isHostExt e && e.port = .b,
    body := .intent e.nsid e.slba e.nlb1 e.ext e.mode e.layout (checkFold e) e.stamp }

/-- An extent as it is admitted: its layout, and whether it is mirrored or dual-written (05 R130, 10 R294, R298). -/
def atAdmission (s : State) (e : Extent) : Extent :=
  if isHostExt e then
    let l := nsLayout s e.nsid
    let dual := match spliceOf s e.nsid with
      | some p => dualWrites s p (e.slba / 32)
      | none => false
    { e with layout := l.id, mode := { e.mode with mirrored := isMirror l && isHome s e.nsid, dual := dual } }
  else e

/-- The INTENT record written; the blocks are accepted, which may trigger a checkpoint (05 R130, R135). -/
def admitExt (e : Extent) (s : State) : State :=
  let e := atAdmission s e
  let (n, s) := journal (intentRec e) s
  let s := setExt e.id (fun x => { e with recno := some n, blks := x.blks }) s
  let acc := s.jrnl.accepted + e.nlb1 + 1
  let s := onJrnl (fun j => { j with accepted := acc }) s
  if acc ≥ 2 ^ 20 then trigger 0 s else s

/-- INTENT_ADMIT: the extent's check is verified and its INTENT record is written (01 R25, R29). While the journal has no room it
waits, with NOTICE 4.4 at most once per second (05 R138). -/
def execIntentAdmit (ext : Nat) (checksOk : Bool) (s : State) : Host.Outcome State Fault Refusal :=
  match extBy s ext with
  | none => .next s
  | some e =>
    if !readyToAdmit s e then .next s
    else if !checksOk then .next (settleReads (settle (journalCheckFailed e s)))
    else if !admitRoom s then .next (raiseEvery (evKey 4 4) 1 4 4 0 0 s)
    else .next (settleReads (admitExt e s))

end Sys2Proof.Machine
end

