-- ==== Sys2Proof/Machine/Splices.lean ====
section
/-! DEFINITION. Splices and repairs at their driver (10 R289 to R306): Splice Control and Splice Status, BUILD, VERIFY, SWITCH
and RELEASE, and what a durable SPLICE_PHASE record does. -/

namespace Sys2Proof.Machine

open Sys2Proof

/-! ### Who builds (10 R290, R291) -/

/-- Whether a brick in both layouts keeps its copy: the same hanks in the same local part. -/
def keepsCopy (old new : Layout) (posOld posNew : Nat) : Bool :=
  if old.cross = 5 || new.cross = 5 then
    old.cross = 5 && new.cross = 5 && old.k = new.k && old.m = new.m && old.loc = new.loc && posOld = posNew
  else old.loc = new.loc

/-- The position of a node in a layout. -/
def posOf (l : Layout) (node : Nat) : Option Nat := l.nodes.findIdx? (fun n => n = node)

/-- Whether this brick's own local part or share changes: a local splice (10 R289). -/
def isLocalRun (old new : Layout) : Bool := !keepsCopy old new old.pos new.pos

/-- The builders of a splice, as peer entries (10 R290). -/
def buildersOf (s : State) (old new : Layout) : List Nat :=
  ((new.nodes.filter (fun n => n ≠ myNode s && n ≠ 0)).filter (fun n =>
    match posOf old n, posOf new n with
    | some a, some b => !keepsCopy old new a b
    | _, _ => true)).filterMap (entryOf s)

/-- Blocks that a builder reserves: A × E × V (10 R291). -/
def reserveBlocks (a : Nat) (l : Layout) : Nat :=
  let e := match l.loc with
    | 2 => a * 15 / 14
    | 3 => a * 15 / 8
    | 4 => a * 3
    | _ => a
  if l.cross = 5 then e / max l.k 1 else e

/-- Whether a reservation fits: F less the other reservations is at least 1.02 times the amount (10 R291). -/
def fits (s : State) (blocks : Nat) : Bool := freeBytes s * 100 ≥ blocks * 4096 * 102

/-- Entries of the hank table (06 R155). -/
def tableEntries (s : State) : Nat := unitsFitted s * (geo s).pagesNative * slotsPerPage s * 4096 / 131072

/-- Hanks of a namespace as its hosts see it. -/
def hanksOf (s : State) (nsid : Nat) : Nat := match nsOf s nsid with
  | some n => ceilDiv n.size 32
  | none => 0

/-! ### Phases -/

/-- The SPLICE_PHASE record of a splice (05 R130). -/
def phaseRec (p : Splice) (ph : SPhase) (s : State) : State :=
  note (.splicePhase p.id ph p.nsid p.old p.new none (some p.progress)) s

/-- A splice enters a phase: its record, and INFO 11.0. -/
def enterPhase (id : Nat) (ph : SPhase) (s : State) : State :=
  match s.braid.splices.find? (fun p => p.id = id) with
  | none => s
  | some p => raise 11 0 p.id p.nsid (phaseRec p ph (setSplice id (fun p => { p with phase := ph }) s))

/-- A splice gone from the list, with what it was reading. -/
def dropSplice (id : Nat) (s : State) : State :=
  onBraid (fun b => { b with splices := b.splices.filter (fun p => p.id ≠ id) }) (dropHankReads id s)

/-- A message of a splice to a peer. -/
def spliceMsg (op arg nsid slba : Nat) (p : Splice) (b : MBody) : Msg :=
  { op := op, status := 0, head := { head0 with nsid := nsid, slba := slba, layout := p.new }, arg := arg, body := b }

/-- SPLICE_PHASE sent to a peer: the phase code and the driver's next sequence (10 R288). -/
def phaseCode : SPhase → Nat
  | .prepare => 1
  | .build => 2
  | .verify => 3
  | .switch => 4
  | .release => 5
  | .aborted => 6
  | .paused => 7
  | .switching => 8

def sendPhase (p : Splice) (ph : SPhase) (s : State) (entry : Nat) : State :=
  let tag := (linkFor s entry 0).bind (fun l => (linkBy s l.1 l.2).map (fun k => (l.1, l.2, k.tag)))
  let s := setSplice p.id (fun p => { p with phaseTags := p.phaseTags ++ tag.toList }) s
  sendTo entry 0 (spliceMsg 0x29 (p.id + 256 * phaseCode ph) p.nsid 0 p (.args (le 8 s.hx.gseq))) s

/-- PREPARE ends: every builder has reserved. START completes, and the splice enters BUILD. -/
def prepareDone (id : Nat) (s : State) : State :=
  match s.braid.splices.find? (fun p => p.id = id) with
  | none => s
  | some p =>
    if p.phase = .prepare ∧ p.builders.all (has p.reserved) then
      let s := match p.cmd.bind (cmdBy s) with
        | some c => finish c 0 0 p.id s
        | none => s
      enterPhase id .build (setSplice id (fun p => { p with cmd := none }) s)
    else s

/-- A splice refused in PREPARE: START completes with 7h/85h. -/
def prepareRefused (id reason : Nat) (s : State) : State :=
  match s.braid.splices.find? (fun p => p.id = id) with
  | none => s
  | some p =>
    let s := match p.cmd.bind (cmdBy s) with
      | some c => finish c 7 0x85 reason s
      | none => s
    onBraid (fun b => { b with lastRefusal := kvPut b.lastRefusal p.nsid reason }) (phaseRec p .aborted (dropSplice id s))

/-! ### Content -/

/-- The block record of a block as this brick holds it, in DRAM or on the medium (10 R288, R297; log entry 68). -/
def blockRec (s : State) (nsid lba : Nat) : BlockRec :=
  match dramBlock s nsid lba with
  | some (b, g) => recordOf s nsid lba g (.got b) false
  | none => match look s nsid lba with
    | .mapped a => (match slotAt s a with
      | some k => if k.lost then recordOf s nsid lba k.gseq .lost false else recordOf s nsid lba k.gseq (.got k.blk) false
      | none => recordOf s nsid lba 0 .lost false)
    | .unmapped => recordOf s nsid lba 0 (.got zeroBlk) true
    | .bad => recordOf s nsid lba 0 .lost false

/-- A map entry read for a fold: an invalid one raises DANGER 5.21 (06 R155). -/
def readEntry (h : Nat) (s : State) : State := match kvGet s.map.hanks h with
  | some .invalid => danger 5 21 0 s
  | _ => s

/-- The blocks of a hank of a namespace, up to its SIZE. -/
def hankLbas (s : State) (nsid h : Nat) : List Nat :=
  let size := match nsOf s nsid with
    | some n => n.size
    | none => 0
  ((List.range 32).map (fun i => 32 * h + i)).filter (fun l => l < size)

/-- A fold: the XOR of the checks; a LOST block's record already carries the complement (10 R297). -/
def foldOf (rs : List BlockRec) : Check := rs.foldl (fun c r => c ^^^ r.check) 0#64

/-- Parity hank i of a stripe, from the records of its data blocks; its sequence is that of the newest of them, and a block with a lost input is lost
(10 R276, R284). -/
def parityRecs (s : State) (l : Layout) (nsid stripe i : Nat) (at_ : Nat → Option BlockRec) : List BlockRec :=
  (List.range 32).map (fun t =>
    let rs := (List.range l.k).map (fun d => at_ (32 * (stripe * l.k + d) + t))
    let lba := 2 ^ 39 + i * 2 ^ 36 + 32 * stripe + t
    let g := rs.foldl (fun g r => max g (match r with
      | some r => r.gseq
      | none => 0)) 0
    if rs.any (fun r => match r with
        | some r => r.lost
        | none => false) then recordOf s nsid lba g .lost false
    else recordOf s nsid lba g (.got (parityBlk i (rs.map (fun r => match r with
      | some r => r.blk
      | none => zeroBlk)))) false)

/-- A hank of the new layout that a hank's copy goes to: its first LBA, the builders that hold it, and whether this brick builds it. -/
structure HankPart where
  base  : Nat
  peers : List Nat
  here  : Bool

/-- Where the new layout holds a hank: the data hank, and where it is due the parity of its stripe (10 R283, R290, R293). -/
def hankParts (s : State) (p : Splice) (h : Nat) (parity : Bool) : List HankPart :=
  let l := (layoutBy s p.new).getD (layout0 s)
  if l.cross = 5 then
    let n := max (l.k + l.m) 1
    let st := h / max l.k 1
    let part (base pos : Nat) : HankPart :=
      { base := base, peers := (entryAt s l pos).toList.filter (has p.builders), here := p.localRun && decide (pos = l.pos) }
    part (32 * h) ((st + h % max l.k 1) % n) ::
      (if parity then (List.range l.m).map (fun i => part (2 ^ 39 + i * 2 ^ 36 + 32 * st) ((st + l.k + i) % n)) else [])
  else [{ base := 32 * h, peers := p.builders, here := p.localRun }]

/-- Whether the parity of a hank's stripe goes with it: a new long braid's, with the last data hank of the stripe, and with every recopy (10 R293,
R294). -/
def parityDue (s : State) (p : Splice) (h : Nat) (again : Bool) : Bool :=
  let l := (layoutBy s p.new).getD (layout0 s)
  l.cross = 5 && (again || h % max l.k 1 = l.k - 1 || h + 1 = hanksOf s p.nsid)

/-- Whether a read takes in the whole stripe. -/
def withParity (s : State) (p : Splice) (r : HankRead) : Bool := r.lbas.length > (hankLbas s p.nsid r.hank).length

/-- The record that a read got of a block. -/
def hankRec (r : HankRead) (lba : Nat) : Option BlockRec :=
  ((r.lbas.zip r.recs).find? (fun x => x.1 = lba)).bind (fun x => x.2)

/-- The records of a part of a hank that has been read. -/
def partRecs (s : State) (p : Splice) (r : HankRead) (base : Nat) : List BlockRec :=
  if base ≥ 2 ^ 39 then
    let l := (layoutBy s p.new).getD (layout0 s)
    parityRecs s l p.nsid (base % 2 ^ 36 / 32) ((base - 2 ^ 39) / 2 ^ 36) (hankRec r)
  else (hankLbas s p.nsid (base / 32)).filterMap (hankRec r)

/-- Block records sent to a builder, within the payload limit (09 R239, 10 R288). -/
def sendRecs (op : Nat) (p : Splice) (slba : Nat) (rs : List BlockRec) (s : State) (entry : Nat) : State :=
  let n := if nsMeta s p.nsid then 1 else 2
  ((chunks n (rs.length + 1) rs).zipIdx).foldl (fun s c =>
    let m := spliceMsg op p.id p.nsid (slba + n * c.2) p (.recs c.1)
    sendTo entry (hankOf s p.nsid slba) { m with head := { m.head with nlb1 := c.1.length - 1 } } s) s

/-! ### The splice run (10 R292) -/

/-- What waits for a hank of the splice run, in the order of its blocks. -/
def waitsFor (s : State) (h : Nat) : List RunWait := s.braid.runWaits.filter (fun w => moveHank s w.nsid w.lba .splice = h)

/-- A block as a slot of the run, with its MAP_UPDATE of kind 7. -/
def runSlot (s : State) (w : RunWait) (new : MAddr) : Slot × Option PItem :=
  let old := nth (hankBlocks s (moveHank s w.nsid w.lba .splice)) (w.lba % 32) none
  (dataSlot s w.nsid w.lba w.rec_.gseq w.new new.set new.block w.rec_.lost false false w.rec_.blk, some (.move w.nsid w.lba .splice old new))

/-- Mapped blocks written to the splice run under the new layout: a whole hank in a hank slot of the relocation set, else as strands of the hot set; none
where there is no room. -/
def copyRun (layout : Nat) (ws : List RunWait) (s : State) : Option State :=
  let whole := ws.length = 32
  if ws.isEmpty then some s
  else match takeRun (geo s).cell (if whole then 3 else 2) layout ws.length whole (!whole) false s with
    | none => none
    | some (i, b, s) => some (appendRun i (ws.zipIdx.map (fun w => runSlot s w.1 { set := i, block := b + w.2 })) s)

/-- What waits for a hank of the run, written: an UNMAPPED record unmaps its block (10 R293). While another change of the hank is under way, or there is
no room, it goes on waiting (06 R166). -/
def drainHank (s : State) (h : Nat) : State :=
  let ws := waitsFor s h
  if hankBusy s h 0 then s
  else match ws.head?.bind (fun w => copyRun w.new (ws.filter (fun w => !w.rec_.unmapped)) s) with
    | none => s
    | some t =>
      let t := (ws.filter (fun w => w.rec_.unmapped)).foldl (fun t w => unmapBlock h (w.lba % 32) t) t
      onBraid (fun b => { b with runWaits := b.runWaits.filter (fun w => !ws.contains w) }) t

/-- Everything that waits for the splice run, written as far as it can be. -/
def drainRuns (s : State) : State := (distinct (s.braid.runWaits.map (fun w => moveHank s w.nsid w.lba .splice))).foldl drainHank s

/-- Records put into the splice run; a newer one takes the place of one that waits. -/
def intoRun (nsid new slba : Nat) (recs : List BlockRec) (s : State) : State :=
  let ws := recs.zipIdx.map (fun x => ({ nsid := nsid, new := new, lba := slba + x.2, rec_ := x.1 } : RunWait))
  let keep (w : RunWait) : Bool := !(w.nsid = nsid && slba ≤ w.lba && w.lba < slba + recs.length)
  drainRuns (onBraid (fun b => { b with runWaits := b.runWaits.filter keep ++ ws }) s)

/-- A copy on its way to the medium. -/
def flyingSlot (s : State) (nsid new lba : Nat) : Option Slot :=
  let placed := (ahead s).filterMap (fun r => match r.body with
    | .mapUpdate n l _ .splice _ a => if n = nsid && l = lba then slotAt s a else none
    | _ => none)
  argMax (fun k => k.gseq) ((s.media.progs.flatMap (fun p => p.slots) ++ s.map.sets.flatMap (fun e => e.row.map (fun x => x.1)) ++ placed).filter (fun k =>
    decide (k.nsid = nsid ∧ k.lba = lba ∧ k.layout = new)))

/-- The newest content of a block of the splice run: what waits for it, what is on its way, or what is mapped. -/
def runRec (s : State) (nsid new lba : Nat) : BlockRec :=
  let ofSlot (k : Slot) : BlockRec := recordOf s nsid lba k.gseq (if k.lost then .lost else .got k.blk) false
  match s.braid.runWaits.find? (fun w => w.nsid = nsid && w.lba = lba), flyingSlot s nsid new lba with
  | some w, _ => w.rec_
  | none, some k => ofSlot k
  | none, none => match lookHank s (moveHank s nsid lba .splice) (lba % 32) with
    | .mapped a => (match slotAt s a with
      | some k => ofSlot k
      | none => recordOf s nsid lba 0 .lost false)
    | .unmapped => recordOf s nsid lba 0 (.got zeroBlk) true
    | .bad => recordOf s nsid lba 0 .lost false

/-- The blocks of a hank that a fold takes in: up to SIZE, and all of a parity hank (10 R297). -/
def foldLbas (s : State) (nsid base : Nat) : List Nat :=
  if base ≥ 2 ^ 39 then (List.range 32).map (fun i => base + i) else hankLbas s nsid (base / 32)

/-- The fold of a hank of the splice run. -/
def runFold (s : State) (nsid new base : Nat) : Check := foldOf ((foldLbas s nsid base).map (runRec s nsid new))

/-- Whether nothing of a namespace is on its way into the splice run. -/
def runQuiet (s : State) (nsid : Nat) : Bool :=
  let moves : PItem → Bool := fun i => match i with
    | .move n _ k _ _ => n = nsid && decide (k = .splice)
    | .ext .. => false
  !(s.braid.runWaits.any (fun w => w.nsid = nsid) || s.media.progs.any (fun p => p.items.any moves) ||
    s.map.sets.any (fun e => e.row.any (fun x => match x.2 with
      | some i => moves i
      | none => false)) ||
    (ahead s).any (fun r => match r.body with
      | .mapUpdate n _ _ k _ _ => n = nsid && decide (k = .splice)
      | _ => false))

/-- The splice run given up: what waits for it is dropped, and its entries are unmapped (10 R300, R302). -/
def dropRun (s : State) : State :=
  let s := onBraid (fun b => { b with runWaits := [] }) s
  (s.map.hanks.filter (fun e => e.1 ≥ spliceRun s)).foldl (fun s e => unmapHank e.1 s) s

/-! ### BUILD and VERIFY -/

/-- Whether frames held for a peer in a tie-off are not yet acknowledged (10 R296, R304). -/
def owesFrames (s : State) (entry : Nat) : Bool := (linksTo s entry).any (fun l => match linkBy s l.1 l.2 with
  | some k => k.sent.any (fun e => e.resent || e.due)
  | none => false)

/-- The read of a hank that a splice waits for. -/
def hankRead (s : State) (id : Nat) : Option HankRead := s.braid.hankReads.find? (fun r => r.splice = id)

/-- The read of a hank begun, from its newest source as 01 R30 has it (10 R293, R297). -/
def startHank (p : Splice) (h : Nat) (copy fold again : Bool) (s : State) : State :=
  let l := (layoutBy s p.new).getD (layout0 s)
  let lbas := if parityDue s p h again then (List.range l.k).flatMap (fun d => hankLbas s p.nsid (h / max l.k 1 * l.k + d)) else hankLbas s p.nsid h
  let (key, s) := newKey s
  let r : HankRead := { key := key, splice := p.id, hank := h, copy := copy, fold := fold, lbas := lbas, recs := List.replicate lbas.length none }
  lbas.zipIdx.foldl (fun s x => startBlock (.splice key) p.nsid x.2 x.1 s) (onBraid (fun b => { b with hankReads := b.hankReads ++ [r] }) s)

/-- A dirty hank read again: its bit is cleared as the copy reads it (10 R294). -/
def startAgain (p : Splice) (h : Nat) (fold : Bool) (s : State) : State :=
  startHank p h true fold true (setSplice p.id (fun p => { p with dirty := p.dirty.filter (fun d => d ≠ h) }) s)

/-- A hank that has been read, copied to wherever the new layout holds it; a repair sends RECOPY (10 R293, R304). -/
def copyOut (p : Splice) (r : HankRead) (s : State) : State :=
  (hankParts s p r.hank (withParity s p r)).foldl (fun s x =>
    let rs := partRecs s p r x.base
    x.peers.foldl (sendRecs (if p.repair then 0x2B else 0x27) p x.base rs) (if x.here then intoRun p.nsid p.new x.base rs s else s)) s

/-- A difference found in VERIFY: the hank is dirty; the third in one hank pauses the splice with ERROR 11.4 (10 R297). -/
def foldDiffers (id h : Nat) (s : State) : State :=
  match s.braid.splices.find? (fun p => p.id = id) with
  | none => s
  | some p =>
    let n := kvCount p.diffAt h + 1
    let s := setSplice id (fun p => { p with dirty := insNat p.dirty h, diffs := inc 32 p.diffs, diffAt := kvPut p.diffAt h n }) s
    if n ≥ 3 then
      raise 11 4 p.id p.nsid (phaseRec p .paused
        (setSplice id (fun p => { p with phase := .paused, left := .verify, paused2 := true, diffAt := kvPut p.diffAt h 0 }) (dropHankReads id s)))
    else s

/-- A hank that has been read, compared: builders are asked for their folds, and what this brick has built is compared at once (10 R297). -/
def askFolds (p : Splice) (r : HankRead) (s : State) : State :=
  (hankParts s p r.hank (withParity s p r)).foldl (fun s x =>
    let f := foldOf (partRecs s p r x.base)
    let s := setSplice p.id (fun q => { q with folds := q.folds ++ x.peers.map (fun b => (b, x.base, [f])) }) s
    let s := x.peers.foldl (fun s b => sendTo b (hankOf s p.nsid x.base) (spliceMsg 0x28 (p.id + 256) p.nsid x.base p .none) s) s
    if x.here && runFold s p.nsid p.new x.base ≠ f then foldDiffers p.id r.hank s else s) s

/-- What follows once a hank has been read: it is copied, compared, or both; PROGRESS, the hanks verified and those that a repair has still to compare are
kept, and a record follows every 4 096 hanks (10 R293, R297, R304). -/
def finishHank (id : Nat) (s : State) : State :=
  match s.braid.splices.find? (fun p => p.id = id), hankRead s id with
  | some p, some r =>
    if r.recs.all Option.isSome then
      let s := onBraid (fun b => { b with hankReads := b.hankReads.filter (fun v => v.key ≠ r.key) }) s
      let s := if r.copy then copyOut p r s else s
      let s := if r.copy && r.hank = p.progress && p.phase = .build then
          let s := setSplice id (fun p => { p with progress := p.progress + 1 }) s
          if (p.progress + 1) % 4096 = 0 then phaseRec { p with progress := p.progress + 1 } .build s else s
        else s
      let s := if r.copy && !r.fold && p.repair then setSplice id (fun p => { p with again := insNat p.again r.hank }) s else s
      if !r.fold then s
      else
        let s := if !r.copy && !p.repair then setSplice id (fun p => { p with verified := p.verified + 1 }) s else s
        askFolds p r s
    else s
  | _, _ => s

/-- SPLICE_BUILD: the next hank from PROGRESS, or past the last one a dirty hank, is read and copied, in this row or, where its source has to be read, in
a later one; BUILD ends when PROGRESS is past the last hank and the bitmap is empty (10 R293, splice states; log entry 78). -/
def execSpliceBuild (id : Nat) (s : State) : Host.Outcome State Fault Refusal :=
  match s.braid.splices.find? (fun p => p.id = id) with
  | none => .next s
  | some p =>
    if p.phase ≠ .build ∨ s.map.state ≠ 3 ∨ s.safe.stopper ∨ ¬ partRuns s 3 ∨ ¬ p.builders.all (peerUp s) then .next s
    else
      let total := hanksOf s p.nsid
      let s := finishHank id (if (hankRead s id).isSome then s
        else if p.progress < total then startHank p p.progress true false false s
        else match p.dirty with
          | h :: _ => if p.builders.any (owesFrames s) then s else startAgain p h false s
          | [] => s)
      match s.braid.splices.find? (fun p => p.id = id) with
      | none => .next s
      | some q =>
        if q.progress ≥ total ∧ q.dirty.isEmpty ∧ (hankRead s id).isNone then .next (enterPhase id .verify s) else .next s

/-- Whether VERIFY has ended (10 R297); a repair compares only what it recopied (10 R304). -/
def verifyEnded (s : State) (p : Splice) : Bool :=
  p.phase = .verify && p.dirty.isEmpty && p.folds.isEmpty && (hankRead s p.id).isNone &&
  (if p.repair then p.again.isEmpty else p.verified ≥ hanksOf s p.nsid)

/-- Whether a switch has drained (10 R298, step 2). -/
def drained (s : State) (p : Splice) : Bool :=
  p.builders.all (peerUp s) && p.dirty.isEmpty && (!p.localRun || runQuiet s p.nsid) &&
  !s.exts.any (fun e => e.nsid = p.nsid && (!e.builders.isEmpty ||
    ((nsLayout s p.nsid).cross = 5 && isHostExt e && !e.waitOn.isEmpty)))

/-- A switch that has drained: the SWITCH record is written (10 R298, step 3). -/
def trySwitch (id : Nat) (s : State) : State :=
  match s.braid.splices.find? (fun p => p.id = id) with
  | none => s
  | some p =>
    if p.phase = .switching ∧ drained s p ∧ s.jrnl.runNum.isNone then
      let r := jrec s.hx.gseq (.splicePhase p.id .switch p.nsid p.old p.new none (some p.progress))
      let (n, s) := journal r s
      let s := match p.cmd with
        | some c => setCmd c (fun c => { c with waitRec := some n }) s
        | none => s
      setSplice id (fun p => { p with phase := .switch, cmd := none }) s
    else s

/-- Every switch that may have drained. -/
def trySwitches (s : State) : State := (s.braid.splices.map (fun p => p.id)).foldl (fun s i => trySwitch i s) s

/-- VERIFY ended: a repair and AUTO_SWITCH go on to SWITCHING (splice states, 10 R304). -/
def afterVerify (id : Nat) (s : State) : State :=
  match s.braid.splices.find? (fun p => p.id = id) with
  | none => s
  | some p =>
    if verifyEnded s p then
      (if p.auto || p.repair then trySwitch id (setSplice id (fun p => { p with phase := .switching, ready := true }) s)
       else setSplice id (fun p => { p with ready := true }) s)
    else s

/-- SPLICE_VERIFY: a dirty hank is recopied and compared again, or the next copied hank is read and compared; a repair compares what it recopied (10 R297,
R304; log entry 78). -/
def execSpliceVerify (id : Nat) (s : State) : Host.Outcome State Fault Refusal :=
  match s.braid.splices.find? (fun p => p.id = id) with
  | none => .next s
  | some p =>
    if p.phase = .switching then .next (trySwitch id s)
    else if p.phase ≠ .verify ∨ s.map.state ≠ 3 ∨ s.safe.stopper ∨ ¬ partRuns s 3 ∨ ¬ p.builders.all (peerUp s) then .next s
    else
      let s := if (hankRead s id).isSome then s else match p.dirty with
        | h :: _ => if p.builders.any (owesFrames s) then s else startAgain p h true s
        | [] =>
          if p.repair then (match p.again with
            | h :: rest => startHank p h false true true (setSplice id (fun p => { p with again := rest }) s)
            | [] => s)
          else if p.verified < hanksOf s p.nsid then startHank p p.verified false true false s else s
      .next (afterVerify id (finishHank id s))

/-- SWITCH_TIMEOUT: 10 s without draining; the splice returns to the end of VERIFY, NOTICE 11.14, and held writes are admitted
under the old layout (10 R298). -/
def execSwitchTimeout (id : Nat) (s : State) : Host.Outcome State Fault Refusal :=
  match s.braid.splices.find? (fun p => p.id = id) with
  | none => .next s
  | some p =>
    if p.phase ≠ .switching then .next s
    else
      let s := match p.cmd.bind (cmdBy s) with
        | some c => finish c 7 0x85 12 (onBraid (fun b => { b with lastRefusal := kvPut b.lastRefusal p.nsid 12 }) s)
        | none => s
      .next (raise 11 14 p.id p.nsid (setSplice id (fun p => { p with phase := .verify, cmd := none, ready := true, auto := false }) s))

/-! ### After the SWITCH record (10 R292, R298 to R301) -/

/-- The place of a logical hank: its namespace and offset, or the splice run. -/
def runPlace (s : State) (h : Nat) : Option Nat × Nat :=
  match s.prm.namespaces.find? (fun n => nsFirst s n.nsid ≤ h ∧ h < nsFirst s n.nsid + nsHanks s n) with
  | some n => (some n.nsid, h - nsFirst s n.nsid)
  | none => (none, h - spliceRun s)

/-- The logical hank of a place. -/
def runHank (s : State) (x : Option Nat × Nat) : Nat := match x.1 with
  | some n => nsFirst s n + x.2
  | none => spliceRun s + x.2

/-- The entries of a namespace's run and of the splice run exchanged, heat included, as the layout changes (10 R292). -/
def exchangeRuns (nsid new : Nat) (swap : Bool) (s : State) : State :=
  let t := onBraid (fun b => { b with layoutOf := kvPut b.layoutOf nsid new }) s
  let move (h : Nat) : Nat :=
    let x := runPlace s h
    runHank t (if swap then (if x.1 = some nsid then (none, x.2) else if x.1 = none then (some nsid, x.2) else x) else x)
  onMap (fun m => { m with
    hanks := m.hanks.foldl (fun l e => kvPut l (move e.1) e.2) [],
    heat := m.heat.foldl (fun l e => kvPut l (move e.1) e.2) [] }) t

/-- A durable SWITCH record: the new layout is authoritative, held writes are admitted under it, the members are told (10 R298,
R299). A repair makes the copy current again, INFO 11.13 (10 R304). -/
def switchDurable (p : Splice) (s : State) : State :=
  if p.repair then
    let ls := p.builders.flatMap (linksTo s)
    let s := ls.foldl (fun s l => setLink l.1 l.2 (fun k => { k with stale := k.stale.filter (fun n => n ≠ p.nsid) }) s) s
    raise 11 13 p.id p.nsid (dropSplice p.id s)
  else
    let s := exchangeRuns p.nsid p.new p.localRun s
    let s := setSplice p.id (fun p => { p with phase := .release, told := [] }) s
    let l := (layoutBy s p.new).getD (layout0 s)
    raise 11 5 p.id p.nsid ((others s l).foldl (sendPhase p .switch) s)

/-- A durable ABORTED record: builders are told, and the splice run is unmapped, NOTICE 11.7 (10 R302). -/
def abortDurable (p : Splice) (s : State) : State :=
  let s := if p.localRun then dropRun s else s
  raise 11 7 p.id p.nsid (dropSplice p.id (p.builders.foldl (sendPhase p .aborted) s))

/-- SPLICE_PREPARE sent to every builder once the PREPARE record is durable; with no builder PREPARE ends (10 R291). -/
def prepareDurable (p : Splice) (s : State) : State :=
  let a := match nsOf s p.nsid with
    | some n => nsMapped s n
    | none => 0
  let l := (layoutBy s p.new).getD (layout0 s)
  prepareDone p.id (p.builders.foldl (fun s b =>
    sendTo b 0 (spliceMsg 0x25 p.id p.nsid 0 p (.args (le 8 (reserveBlocks a l * 4096)))) s) s)

/-- A member's durable SWITCH record: the new layout is in force here too; what was built in the splice run takes the place of the
namespace's run (10 R292, R298). -/
def memberSwitched (nsid new : Nat) (s : State) : State :=
  exchangeRuns nsid new (s.braid.reserves.any (fun r => r.nsid = nsid && r.run)) s

/-- What a durable SPLICE_PHASE record does, at the driver and at a member. -/
def phaseDurable (id : Nat) (ph : SPhase) (nsid new : Nat) (s : State) : State :=
  match s.braid.splices.find? (fun p => p.id = id && p.nsid = nsid) with
  | none => if ph = .switch then memberSwitched nsid new s else s
  | some p => match ph with
    | .prepare => if p.phase = .prepare then prepareDurable p s else s
    | .switch => if p.phase = .switch then switchDurable p s else s
    | .aborted => if p.phase = .aborted then abortDurable p s else s
    | _ => s

/-- SPLICE_RELEASE: the old entries in the splice run are unmapped, RELEASE is sent to the bricks of the old layout that are not in
the new one, and the RELEASE record reports that no hank is left, INFO 11.6 (10 R300). It waits until every member of the new
layout has acknowledged the switch (10 R299), and builders hear of the end, which ends their reservations (log entry 34). -/
def execSpliceRelease (id : Nat) (s : State) : Host.Outcome State Fault Refusal :=
  match s.braid.splices.find? (fun p => p.id = id) with
  | none => .next s
  | some p =>
    let new := (layoutBy s p.new).getD (layout0 s)
    let old := (layoutBy s p.old).getD (layout0 s)
    if p.phase ≠ .release then .next s
    else if !(others s new).all (has p.told) then
      .next (((others s new).filter (fun e => !has p.told e)).foldl (sendPhase p .switch) s)
    else
      let s := if p.localRun then dropRun s else s
      let gone := (others s old).filter (fun e => !has (others s new) e)
      let s := gone.foldl (fun s e => sendTo e 0 (spliceMsg 0x2A 0 p.nsid 0 p .none) s) s
      let s := p.builders.foldl (sendPhase p .release) s
      .next (resizeSlc (raise 11 6 p.id p.nsid
        (dropSplice id (phaseRec { p with progress := hanksOf s p.nsid } .release s))))

/-! ### Splice Control and Splice Status (10 R305, R306) -/

/-- A refusal: 7h/85h with the reason, kept for Splice Status. -/
def refuseSplice (h : Hdr) (nsid reason : Nat) (s : State) : State :=
  answer h 7 0x85 reason (onBraid (fun b => { b with lastRefusal := kvPut b.lastRefusal nsid reason }) s)

/-- The next SPLICE_ID: 1 to 255 in turn, skipping those that a live record uses (10 R289). -/
def freeId (s : State) : Nat → Nat → Nat
  | 0, n => n
  | fuel + 1, n =>
    let n := if n > 255 then 1 else n
    if s.braid.splices.any (fun p => p.id = n) || s.jrnl.recs.any (fun r => match r.body with
        | .splicePhase i ph _ _ _ _ _ => i = n && ph ≠ .aborted
        | _ => false) then freeId s fuel (n + 1) else n

/-- Why START is refused (10 R289 to R292, refusal reasons); log entry 23 fixes the order. -/
def startRefusal (s : State) (n : NsEntry) (new : Nat) : Option Nat :=
  let old := nsLayout s n.nsid
  if nsWp s n || s.map.capWp || s.safe.stopper then some 13
  else if !isHome s n.nsid then some 6
  else match layoutBy s new with
    | none => some 3
    | some l =>
      let own := s.braid.splices.filter (fun p => !p.repair)
      if l.id = old.id then some 14
      else if (spliceOf s n.nsid).isSome then some 4
      else if own.length ≥ 4 ∨ (isLocalRun old l ∧ own.any (fun p => p.localRun)) then some 5
      else if !(buildersOf s old l).all (peerUp s) then some 7
      else if isLocalRun old l ∧ spliceRun s + ceilDiv n.size 32 > tableEntries s then some 8
      else if isLocalRun old l ∧ ¬ fits s (reserveBlocks (nsMapped s n) l) then some 1
      else none

/-- A Splice Control command in its admin frame; the namespace must exist. -/
def spliceCmd (h : Hdr) (nsid : Nat) (f : NsEntry → State → State) (s : State) : Host.Outcome State Fault Refusal :=
  admin h (fun s => match nsOf s nsid with
    | none => answer h 0 0x0B 0 s
    | some n => f n s) s

/-- Whether an ABORT of the namespace's splice has been accepted and has not taken effect (04 R120). -/
def abortPending (s : State) (nsid : Nat) : Bool := match spliceOf s nsid with
  | some p => p.phase = .aborted
  | none => false

/-- START: PREPARE with the builders' reservations (10 R291, R305). -/
def execStart (h : Hdr) (nsid newLayout : Nat) (autoSwitch : Bool) (s : State) : Host.Outcome State Fault Refusal :=
  spliceCmd h nsid (fun n s =>
    if abortPending s nsid then hostLoses h s
    else match startRefusal s n newLayout with
      | some r => refuseSplice h nsid r s
      | none =>
        let old := nsLayout s nsid
        let l := (layoutBy s newLayout).getD old
        let id := freeId s 256 s.braid.nextId
        let (key, s) := newKey s
        let lr := isLocalRun old l
        let p : Splice :=
          { id := id, phase := .prepare, left := .prepare, nsid := nsid, old := old.id, new := l.id,
            builders := buildersOf s old l, reserved := [], progress := 0, dirty := [], verified := 0, diffs := 0,
            diffAt := [], folds := [], dual := true, auto := autoSwitch, repair := false, lostBuilder := false,
            paused2 := false, refusal := 0, startSecs := s.dev.secs, localRun := lr,
            reserve := if lr then reserveBlocks (nsMapped s n) l else 0, cmd := some key, ready := false, told := [], phaseTags := [], again := [] }
        let s := onBraid (fun b => { b with splices := b.splices ++ [p], nextId := id + 1 }) s
        let s := addCmd (newCmd key h .spliceStart nsid 0 id s.hx.gseq s) (noteOrder (.splice nsid) (hostMaster h.port) 1 s)
        enterPhase id .prepare s) s

/-- CONTINUE: a splice paused after a third difference resumes (10 R297, R305). -/
def execContinue (h : Hdr) (nsid : Nat) (s : State) : Host.Outcome State Fault Refusal :=
  spliceCmd h nsid (fun _ s =>
    if abortPending s nsid then hostLoses h s
    else match spliceOf s nsid with
      | none => refuseSplice h nsid 10 s
      | some p =>
        let s := if p.phase = .paused ∧ p.paused2 ∧ p.builders.all (peerUp s) then
            enterPhase p.id p.left (setSplice p.id (fun p => { p with paused2 := false }) s)
          else if p.phase = .paused ∧ p.paused2 then setSplice p.id (fun p => { p with paused2 := false, lostBuilder := true }) s
          else s
        answer h 0 0 p.id s) s

/-- A splice aborted before its SWITCH record is durable: the record is written; a START or SWITCH that waits loses (04 R121,
10 R302). -/
def abortSplice (p : Splice) (s : State) : Nat × State :=
  let s := match p.cmd.bind (cmdBy s) with
    | some c => cmdLoses c s
    | none => s
  let s := setSplice p.id (fun p => { p with phase := .aborted, cmd := none }) (dropHankReads p.id s)
  journal (jrec s.hx.gseq (.splicePhase p.id .aborted p.nsid p.old p.new none (some p.progress))) s

/-- ABORT of a splice (10 R302, R305): refused with PAST_SWITCH once the SWITCH record is written, which nothing takes
back, and with NO_SPLICE where there is none. -/
def execAbortSplice (h : Hdr) (nsid : Nat) (s : State) : Host.Outcome State Fault Refusal :=
  spliceCmd h nsid (fun _ s =>
    match spliceOf s nsid with
    | none => refuseSplice h nsid 10 s
    | some p =>
      if p.phase = .release ∨ p.phase = .switch then refuseSplice h nsid 9 s
      else if p.phase = .aborted then refuseSplice h nsid 4 s
      else
        let (n, s) := abortSplice p (noteOrder (.splice nsid) (hostMaster h.port) 3 s)
        let (key, s) := newKey s
        addCmd { newCmd key h .spliceAbort nsid 0 p.id s.hx.gseq s with waitRec := some n } s) s

/-- SWITCH: holds new writes, drains the splice and writes the SWITCH record (10 R298, R305). -/
def execSwitch (h : Hdr) (nsid : Nat) (s : State) : Host.Outcome State Fault Refusal :=
  spliceCmd h nsid (fun _ s =>
    if abortPending s nsid then hostLoses h s
    else match spliceOf s nsid with
      | none => refuseSplice h nsid 10 s
      | some p =>
        if !verifyEnded s p then refuseSplice h nsid 11 s
        else
          let (key, s) := newKey s
          let s := addCmd (newCmd key h .spliceSwitch nsid 0 p.id s.hx.gseq s) s
          trySwitch p.id (setSplice p.id (fun p => { p with phase := .switching, cmd := some key }) s)) s

/-- The 64 bytes of Splice Status (10 R306). -/
def statusBytes (s : State) (nsid : Nat) : List Byte :=
  let refusal := kvCount s.braid.lastRefusal nsid
  match spliceOf s nsid with
  | none => le 3 0 ++ le 1 refusal ++ le 4 0 ++ le 8 (hanksOf s nsid) ++ zeros 48
  | some p =>
    le 1 p.id ++ le 1 (phaseCode p.phase) ++
    le 1 (pack [(0, b2n (p.dual && !s.braid.dualOff)), (1, b2n p.auto), (2, b2n p.repair), (3, b2n p.lostBuilder)]) ++
    le 1 refusal ++ le 2 p.old ++ le 2 p.new ++ le 8 (hanksOf s nsid) ++ le 8 p.progress ++ le 8 p.dirty.length ++
    le 8 p.verified ++ le 4 p.diffs ++ le 6 p.startSecs ++ zeros 14

/-- SPLICE_STATUS (10 R306). -/
def execSpliceStatus (h : Hdr) (nsid : Nat) (s : State) : Host.Outcome State Fault Refusal :=
  spliceCmd h nsid (fun _ s => answer h 0 0 0 (emit (.bytes h.port h.sq h.cid (statusBytes s nsid)) s)) s

/-- Paused splices whose builders are all UP again return to the phase they left (10 R296). -/
def resumeSplices (s : State) : State :=
  s.braid.splices.foldl (fun s p =>
    if p.phase = .paused ∧ p.lostBuilder ∧ ¬ p.paused2 ∧ p.builders.all (peerUp s) then
      enterPhase p.id p.left (setSplice p.id (fun p => { p with lostBuilder := false }) s)
    else s) s

end Sys2Proof.Machine
end

