-- ==== Sys2Proof/Machine/Tables.lean ====
section
/-! DEFINITION. Forms that the device writes to its own stores: journal records (05 R129, R130), media addresses (06 R154), entries of the hank,
strand, heat, set and unit tables (06 R155 to R158), and the map, directory and root pages of a checkpoint (05 R136, 06 R183). -/

namespace Sys2Proof.Machine

open Sys2Proof

/-! ### Media addresses (06 R154) -/

/-- The value that names no location. -/
def noMedia : Nat := 2 ^ 48 - 1

/-- FORM 0x0: a data block. -/
def dataForm (a : MAddr) : Nat := a.set % 2 ^ 19 * 2 ^ 17 + a.block % 2 ^ 17

/-- FORM 0x0 of a place, or no location. -/
def dataForm? : Option MAddr → Nat
  | some a => dataForm a
  | none => noMedia

/-- FORM 0x1: a braid set. -/
def setForm (i : Nat) : Nat := 2 ^ 44 + i % 2 ^ 19

/-- FORM 0x2: an erase unit. -/
def unitForm (addr : Nat) : Nat := 2 * 2 ^ 44 + addr % 2 ^ 23

/-- FORM 0x3: a page of an erase unit. -/
def pageAddr (addr page : Nat) : Nat := 3 * 2 ^ 44 + addr / 16384 * 2 ^ 26 + addr % 16384 * 2 ^ 12 + page

/-! ### Journal records (05 R129, R130) -/

/-- TYPE of a record. -/
def recType : JBody → Nat
  | .intent .. => 0x01
  | .completion .. => 0x02
  | .mapUpdate .. => 0x03
  | .ckptBegin .. => 0x04
  | .ckptEnd .. => 0x05
  | .splicePhase .. => 0x06
  | .deferred .. => 0x07
  | .deferredState .. => 0x08
  | .shutdown .. => 0x09
  | .unit .. => 0x0A
  | .rewrite .. => 0x0B
  | .reservation .. => 0x0C
  | .nsState .. => 0x0D
  | .start .. => 0x0E

/-- MODE of an INTENT. -/
def modeBits (m : Mode) : Nat := b2n m.buffered + 2 * b2n m.fua + 4 * b2n m.dealloc + 8 * b2n m.mirrored + 16 * b2n m.dual

/-- OUTCOME of a COMPLETION. -/
def outcomeCode : Outcome → Nat
  | .placed => 0
  | .spilled => 1
  | .deallocated => 2
  | .abandoned => 3
  | .lost => 4

/-- KIND of a MAP_UPDATE. -/
def moveCode : MoveKind → Nat
  | .collection => 1
  | .wear => 2
  | .rewrite => 3
  | .promotion => 4
  | .demotion => 5
  | .rebuild => 6
  | .splice => 7
  | .merge => 8
  | .zeroFill => 9
  | .fold => 10

/-- PHASE of a SPLICE_PHASE; SWITCHING has no code of its own (05 R130, 10 R306). -/
def sphaseCode : SPhase → Nat
  | .prepare => 1
  | .build => 2
  | .verify => 3
  | .switch => 4
  | .release => 5
  | .aborted => 6
  | .paused => 7
  | .switching => 3

/-- BITMAP: the root page of a checkpoint's dirty bitmap, or all ones for none (10 R303). Where the page lies is free (log entry 13). -/
def bitmapForm : Option Nat → Nat
  | some num => Config.bitmapPage num % 2 ^ 48
  | none => 2 ^ 64 - 1

/-- A record's payload: fields at their offsets in the record (05 R130). -/
def recPayload : JBody → List (Nat × List Byte)
  | .intent n sl nlb x m lay fold stamp =>
    [(0x14, le 4 n), (0x18, le 8 sl), (0x20, le 1 nlb), (0x21, le 1 x), (0x22, le 1 (modeBits m)), (0x24, le 2 lay),
     (0x28, le 8 fold.toNat), (0x30, le 8 stamp)]
  | .completion n sl nlb x o peers lay media =>
    [(0x14, le 4 n), (0x18, le 8 sl), (0x20, le 1 nlb), (0x21, le 1 x), (0x22, le 1 (outcomeCode o)), (0x23, le 1 peers), (0x24, le 2 lay),
     (0x28, le 8 (dataForm? media))]
  | .mapUpdate n sl nlb k old new =>
    [(0x14, le 4 n), (0x18, le 8 sl), (0x20, le 1 nlb), (0x21, le 1 (moveCode k)), (0x24, le 8 (dataForm? old)), (0x2C, le 8 (dataForm new))]
  | .ckptBegin num reason blocks => [(0x14, le 4 num), (0x18, le 1 reason), (0x1C, le 8 blocks)]
  | .ckptEnd num root pages b written =>
    [(0x14, le 4 num), (0x18, le 8 root), (0x20, le 1 pages), (0x24, le 8 b), (0x2C, le 4 written)]
  | .splicePhase id ph n old new bm pr =>
    [(0x14, le 1 id), (0x15, le 1 (sphaseCode ph)), (0x18, le 4 n), (0x1C, le 2 old), (0x1E, le 2 new), (0x20, le 8 (bitmapForm bm)),
     (0x28, le 8 (pr.getD 0))]
  | .deferred n sl nlb c c1 c2 x secs =>
    [(0x14, le 4 n), (0x18, le 8 sl), (0x20, le 1 nlb), (0x21, le 1 c), (0x22, le 1 (b2n c1 + 2 * b2n c2)), (0x23, le 1 x), (0x24, le 6 secs)]
  | .deferredState p1 p2 d1 d2 c1 c2 =>
    [(0x14, le 4 p1.toNat), (0x18, le 4 p2.toNat), (0x1C, le 4 d1), (0x20, le 4 d2), (0x24, le 8 c1), (0x2C, le 8 c2)]
  | .shutdown c last us sp un on secs =>
    [(0x14, le 1 c), (0x18, le 8 last), (0x20, le 4 us), (0x24, le 4 sp), (0x28, le 4 un), (0x2C, le 4 on), (0x30, le 6 secs)]
  | .unit isSet a role st =>
    [(0x14, le 8 (if isSet then setForm a else unitForm a)), (0x1C, le 1 role), (0x1D, le 1 st)]
  | .rewrite a c st => [(0x14, le 8 (unitForm a)), (0x1C, le 1 c), (0x1D, le 1 st)]
  | .reservation n h k t a => [(0x14, le 4 n), (0x18, le 16 h.toNat), (0x28, le 8 k.toNat), (0x30, le 1 t), (0x31, le 1 a)]
  | .nsState n w => [(0x14, le 4 n), (0x18, le 1 w)]
  | .start on gen re sk de ab secs =>
    [(0x14, le 4 on), (0x18, le 4 gen), (0x1C, le 4 re), (0x20, le 4 sk), (0x24, le 4 de), (0x28, le 4 ab), (0x2C, le 6 secs)]

/-- The 60 bytes of a record that its CRC covers. -/
def recBody (r : JRec) : List Byte :=
  layOut 0x3C ([(0x00, le 1 (recType r.body)), (0x01, le 1 (b2n r.carried + 2 * b2n r.replayed + 4 * b2n r.ctrl2)), (0x04, le 8 r.recno),
    (0x0C, le 8 r.gseq)] ++ recPayload r.body)

/-- The 64 bytes of a record (05 R129). -/
def recBytes (r : JRec) : List Byte := recBody r ++ le 4 (crc32c (recBody r)).toNat

/-! ### Table entries (06 R155 to R158) -/

/-- A hank entry: hank form, strand form, a value that neither form gives, or unmapped, as an entry stands between the records of one
change (log entry 17). -/
def hankWord : HankEntry → Nat
  | .slot set slot => set % 2 ^ 19 * 2 ^ 12 + slot % 2 ^ 12
  | .strand g => 2 ^ 31 + g % 2 ^ 24
  | .moving _ => 2 ^ 32 - 1
  | .invalid => 2 ^ 31 + 2 ^ 24

/-- A strand entry. -/
def strandWord : Option MAddr → Nat
  | some a => a.set % 2 ^ 15 * 2 ^ 17 + a.block % 2 ^ 17
  | none => 2 ^ 32 - 1

/-- A heat entry from COUNT and EPOCH. -/
def heatByte (h : Nat × Nat) : Byte := BitVec.ofNat 8 (min h.1 31 * 8 + h.2 % 8)

/-- A set table entry of 64 bytes, with the set's valid data blocks. -/
def setEntry (e : SetE) (valid : Nat) : List Byte :=
  layOut 64 [(0x00, ((List.range 16).map (fun c => memberBytes (nth e.members c none))).flatten), (0x30, le 1 e.mode), (0x31, le 1 e.state),
    (0x32, le 2 e.layout), (0x34, le 1 e.d), (0x35, le 3 valid), (0x38, le 8 e.closeGseq)]

/-- A unit table entry. -/
def unitWord (u : UnitE) : Nat := sat 16 u.pe + u.state % 16 * 2 ^ 16

/-! ### Checkpoint pages (05 R136, 06 R183) -/

/-- First map page numbers of the strand table and of the state area. -/
def strandPage0 : Nat := 0x00200000
def statePage0 : Nat := 0x00280000

/-- Page n of the hank table: entries that are not listed are unmapped. -/
def hankPage (hanks : List (Nat × HankEntry)) (n : Nat) : List Byte :=
  ((List.range 1024).map (fun i => le 4 (match kvGet hanks (1024 * n + i) with
    | some h => hankWord h
    | none => 2 ^ 32 - 1))).flatten

/-- Page n of the strand table: entries of free groups are unmapped. -/
def strandPage (strands : List (Nat × List (Option MAddr))) (n : Nat) : List Byte :=
  ((List.range 32).map (fun g => ((List.range 32).map (fun i => le 4 (strandWord (nth ((kvGet strands (32 * n + g)).getD []) i none)))).flatten)).flatten

/-- A map page of an image by its number; the state area's page has a free layout (log entry 13). -/
def mapPage (im : Image) (n : Nat) : List Byte :=
  if n < strandPage0 then hankPage im.hanks n
  else if n < statePage0 then strandPage im.strands (n - strandPage0)
  else fit 4096 (Config.stateArea im.levels im.patrol im.dirty)

/-- The map pages that an image gives an entry, and those that were written before, ascending: the others are unmapped (06 R183). -/
def pageNos (before : List (Nat × Nat × Nat)) (im : Image) : List Nat :=
  distinct (before.map (fun p => p.1) ++ im.hanks.map (fun h => h.1 / 1024) ++ im.strands.map (fun g => strandPage0 + g.1 / 32) ++ [statePage0])

/-- Whether two images hold the same entries in a map page (05 R136). -/
def samePage (a b : Image) (n : Nat) : Bool :=
  if n < strandPage0 then
    decide (a.hanks.filter (fun e => e.1 / 1024 = n) = b.hanks.filter (fun e => e.1 / 1024 = n))
  else if n < statePage0 then
    decide (a.strands.filter (fun e => e.1 / 32 = n - strandPage0) = b.strands.filter (fun e => e.1 / 32 = n - strandPage0))
  else decide (a.levels = b.levels) && decide (a.patrol = b.patrol) && decide (a.dirty = b.dirty)

/-- An 8-byte entry of a directory or root page: the page's address and the low 16 bits of the CKPT_NUM that wrote it. -/
def pageEntry (p : Option (Nat × Nat)) : List Byte := match p with
  | some (a, num) => le 6 a ++ le 2 num
  | none => le 6 noMedia ++ le 2 0

/-- A page of 512 entries, from the page addresses by number. -/
def entryPage (at_ : List (Nat × Nat × Nat)) (n : Nat) : List Byte :=
  ((List.range 512).map (fun i => pageEntry (kvGet at_ (512 * n + i)))).flatten

/-- Root pages: one entry for each of the 5 121 directory pages that cover the map pages. -/
def rootPages : Nat := 11

/-- A slot of a checkpoint page: KIND, its number in LBA, the CKPT_NUM in NSID, and a root page's count in BLOCK (08 R229). -/
def ckptSlot (im : Image) (kind : Nat) (p : Nat × List Byte) : Slot :=
  let b : Blk := { data := p.2, hm := zeros 64 }
  { nsid := im.num % 2 ^ 32, kind := kind, lost := false, zeroFill := false, replayed := false, spill := false, hostMeta := false,
    layout := 0, lba := p.1, gseq := im.gseq, check := blockCheck 0 0 false b, set := 2 ^ 32 - 1, block := if kind = 3 then rootPages else 0,
    blk := b }

/-- Where the pages of a checkpoint lie: page k of them in slot k mod S of physical page 1 + k div S, counted through the units of its
first copies (log entry 13). -/
def ckptPlace (s rows : Nat) (us : List Nat) (k : Nat) : Nat :=
  pageAddr (nth us (k / s / rows) 0) (k / s % rows + 1)

/-- The erase unit of a page address. -/
def pageUnit (a : Nat) : Nat := a / 2 ^ 26 % 2 ^ 18 * 16384 + a / 2 ^ 12 % 16384

/-- Whether a page's first copy lies in one of these pairs of units. -/
def inPairs (keep : List (List Nat)) (p : Option (Nat × Nat)) : Bool := match p with
  | some (a, _) => keep.any (fun us => has us (pageUnit a))
  | none => false

/-- The map pages and the directory pages that a checkpoint writes: those that have changed since the standing one, and those that it holds
outside the pairs of units that stay (05 R136, steps 2 and 3; log entry 13). -/
def ckptPlan (old : Option Image) (keep : List (List Nat)) (im : Image) : List Nat × List Nat := match old with
  | none =>
    let maps := pageNos [] im
    (maps, distinct (maps.map (fun n => n / 512)))
  | some o =>
    let all := pageNos o.pages im
    let maps := all.filter (fun n => !(samePage o im n && inPairs keep (kvGet o.pages n)))
    (maps, (distinct (all.map (fun n => n / 512))).filter (fun i => maps.any (fun n => n / 512 = i) || !inPairs keep (kvGet o.dirs i)))

/-- An image with the places of its pages: those that a plan writes in order, the others where the standing checkpoint has them. -/
def placePages (s rows : Nat) (us : List Nat) (old : Option Image) (plan : List Nat × List Nat) (im : Image) : Image :=
  let pages0 := match old with
    | some o => o.pages
    | none => []
  let dirs0 := match old with
    | some o => o.dirs
    | none => []
  { im with
    pages := plan.1.zipIdx.foldl (fun l p => kvPut l p.1 (ckptPlace s rows us p.2, im.num)) pages0
    dirs := plan.2.zipIdx.foldl (fun l p => kvPut l p.1 (ckptPlace s rows us (plan.1.length + p.2), im.num)) dirs0 }

/-- The slots of a checkpoint in the order they are written: the map and directory pages of its plan, and the root pages (05 R136, steps 2 to
4). -/
def ckptSlots (plan : List Nat × List Nat) (im : Image) : List Slot :=
  plan.1.map (fun n => ckptSlot im 1 (n, mapPage im n)) ++ plan.2.map (fun i => ckptSlot im 2 (i, entryPage im.pages i)) ++
    (List.range rootPages).map (fun n => ckptSlot im 3 (n, entryPage im.dirs n))

/-- Map and directory pages that a checkpoint has written itself: its root pages follow them. -/
def pagesBefore (im : Image) : Nat :=
  (im.pages.filter (fun p => p.2.2 = im.num)).length + (im.dirs.filter (fun p => p.2.2 = im.num)).length

/-- A slot of journal copies: up to 64 records in ascending RECNO (08 R223, R229). -/
def mirrorSlot (gseq : Nat) (rs : List JRec) : Slot :=
  let b : Blk := { data := fit 4096 (rs.flatMap recBytes), hm := zeros 64 }
  { nsid := 0, kind := 4, lost := false, zeroFill := false, replayed := false, spill := false, hostMeta := false, layout := 0,
    lba := (match rs.head? with
      | some r => r.recno
      | none => 0),
    gseq := gseq, check := blockCheck 0 0 false b, set := 2 ^ 32 - 1, block := 0, blk := b }

end Sys2Proof.Machine
end

