-- ==== Sys2Proof/Machine/Journal.lean ====
section
/-! DEFINITION. The bowline journal at run time: which records are live (05 R130), what a durable record releases (05 R131, R132),
checkpoints (05 R135, R136), carry-forward (05 R137, 08 R223) and the seal (05 R139). -/

namespace Sys2Proof.Machine

open Sys2Proof

/-! ### Live records (05 R130) -/

/-- Whether a COMPLETION with an outcome other than SPILLED covers a block of an intent. -/
def coveredBy (nsid gseq lba : Nat) (r : JRec) : Bool := match r.body with
  | .completion n sl nlb _ o _ _ _ => n = nsid && r.gseq = gseq && sl ≤ lba && lba ≤ sl + nlb && o ≠ .spilled
  | _ => false

/-- The blocks of a run that no closing COMPLETION covers, as offsets. -/
def uncovered (s : State) (nsid gseq slba nlb1 : Nat) : List Nat :=
  (List.range (nlb1 + 1)).filter (fun i => !s.jrnl.recs.any (coveredBy nsid gseq (slba + i)))

/-- Whether no later record meets a test. -/
def newest (s : State) (r : JRec) (p : JBody → Bool) : Bool := !s.jrnl.recs.any (fun q => q.recno > r.recno && p q.body)

/-- CLEARED_1 and CLEARED_2 of the newest DEFERRED_STATE. -/
def clearedUpTo (s : State) : Nat × Nat :=
  match argMax (fun r => r.recno) (s.jrnl.recs.filter (fun r => match r.body with
    | .deferredState .. => true
    | _ => false)) with
  | some r => (match r.body with
    | .deferredState _ _ _ _ a b => (a, b)
    | _ => (0, 0))
  | none => (0, 0)

/-- The controllers on which a DEFERRED record is not yet cleared. -/
def uncleared (s : State) (recno : Nat) (c1 c2 : Bool) : Bool × Bool :=
  (c1 && recno ≥ (clearedUpTo s).1, c2 && recno ≥ (clearedUpTo s).2)

/-- Whether a RESERVATION record is live, by its action. -/
def resvLive (s : State) (r : JRec) (nsid : Nat) (id : BitVec 128) (action : Nat) : Bool :=
  match action with
  | 0 => newest s r (fun b => match b with
      | .reservation n h _ _ a => n = nsid && h = id && (a = 0 || a = 1)
      | _ => false)
  | 2 => newest s r (fun b => match b with
      | .reservation n h _ _ a => n = nsid && (a = 2 || a = 3 || (a = 1 && h = id))
      | _ => false)
  | 4 => newest s r (fun b => match b with
      | .reservation n _ _ _ a => n = nsid && (a = 4 || a = 5)
      | _ => false)
  | 5 => newest s r (fun b => match b with
      | .reservation n _ _ _ a => n = nsid && (a = 4 || a = 5)
      | _ => false)
  | _ => false

/-- PROGRESS of the record that ends a RELEASE (10 R301). -/
def releaseEnd : Nat := 2 ^ 64 - 1

/-- Whether a record is live (05 R130). -/
def isLive (s : State) (r : JRec) : Bool :=
  match r.body with
  | .intent n sl nlb _ _ _ _ _ => !(uncovered s n r.gseq sl nlb).isEmpty
  | .completion n sl nlb _ o _ _ _ => decide (o = .spilled) && !(uncovered s n r.gseq sl nlb).isEmpty
  | .mapUpdate .. => false
  | .ckptBegin .. => false
  | .ckptEnd .. => newest s r (fun b => match b with
      | .ckptEnd .. => true
      | _ => false)
  | .splicePhase id ph n _ _ _ pr => decide (ph ≠ .aborted) && !(decide (ph = .release) && pr = some releaseEnd) &&
      newest s r (fun b => match b with
        | .splicePhase i _ m _ _ _ _ => i = id && m = n
        | _ => false)
  | .deferred _ _ _ _ c1 c2 _ _ => (uncleared s r.recno c1 c2).1 || (uncleared s r.recno c1 c2).2
  | .deferredState .. => newest s r (fun b => match b with
      | .deferredState .. => true
      | _ => false)
  | .shutdown .. => newest s r (fun b => match b with
      | .start .. => true
      | _ => false)
  | .unit st a _ k => (k = 0 || k = 2 || k = 3) && newest s r (fun b => match b with
      | .unit t c _ _ => t = st && c = a
      | _ => false)
  | .rewrite a _ k => k = 0 && newest s r (fun b => match b with
      | .rewrite c _ _ => c = a
      | _ => false)
  | .reservation n h _ _ a => resvLive s r n h a
  | .nsState n _ => newest s r (fun b => match b with
      | .nsState m _ => m = n
      | _ => false)
  | .start .. => false

/-- What a carried copy leaves unchanged: the payload, but for CTRLS of a DEFERRED record (05 R137). -/
def lasting : JBody → JBody
  | .deferred n sl nlb c _ _ e t => .deferred n sl nlb c false false e t
  | b => b

/-- Whether a record is the newest copy of its content: of carried copies the one with the highest record number stands (05 R143). -/
def lastCopy (s : State) (r : JRec) : Bool :=
  !s.jrnl.recs.any (fun q => q.recno > r.recno && q.carried && q.gseq = r.gseq && decide (lasting q.body = lasting r.body))

/-- Live records other than INTENT and SPILLED COMPLETION: those that JRNL shows as LIVE_OTHER (05 R134). -/
def liveOther (s : State) : Nat :=
  (s.jrnl.recs.filter (fun r => isLive s r && lastCopy s r && (match r.body with
    | .intent .. => false
    | .completion .. => false
    | _ => true))).length

/-! ### Reservations and write protection, from their records -/

/-- What a durable RESERVATION record does (05 R130). -/
def applyResv (nsid : Nat) (id : BitVec 128) (key : BitVec 64) (rtype action : Nat) (s : State) : State :=
  match action with
  | 0 => onResv (fun l => l.filter (fun r => !(r.nsid = nsid && r.hostId = id)) ++ [{ nsid := nsid, hostId := id, key := key }]) s
  | 1 => onHold (fun l => l.filter (fun x => !(x.nsid = nsid && x.hostId = id)))
      (onResv (fun l => l.filter (fun r => !(r.nsid = nsid && r.hostId = id))) s)
  | 2 => onHold (fun l => l.filter (fun x => x.nsid ≠ nsid) ++ [{ nsid := nsid, hostId := id, rtype := rtype }]) s
  | 3 => onHold (fun l => l.filter (fun x => x.nsid ≠ nsid)) s
  | 4 => onPtpl (fun l => insNat l nsid) s
  | 5 => onPtpl (fun l => l.filter (fun n => n ≠ nsid)) s
  | _ => s

/-- What a durable NS_STATE record does. -/
def applyNsState (nsid wp : Nat) (s : State) : State := onHx (fun x => { x with wprot := kvPut x.wprot nsid wp }) s

/-! ### What a durable record releases -/

/-- The tokens of an extent whose INTENT record is durable are journaled (01 R27). -/
def journaled (e : Extent) : Extent :=
  { e with durable := true, blks := e.blks.map (fun b => if b.tok = .filling then { b with tok := .journaled } else b) }

/-- An INTENT record that comes durable after its write has been dropped: a COMPLETION, ABANDONED, closes it (01 R27, 05 R133; log entry 63). -/
def abandonIntent (r : JRec) (s : State) : State := match r.body with
  | .intent n sl nlb x _ l _ _ => (journal { jrec r.gseq (.completion n sl nlb x .abandoned 0 l none) with ctrl2 := r.ctrl2 } s).2
  | _ => s

/-- Whether an extent has tokens to spill: journaled ones, none of them spilled before (02 R58). -/
def spillable (e : Extent) : Bool :=
  e.recno.isSome && e.compRec.isNone && !e.stopped && !e.mode.dealloc && decide (tokIn .journaled e > 0)

/-- Whether an extent's namespace is a buffered-acknowledgement one (02 R58). -/
def bufferedNs (s : State) (e : Extent) : Bool := match nsOf s e.nsid with
  | some n => n.ack
  | none => e.mode.buffered

/-- An extent's place in the order of R58, before those of a list that come later. -/
def spillInsert (s : State) (e : Extent) : List Nat → List Nat
  | [] => [e.id]
  | x :: xs => match extBy s x with
    | some f =>
      let first := if bufferedNs s e = bufferedNs s f then e.gseq < f.gseq else bufferedNs s e
      if first then e.id :: x :: xs else x :: spillInsert s e xs
    | none => x :: spillInsert s e xs

/-- The flush takes up an extent whose INTENT record comes durable while it runs: the blocks were filling at the trigger (02 R58). -/
def joinFlush (e : Extent) (s : State) : State := match s.flush with
  | some f => if !f.sealing && spillable e then onFlush (fun _ => some { f with toSpill := spillInsert s e f.toSpill }) s else s
  | none => s

/-- A durable INTENT record: tokens journaled; what other bricks are sent (05 R132, 10 R281, R285, R294). -/
def intentDurable (r : JRec) (s : State) : State :=
  match s.exts.find? (fun e => e.recno = some r.recno && !e.durable) with
  | none => abandonIntent r s
  | some e =>
    let s := setExt e.id journaled s
    let e := journaled e
    let s := joinFlush e s
    match e.origin with
    | .longData .. => sendDeltas e ((layoutBy s e.layout).getD (layout0 s)) s
    | .mirror .. => s
    | .longParity .. => s
    | .copy .. => s
    | _ => trackWrite e (if isHome s e.nsid then sendExtent e s else s)

/-- An extent whose COMPLETION record is durable: its tokens are free (01 R27, R28) unless a replayed mirror copy is still owed
(05 R146). -/
def endExtent (recno : Nat) (o : Outcome) (s : State) : State :=
  match s.exts.find? (fun e => e.compRec = some recno) with
  | none => s
  | some e =>
    if e.origin = .replay ∧ o = .placed ∧ ¬ e.waitOn.isEmpty then s
    else answerPeer e (if o = .abandoned then 5 else 0) (onExts (fun l => l.filter (fun x => x.id ≠ e.id)) s)

/-- A hank of which no change is under way is at rest, and has the form of R167. -/
def restHank (h : Nat) (s : State) : State := if s.map.state = 3 && !hankBusy s h 0 then settleForm h s else s

/-- What a durable MAP_UPDATE does (05 R141, 06 R166); what waits behind it for the splice run follows. -/
def moveDurable (nsid slba nlb1 : Nat) (k : MoveKind) (old : Option MAddr) (new : MAddr) (s : State) : State :=
  if s.map.state ≠ 3 || (k = .splice && !runOpen s nsid) then s
  else drainRuns (restHank (movedHank s nsid slba k new) (resizeSlc (applyMove nsid slba nlb1 k old new s)))

/-- Whether a COMPLETION is that of a builder's copied block, which is applied without comparing GSEQ (10 R293). -/
def isCopy (s : State) (recno : Nat) : Bool := s.exts.any (fun e => decide (e.compRec = some recno) && (match e.origin with
  | .copy .. => true
  | _ => false))

/-- What a durable COMPLETION record does to the map (05 R133, R141, 06 R182). While the map is not loaded the record belongs to the
delta that loading applies. -/
def completionDurable (r : JRec) (nsid slba nlb1 : Nat) (o : Outcome) (media : Option MAddr) (s : State) : State :=
  let g := if isCopy s r.recno then 2 ^ 64 else r.gseq
  let s := if s.map.state ≠ 3 then s else match o, media with
    | .placed, some a => resizeSlc (applyPlaced nsid slba nlb1 g a s)
    | .deallocated, _ => resizeSlc (applyDealloc nsid slba nlb1 g s)
    | _, _ => s
  if o = .spilled then s else restHank (hankOf s nsid slba) (endExtent r.recno o s)

/-- The pages of a checkpoint, as the map stands when its CKPT_BEGIN is durable (05 R136; log entry 13). -/
def snapshot (num recno gseq : Nat) (units : List Nat) (s : State) : Image :=
  { num := num, begin_ := recno, gseq := gseq, hanks := s.map.hanks, strands := s.map.strands, levels := s.media.levels,
    fidAt := s.media.fidAt, patrol := (s.ps.pos.zip s.ps.pass), dirty := s.braid.splices.map (fun p => (p.id, p.dirty)), units := units,
    pages := [], dirs := [], pairs := [] }

/-- The partner of a unit on another channel (06 R183). -/
def partnerOf (s : State) (addr : Nat) : Option Nat :=
  let d := unitDie addr
  let at_ (k : Nat) : Nat := (d / 16 * 16 + (dieCh d + 8 + k) % 16) * 16384 + unitNo addr
  (((List.range 8).map at_).filter (fun a => match unitBy s a with
    | some u => isFree s u
    | none => false)).head?

/-- A unit queued for its erase and its header as a map-checkpoint or journal-mirror unit, after its UNIT record (05 R132, 06 R183, 08 R216). -/
def pairUnit (st role cg : Nat) (partner : Option Nat) (s : State) (a : Nat) : State :=
  let (r, s) := noteNo (.unit false a role 0) s
  queueErase 0 a r { state := st, role := role, cell := 0, set := none, layout := (layout0 s).id, d := 0, createGseq := cg, members := [],
                     partner := partner } (setUnit a (fun u => { u with state := st }) s)

/-- A pair of units for checkpoint pages or journal copies, both headers naming each other (06 R183, 08 R216). The first free unit in address order is
the first copy's: DESIGN CHOICE, the spec does not say which (log entry 73). -/
def takePair (st role : Nat) (s : State) : List Nat × State :=
  match (s.map.units.filter (fun u => isFree s u)).head? with
  | none => ([], s)
  | some u =>
    let cg := s.hx.gseq
    match partnerOf s u.addr with
    | some p => ([u.addr, p], pairUnit st role cg (some u.addr) (pairUnit st role cg (some p) s u.addr) p)
    | none => ([u.addr], pairUnit st role cg none s u.addr)

/-- Pairs of units, as many as asked for and to be had: the copies of each. -/
def takePairs (st role : Nat) : Nat → State → List (List Nat) × State
  | 0, s => ([], s)
  | n + 1, s =>
    let (us, s) := takePair st role s
    let (rest, s) := takePairs st role n s
    (if us.isEmpty then rest else us :: rest, s)

/-- Page rows of an SLC unit. -/
def slcRows (s : State) : Nat := max 1 (rowsOf s 0)

/-- Pairs of SLC units that n slots take. -/
def pairsFor (s : State) (n : Nat) : Nat := ceilDiv (ceilDiv n (slotsPerPage s)) (slcRows s)

/-- Slots written in order into pairs of units, each page in both copies; the last page is filled up with EMPTY slots (05 R136, 08 R223,
R231; log entry 13). -/
def writeSlots (pairs : List (List Nat)) (sl : List Slot) (s : State) : State :=
  let n := slotsPerPage s
  let rows := slcRows s
  (chunks n sl.length sl).zipIdx.foldl (fun s p =>
    let page := p.1 ++ List.replicate (n - p.1.length) (emptySlot 0 Config.noSet)
    (nth pairs (p.2 / rows) []).foldl (fun s u => queueProg Config.noSet (p.2 % rows) u page [] none s) s) s

/-- Units given back to the free pool: a UNIT record with STATE 4, then an erase and a WHIPPING_ONLY header (05 R132, 08 R216). Programs that still wait
for them are dropped; a unit that is given back already stays as it is, and so does one that is retired or on a target that is not usable (06 R178, 07 R209). -/
def freeUnits (us : List Nat) (role : Nat) (s : State) : State :=
  us.foldl (fun s a =>
    if !unitUsable s a || has s.media.retired a || s.media.erases.any (fun e => e.unit = a && e.use.role = 6) || s.media.progs.any (fun p => p.unit = a && (match p.header with
        | some (_, u) => u.role = 6
        | none => false)) then s
    else
      let (r, s) := noteNo (.unit false a role 4) s
      queueErase 0 a r (freeUse s) (onMedia (fun m => { m with
        erases := m.erases.filter (fun e => e.unit ≠ a || e.run.issued), progs := m.progs.filter (fun p => p.unit ≠ a || p.run.issued) }) s)) s

/-- The pairs of units of the standing checkpoint in which its unchanged pages stay: the pairs that are still usable, and none of them once they
number more than two above twice what all pages would take, so that every page is written anew. DESIGN CHOICE: 05 R136 leaves to Motur how superseded
pages are collected, and 06 does not say (log entry 13). -/
def keepPairs (im : Image) (s : State) : List (List Nat) := match s.media.ckpt with
  | none => []
  | some o =>
    let ok := o.pairs.filter (fun us => !us.isEmpty && us.all (fun a => unitUsable s a && !has s.media.retired a))
    let plan := ckptPlan none [] im
    if ok.length > 2 * pairsFor s (plan.1.length + plan.2.length + rootPages) + 2 then [] else ok

/-- The changed pages of a checkpoint's image queued for pairs of units taken for it, and the root pages after them; PAGES is how many map pages are
written (05 R130, R136, steps 2 to 4). -/
def writeImage (im : Image) (s : State) : State :=
  let keep := keepPairs im s
  let plan := ckptPlan s.media.ckpt keep im
  let (ps, s) := takePairs 3 4 (pairsFor s (plan.1.length + plan.2.length + rootPages)) s
  let us := ps.filterMap (fun p => p.head?)
  let im := placePages (slotsPerPage s) (slcRows s) us s.media.ckpt plan { im with units := us ++ ps.flatMap (fun p => p.drop 1) }
  let held := keep.filter (fun q => (im.pages ++ im.dirs).any (fun p => inPairs [q] (some p.2)))
  onJrnl (fun j => { j with runPages := plan.1.length })
    (onMedia (fun m => { m with work := some { im with pairs := ps ++ held } }) (writeSlots ps (ckptSlots plan im) s))

/-- A durable CKPT_BEGIN: the changed pages are written as the map stands (05 R136, steps 2 to 4). -/
def beginDurable (num recno gseq : Nat) (s : State) : State :=
  if s.jrnl.runNum = some num then writeImage (snapshot num recno gseq [] s) s else s

/-- A checkpoint whose unit failed to erase or to program: its pages are written again into other pairs, and its units are given back (08 R216, 06
R179). -/
def redoCkpt (s : State) : State := match s.media.work with
  | none => s
  | some im => writeImage im (freeUnits im.units 4 s)

/-- A SPLICE_PHASE record with the bitmap of a checkpoint, for each splice in progress (10 R293, R303). -/
def bitmapRecs (num : Nat) (s : State) : State :=
  s.braid.splices.foldl (fun s p =>
    let ph := if p.phase = .switching then SPhase.verify else p.phase
    note (.splicePhase p.id ph p.nsid p.old p.new (some num) (some p.progress)) s) s

/-- The live records copied into a JOURNAL_MIRROR pair, after each durable CKPT_END (08 R223). The pair before it is released. -/
def mirrorJournal (s : State) : State :=
  let old := (s.map.units.filter (fun u => u.state = 4)).map (fun u => u.addr)
  let rs := s.jrnl.recs.filter (isLive s)
  let sl := (chunks 64 rs.length (sortBy (fun r => r.recno) rs)).map (mirrorSlot s.hx.gseq)
  let (ps, s) := takePairs 4 5 (pairsFor s sl.length) s
  onMedia (fun m => { m with mirror := rs }) (freeUnits old 5 (writeSlots ps sl s))

/-- The checkpoint of a clean shutdown has ended: the handshake to OFF goes on (11 R316). -/
def shutdownCkpt (num : Nat) (s : State) : State :=
  let clean := s.jrnl.recs.any (fun r => match r.body with
    | .ckptBegin n reason _ => n = num && reason = 2
    | _ => false)
  if clean then onPs (fun p => { p with hs := p.hs.map (fun h => if h.want = .off && h.part = 4 then { h with waiting := false } else h) }) s
  else s

/-- A durable CKPT_END: the checkpoint stands, the pairs of units of its predecessor that hold no page of it are given back, and the other half is to be
carried forward (05 R136, R137). -/
def ckptDurable (num begin_ : Nat) (s : State) : State :=
  let unitsOf (i : Option Image) : List Nat := match i with
    | some i => i.pairs.flatten
    | none => []
  let old := (unitsOf s.media.ckpt).filter (fun a => !has (unitsOf s.media.work) a)
  let s := onMedia (fun m => { m with ckpt := m.work, work := none }) s
  let s := shutdownCkpt num s
  let s := onJrnl (fun j => { j with ckptNum := num, ckptBegin := begin_, carryDue := true }) s
  trySwitches (bitmapRecs num (mirrorJournal (freeUnits old 4 s)))

/-- What the horizon's passing a record releases (05 R132). A carried copy releases nothing: its original has (05 R137). -/
def recordEffect (r : JRec) (s : State) : State :=
  if r.carried then s else match r.body with
  | .intent .. => intentDurable r s
  | .completion n sl nlb _ o _ _ media => completionDurable r n sl nlb o media s
  | .mapUpdate n sl nlb k old new => moveDurable n sl nlb k old new s
  | .ckptBegin num _ _ => beginDurable num r.recno r.gseq s
  | .ckptEnd num _ _ b _ => ckptDurable num b s
  | .splicePhase id ph n _ new _ _ => phaseDurable id ph n new s
  | .deferred n sl nlb c c1 c2 _ secs => deferDurable r n sl nlb c c1 c2 secs s
  | .deferredState .. => s
  | .shutdown .. => s
  | .unit .. => s
  | .rewrite .. => s
  | .reservation n h k t a => applyResv n h k t a s
  | .nsState n w => if (ahead s).any (fun q => q.recno > r.recno && (match q.body with
      | .nsState m _ => m = n
      | _ => false)) then s else applyNsState n w s
  | .start .. => s

/-- Answers to peers that waited for a record (05 R132). -/
def payOwed (recno : Nat) (s : State) : State :=
  let due := s.braid.owed.filter (fun o => o.recno = recno)
  let s := onBraid (fun b => { b with owed := b.owed.filter (fun o => o.recno ≠ recno) }) s
  due.foldl (fun s o =>
    if o.msg.op = 2 then answerOrder o.port o.link o.msg.head.tag o.msg.status s else sendMsg o.port o.link o.msg s) s

/-- What may follow once a record is durable. -/
def afterRecord (recno : Nat) (s : State) : State :=
  settleReads (dualCheck (trySwitches (settle (payOwed recno (finishWaiting recno s)))))

/-- The horizon advanced to a record: a carry-forward whose last copy is durable has ended, and the half is free (05 R137); records that waited are
written (05 R131). -/
def advance (recno : Nat) (s : State) : State :=
  releaseWaiting (onJrnl (fun j =>
    if j.carryTo = some recno then { j with horizon := recno, otherFree := true, carryTo := none } else { j with horizon := recno }) s)

/-! ### Checkpoints and halves -/

/-- Whether a clean shutdown waits for its checkpoint (05 R135, 11 R316). -/
def wantsShutdown (s : State) : Bool := match s.ps.hs with
  | some h => decide (h.want = .off) && h.waiting
  | none => false

/-- CHECKPOINT_BEGIN: a trigger that waits begins a checkpoint, while none runs and no exchange of hank entries is under way (05
R135, 10 R292). -/
def execCheckpointBegin (reason : Nat) (s : State) : Host.Outcome State Fault Refusal :=
  let due := s.jrnl.trigger = some reason || (reason = 2 && wantsShutdown s)
  if !due || s.jrnl.runNum.isSome || s.jrnl.state ≠ 4 || s.map.state ≠ 3 || s.safe.stopper ||
      s.braid.splices.any (fun p => decide (p.phase = .switch)) then .next s
  else
    let num := s.jrnl.ckptNum + 1
    let (n, s) := journal (jrec s.hx.gseq (.ckptBegin num reason s.jrnl.accepted)) s
    .next (onJrnl (fun j => { j with
      runNum := some num, runBegin := n, runPages := 0, accepted := 0,
      trigger := if j.trigger = some reason then none else j.trigger }) s)

/-- CHECKPOINT_END: every page has a successful program status, and CKPT_END is written (05 R136, step 5). One root entry for each of
the 5 121 directory pages takes 11 root pages (06 R183). -/
def execCheckpointEnd (s : State) : Host.Outcome State Fault Refusal :=
  match s.jrnl.runNum, s.media.work with
  | some num, some im =>
    if im.num ≠ num ∨ s.jrnl.state ≠ 4 ∨ im.units.any (unitWorks s) then .next s
    else
      let root := if im.units.isEmpty then noMedia
        else ckptPlace (slotsPerPage s) (slcRows s) im.units (pagesBefore im)
      .next (onJrnl (fun j => { j with runNum := none })
        (note (.ckptEnd num root rootPages s.jrnl.runBegin s.jrnl.runPages) s))
  | _, _ => .next s

/-- A carried copy of a record (05 R137). -/
def carriedCopy (s : State) (r : JRec) : JRec :=
  { r with carried := true, body := match r.body with
    | .deferred n sl nlb c c1 c2 e t =>
      let u := uncleared s r.recno c1 c2
      .deferred n sl nlb c u.1 u.2 e t
    | b => b }

/-- CARRY_FORWARD: after CKPT_END is durable the live records of the other half are written again at the head; once the last copy is durable, or at
once where there is none, the half is free and a head that waits goes on (05 R137). -/
def execCarryForward (s : State) : Host.Outcome State Fault Refusal :=
  if !s.jrnl.carryDue ∨ s.jrnl.state ≠ 4 ∨ s.safe.stopper then .next s
  else
    let h := activeHalf s
    let rs := s.jrnl.recs.filter (fun r => halfOf r.recno ≠ h && isLive s r && lastCopy s r)
    if rs.isEmpty then .next (releaseWaiting (onJrnl (fun j => { j with otherFree := true, carryDue := false }) s))
    else
      let (n, s) := rs.foldl (fun (x : Nat × State) r => journal (carriedCopy x.2 r) x.2) (0, s)
      .next (onJrnl (fun j => { j with carryTo := some n, carryDue := false }) s)

/-! ### The seal and the audit -/

/-- The journal sealed by a SHUTDOWN record, the last that it takes (05 R139). -/
def sealJournal (cause last us spilled unspilled : Nat) (s : State) : State :=
  if s.jrnl.state < 3 ∨ s.jrnl.state = 5 then s
  else onJrnl (fun j => { j with state := 5 })
    (note (.shutdown cause last us spilled unspilled s.dev.powerOn s.dev.secs) s)

/-- Every waiting record written: the writes before it have come durable in turn (05 R131; log entry 64). -/
def writeOut (s : State) : State := writeWaiting (fun s => !headWaits s) s.jrnl.waiting s

/-- AUDIT_IMBALANCE_TIMEOUT: a conserved quantity out of balance beyond its window: DANGER 4.20 (05 R150). -/
def execAuditImbalanceTimeout (quantity : Nat) (s : State) : Host.Outcome State Fault Refusal :=
  if quantity < 6 then
    .next (danger 4 20 quantity (onJrnl (fun j => { j with audFault := if bit j.audFault quantity then j.audFault
      else j.audFault + 2 ^ quantity }) s))
  else .next s

end Sys2Proof.Machine
end

