-- ==== Sys2Proof/Machine/Spill.lean ====
section
/-! DEFINITION. The spill (02 R57 to R59, 05 R140, R148, 14 R396): the power-loss flush, the stopper's spill and the spill within the thermal
grace, and the commands BANK_RESERVE_REACHED, HOLDUP_TIMEOUT and SPILL_PROGRAM_STATUS. -/

namespace Sys2Proof.Machine

open Sys2Proof

/-! ### What is to be spilled -/

/-- The extents to spill in their order: those of buffered-acknowledgement namespaces first, each group by ascending GSEQ (02 R58). A sealed
journal takes no more records, and R396 names faults after which nothing is spilled. -/
def spillOrder (s : State) : List Nat :=
  if s.jrnl.state = 5 ∨ s.safe.noSpill then []
  else
    let es := sortBy (fun e => e.gseq) (s.exts.filter spillable)
    (es.filter (bufferedNs s) ++ es.filter (fun e => !bufferedNs s e)).map (fun e => e.id)

/-! ### Spill groups on the medium (08 R222) -/

/-- A spill group as a braid set of layout 0 in SLC mode. -/
def groupSet (g : SpillGroup) : SetE :=
  { idx := g.group, members := (List.range 16).map (fun c => g.units.find? (fun a => unitCh a = c)), mode := 0, state := 1,
    role := 0, layout := 0, d := g.units.length - 1, closeGseq := 0, createGseq := 0, fill := g.fill, row := [], failed := [],
    rebuild := false, released := false, erased := [] }

/-- The slot that a spill group holds at a block number. -/
def groupSlot (s : State) (e : SetE) (b : Nat) : Option Slot :=
  let (ch, row, k) := placeOf s e b
  match (nth e.members ch none).bind (nandUnit s) with
  | some n => (kvGet n.pages (row + 1)).bind (fun sl => sl[k]?)
  | none => none

/-- A group that takes n more blocks. -/
def groupRoom (s : State) (n : Nat) : Option SpillGroup :=
  s.map.spills.find? (fun g => groupReady s g && g.fill + n ≤ setCap s (groupSet g))

/-- One page of a row of a spill group written. -/
def spillPage (e : SetE) (row : Nat) (data : List Slot) (s : State) (ci : Nat × Nat) : State :=
  addPage ((nth e.members ci.1 none).getD 0) (row + 1) (memberPage s e row ci.2 data) s

/-- The programs of a row of a spill group on their channels, once its slots are all known (log entry 52). -/
def progSpillRow (e : SetE) (s : State) (row : Nat) : State :=
  (setChans e).foldl (fun s ch =>
    let unit := (nth e.members ch none).getD 0
    match (nandUnit s unit).bind (fun n => kvGet n.pages (row + 1)) with
    | some page => onBus unit (playPage s unit (row + 1) true (slotBytes s unit (row + 1) page)) (wTemplate s (fun w => w.tProgSlc))
        (onMedia (fun m => { m with channels := modVec m.channels ch (fun c => { c with programs := inc 32 c.programs }) }) s)
    | none => s) s

/-- One row of a spill group with new slots: its pages and their parity (08 R222). -/
def spillRow (e : SetE) (xs : List (Nat × Slot)) (s : State) (row : Nat) : State :=
  let w := e.d * slotsPerPage s
  let data := (List.range w).map (fun k =>
    let b := row * w + k
    match kvGet xs b with
    | some x => x
    | none => (groupSlot s e b).getD (emptySlot 0 e.idx))
  (setChans e).zipIdx.foldl (spillPage e row data) s

/-- The UNIT records with STATE 3 of a group's first use (05 R148). -/
def markSpilled (g : SpillGroup) (s : State) : State :=
  if g.written then s else g.units.foldl (fun s a => note (.unit false a 3 3) s) s

/-- A run of blocks written into a spill group: its place, where a group has room. -/
def spillRun (e : Extent) (off : Nat) (bs : List XBlk) (s : State) : Option (MAddr × State) :=
  match groupRoom s bs.length with
  | none => none
  | some g =>
    let t := groupSet g
    let w := max (t.d * slotsPerPage s) 1
    let xs := bs.zipIdx.map (fun x =>
      (g.fill + x.2, { dataSlot s e.nsid (e.slba + off + x.2) e.gseq e.layout g.group (g.fill + x.2) false false false
        (x.1.blk.getD zeroBlk) with spill := true }))
    let rows := (List.range ((g.fill + bs.length - 1) / w + 1)).drop (g.fill / w)
    let s := rows.foldl (spillRow t xs) (markSpilled g s)
    let s := (rows.filter (fun r => (r + 1) * w ≤ g.fill + bs.length)).foldl (progSpillRow t) s
    some ({ set := g.group, block := g.fill }, onMap (fun m => { m with spills := m.spills.map (fun x =>
      if x.group = g.group then { x with fill := x.fill + bs.length, written := true } else x) }) s)

/-- Journaled blocks of an extent that meet a test of their offsets, in contiguous runs: offset and blocks. -/
def tokenRuns (p : Nat → Bool) : Nat → List XBlk → List (Nat × List XBlk)
  | _, [] => []
  | i, b :: bs =>
    if b.tok = .journaled ∧ p i then
      match tokenRuns p (i + 1) bs with
      | (j, r) :: rest => if j = i + 1 then (i, b :: r) :: rest else (i, [b]) :: (j, r) :: rest
      | [] => [(i, [b])]
    else tokenRuns p (i + 1) bs

/-- One run spilled, with its COMPLETION, SPILLED (02 R58). It answers the state and the tokens spilled. -/
def spillOne (e : Extent) (x : State × Nat) (run : Nat × List XBlk) : State × Nat :=
  match spillRun e run.1 run.2 x.1 with
  | none => x
  | some (a, s) =>
    let r := jrec e.gseq (.completion e.nsid (e.slba + run.1) (run.2.length - 1) e.ext .spilled e.acked e.layout (some a))
    ((journal { r with ctrl2 := isHostExt e && e.port = .b && dualPort s } s).2, x.2 + run.2.length)

/-! ### Beginning and ending -/

/-- The programs of the rows that a spill leaves partly filled: the rest of their slots is EMPTY (08 R231; log entry 52). -/
def progLastRows (s : State) : State :=
  s.map.spills.foldl (fun s g =>
    let w := (groupSet g).d * slotsPerPage s
    if g.dirty || !g.written || g.fill % max w 1 = 0 then s else progSpillRow (groupSet g) s (g.fill / w)) s

/-- The seal of a spill that has ended or stops: the SHUTDOWN record (02 R59, 05 R139, R140). How long the spill took is free (log entry 7). -/
def sealFlush (cause : Nat) (f : Flush) (s : State) : State :=
  if s.safe.noSpill then s
  else
    let (us, s) := draw (progLastRows s)
    sealJournal cause f.lastSpilled (us % 2 ^ 32) f.spilled f.unspilled s

/-- Step 9 of the stopper table: the journal is sealed with CAUSE 4 (14 R394, R396). -/
def endStopperSpill (f : Flush) (s : State) : State :=
  onSafe (fun x => { x with spilled := true, sealed := true, spillDone := true }) (onFlush (fun _ => none) (writeOut (sealFlush 4 f s)))

/-- Whether an INTENT record that carries blocks is written, or waits to be, and not yet durable: the flush may still take its extent up (02 R58). -/
def intentOpen (s : State) : Bool := s.exts.any (fun e => e.recno.isSome && !e.durable && e.compRec.isNone && !e.stopped && !e.mode.dealloc)

/-- What follows once nothing is left to spill. A spill within the thermal grace is sealed when the grace ends (12 R347). -/
def spillEnds (s : State) : State :=
  match s.flush with
  | none => s
  | some f =>
    if !f.toSpill.isEmpty ∨ f.sealing ∨ f.cause = 3 ∨ intentOpen s then s
    else if f.cause = 4 then endStopperSpill f s
    else endPowerFlush (writeOut (sealFlush f.cause f s))

/-- A spill begun with a cause, the suspended erases abandoned (07 R202); one that runs already is taken over by an input loss, and within the thermal grace goes on as it is (02 R57, 05
R140, 14, coincidences). A measurement is discarded (02, coincidences). -/
def beginFlush (cause : Nat) (s : State) : State :=
  let s := abandonSuspended (onPwr (fun p => { p with measuring := false }) s)
  match s.flush with
  | some f => if f.cause = 4 then spillEnds (onFlush (fun _ => some { f with cause := cause }) s) else s
  | none => spillEnds (onFlush (fun _ => some
      { toSpill := spillOrder s, lastSpilled := 0, spilled := 0, unspilled := 0, cause := cause, sealing := false }) s)

/-- Tokens of the extents that are still to be spilled. -/
def tokensLeft (s : State) (f : Flush) : Nat :=
  sumN (f.toSpill.map (fun id => match extBy s id with
    | some e => tokIn .journaled e
    | none => 0))

/-- A spill that stops before its end: what is left stays unspilled. -/
def stopSpill (s : State) : State :=
  onFlush (fun x => x.map (fun f => { f with toSpill := [], unspilled := f.unspilled + tokensLeft s f })) s

/-! ### Commands -/

/-- One run of tokens that fail their checks, reported now with CAUSE 3: its DEFERRED record, and its COMPLETION, LOST (05, cause table; 14 R396). -/
def lostRun (e : Extent) (s : State) (run : Nat × List XBlk) : State :=
  let s := deferRun false e.nsid (e.slba + run.1) run.2.length 3 e.ext e.gseq s
  let r := jrec e.gseq (.completion e.nsid (e.slba + run.1) (run.2.length - 1) e.ext .lost e.acked e.layout none)
  (journal { r with ctrl2 := isHostExt e && e.port = .b && dualPort s } s).2

/-- A token that fails its check is not spilled; those of a buffered, acknowledged extent are reported now, run by run (05 R140, cause table; 14
R396). -/
def spillCheckFailed (e : Extent) (failed : List Nat) (s : State) : State :=
  if e.mode.buffered && acknowledged s e then (tokenRuns (has failed) 0 e.blks).foldl (lostRun e) s else s

/-- SPILL_PROGRAM_STATUS: the spill program of the next extent ends; `failed` are the offsets of the blocks whose tokens failed their checks. On
success its COMPLETION records with outcome SPILLED are written, run by run; a failed program leaves the extent unspilled, a failed check its own
token; after the last the journal is sealed (02 R58, 05 R140, 14 R396). -/
def execSpillProgramStatus (ext : Nat) (ok : Bool) (failed : List Nat) (s : State) : Host.Outcome State Fault Refusal :=
  match s.flush with
  | none => .next s
  | some f =>
    match f.toSpill, extBy s ext with
    | x :: rest, some e =>
      if x ≠ ext then .next s
      else
        let n := tokIn .journaled e
        let s := spillCheckFailed e failed s
        let (s, done) := if ok then (tokenRuns (fun i => !has failed i) 0 e.blks).foldl (spillOne e) (s, 0) else (s, 0)
        .next (spillEnds (onFlush (fun _ => some { f with
          toSpill := rest, lastSpilled := if done > 0 then e.gseq else f.lastSpilled, spilled := f.spilled + done,
          unspilled := f.unspilled + (n - done) }) s))
    | _, _ => .next s

/-- BANK_RESERVE_REACHED: the bank falls to 17 V during a flush: the spill stops, the SHUTDOWN record is written with CAUSE 2, and class 8 is
recorded (02 R59). -/
def execBankReserveReached (s : State) : Host.Outcome State Fault Refusal :=
  match s.flush with
  | none => .next s
  | some f =>
    if f.sealing ∨ f.cause = 4 then .next s
    else
      let s := stopSpill (recordFault 8 s)
      match s.flush with
      | none => .next s
      | some f =>
        let s := sealFlush 2 f (onFlush (fun _ => some { f with cause := 2, sealing := true }) s)
        if s.jrnl.state = 5 then .next s else .next (endPowerFlush s)

/-- A SHUTDOWN record above the horizon is abandoned: its write never ends (02 R59). -/
def abandonSeal (s : State) : State :=
  onJrnl (fun j => { j with waiting := [], recs := j.recs.filter (fun r => r.recno ≤ j.horizon || (match r.body with
    | .shutdown .. => false
    | _ => true)) }) s

/-- HOLDUP_TIMEOUT: 1 ms after the bank's reserve the breaker leaves HOLDUP; a seal that is not durable is abandoned (02 R59). -/
def execHoldupTimeout (s : State) : Host.Outcome State Fault Refusal :=
  match s.flush with
  | none => .next s
  | some f => if f.sealing then .next (endPowerFlush (abandonSeal s)) else .next s

/-! ### The reserve (05 R148, R149) -/

/-- Whether a spill group has nothing left to place: its blocks are placed or lost, and the records that say so are durable (05 R132, R149). -/
def spillDone (s : State) (g : Nat) : Bool :=
  !s.jrnl.recs.any (fun r => match r.body with
    | .completion n sl nlb _ .spilled _ _ (some a) => a.set = g &&
        (isLive s r || (ahead s).any (fun q => (List.range (nlb + 1)).any (fun i => coveredBy n r.gseq (sl + i) q)))
    | _ => false)

/-- A unit on its way into the spill reserve: a UNIT record with STATE 2, and once it is durable an erase and a header (05 R132, R148, 08 R216, R222). -/
def reserveUnit (g : Nat) (members : List (Option Nat)) (s : State) (a : Nat) : State :=
  let (r, s) := noteNo (.unit false a 3 2) s
  queueErase 0 a r { state := 2, role := 3, cell := 0, set := some g, layout := (layout0 s).id, d := 15, createGseq := s.hx.gseq,
                     members := members, partner := none } (setUnit a (fun u => { u with state := 2 }) s)

/-- The members of a spill group, in channel order. -/
def groupMembers (us : List Nat) : List (Option Nat) := (List.range 16).map (fun c => us.find? (fun a => unitCh a = c))

/-- Spill units whose blocks are all placed or lost, erased and returned to the reserve (05 R149), but for those on targets that are not usable. -/
def recycleSpill (s : State) : State :=
  s.map.spills.foldl (fun s g =>
    if g.dirty && spillDone s g.group then
      let us := g.units.filter (unitUsable s)
      us.foldl (reserveUnit g.group (groupMembers us)) (onMap (fun m => { m with spills := m.spills.map (fun x =>
        if x.group = g.group then { x with units := us, fill := 0, written := false, dirty := false } else x) }) s)
    else s) s

/-- Units of the reserve, ready or on their way there. -/
def spillPlanned (s : State) : Nat :=
  sumN ((s.map.spills.filter (fun g => !g.written && !g.dirty)).map (fun g => g.units.length))

/-- The spill reserve grown by groups of one unit on each channel, as long as it is short and units can be had (05 R148, 08 R222). -/
def fillReserve : Nat → State → State
  | 0, s => s
  | fuel + 1, s =>
    if spillPlanned s ≥ spillNeed s (max s.pwr.budget s.pwr.budgetWant) then s
    else
      let ms := (List.range 16).map (fun c => if healthy s c then chooseUnit s false c else none)
      let us := ms.filterMap id
      if us.isEmpty ∨ freeSets s = 0 then s
      else match freeIndex (s.map.spills.map (fun g => g.group)) (s.map.spills.length + 1) 0 with
        | none => s
        | some g => fillReserve fuel (us.foldl (reserveUnit g ms) (onMap (fun m => { m with spills := m.spills ++
            [{ group := g, units := us, fill := 0, written := false, dirty := false }] }) s))

/-- A raised budget takes effect once the reserve matches it (05 R149), with NOTICE 0.3 (02 R56). -/
def raiseBudget (s : State) : State :=
  if s.pwr.budgetWant > s.pwr.budget ∧ spillHave s ≥ spillNeed s s.pwr.budgetWant then
    raise 0 3 0 0 (onPwr (fun p => { p with budget := p.budgetWant }) s)
  else s

/-- The spill reserve tended: recycled, grown, and a raised budget taken (05 R148, R149). -/
def tendReserve (s : State) : State := raiseBudget (fillReserve 4096 (recycleSpill s))

/-- A durable record may let a spill group return to the reserve (05 R149). -/
def tendDirty (s : State) : State := if s.map.state = 3 && s.map.spills.any (fun g => g.dirty && spillDone s g.group) then tendReserve s else s

/-! ### The horizon -/

/-- What a durable record does to a flush: the seal of one that the bank's reserve cut short ends it (02 R59), and so does the last INTENT record that
it waited for where nothing is left to spill (02 R58). -/
def flushDurable (r : JRec) (s : State) : State :=
  match r.body, s.flush with
  | .shutdown .., some f => if f.sealing then endPowerFlush s else s
  | .intent .., some _ => spillEnds s
  | _, _ => s

/-- RECORD_DURABLE: the read-back of the next record passes, the horizon advances, and what depends on the record is released, the erases that wait for
it among them (05 R131, R132). -/
def execRecordDurable (s : State) : Host.Outcome State Fault Refusal :=
  match s.jrnl.recs.find? (fun r => r.recno = s.jrnl.horizon + 1) with
  | none => .next s
  | some r =>
    if s.jrnl.state < 3 then .next s
    else .next (flushDurable r (tendDirty (pumpErases (afterRecord r.recno (recordEffect r (advance r.recno s))))))

end Sys2Proof.Machine
end

