-- ==== Sys2Proof/Machine/Replay.lean ====
section
/-! DEFINITION. The scan (05 R143), the survey (05 R144), replay (05 R145 to R147) and the loading of the map (06 R184, R185, 10 R292,
R301, R303). -/

namespace Sys2Proof.Machine

open Sys2Proof

/-! ### The scan -/

/-- The highest passing record number (05 R143). -/
def highestPass (s : State) (failing : List Nat) : Nat :=
  (s.jrnl.recs.filter (fun r => !has failing (slotOf r.recno))).foldl (fun m r => max m r.recno) 0

/-- The record number that a slot holds, below a highest one (05 R143); 0 where none can. -/
def slotNumber (top slot : Nat) : Nat :=
  let d := (slotOf top + Config.slots - slot) % Config.slots
  top - d

/-- Failing slots that are torn head records: within 8 record numbers below the highest passing one (05 R143). -/
def tornSlots (top : Nat) (failing : List Nat) : List Nat :=
  failing.filter (fun f => 0 < slotNumber top f && slotNumber top f < top && slotNumber top f + 8 ≥ top)

/-- The newest record of a test. -/
def newestOf (s : State) (p : JBody → Bool) : Option JRec := argMax (fun r => r.recno) (s.jrnl.recs.filter (fun r => p r.body))

/-- The next global write sequence that the journal shows: above every data record, at least that of every other (05 R130). -/
def nextGseq (s : State) : Nat :=
  s.jrnl.recs.foldl (fun g r => max g (match r.body with
    | .intent .. => r.gseq + 1
    | .completion .. => r.gseq + 1
    | .deferred .. => r.gseq + 1
    | _ => r.gseq)) s.hx.gseq

/-- The entries of C1h on one controller, and how many do not fit (05 R449). -/
def rebuildC1 (s : State) (p : Port) : State :=
  let es : List C1Entry := s.jrnl.recs.filterMap (fun r => match r.body with
    | .deferred n sl nlb c c1 c2 _ secs =>
      let u := uncleared s r.recno c1 c2
      let on := match p with
        | .a => u.1
        | .b => u.2
      if on && lastCopy s r then
        some { nsid := n, cause := c, nlb := nlb, slba := sl, seq := r.gseq, seconds := secs, recno := r.recno, stamp := 0 }
      else none
    | _ => none)
  setCtl p (fun c => { c with c1 := es.take 256, dropped := sat 32 (es.length - 256), pend := distinct (es.map (fun e => e.nsid)) }) s

/-- Reservations and write protection from their live records; reservations survive only where PTPL is on (04, features; log entry 23). -/
def rebuildResv (s : State) : State :=
  let s := s.jrnl.recs.foldl (fun s r => if isLive s r then (match r.body with
    | .reservation n h k t a => applyResv n h k t a s
    | .nsState n w => applyNsState n w s
    | _ => s) else s) s
  onHold (fun l => l.filter (fun x => has s.ptpl x.nsid)) (onResv (fun l => l.filter (fun x => has s.ptpl x.nsid)) s)

/-- The last flush, from the newest SHUTDOWN record (02, PWR registers). -/
def loadFlush (s : State) : State :=
  match newestOf s (fun b => match b with
    | .shutdown .. => true
    | _ => false) with
  | some r => (match r.body with
    | .shutdown _ _ us sp un _ _ => onPwr (fun p => { p with flushUs := us, flushSpilled := sp, flushUnspilled := un }) s
    | _ => s)
  | none => s

/-- The newest CKPT_END (05 R141). -/
def loadCkpt (s : State) : State :=
  match newestOf s (fun b => match b with
    | .ckptEnd .. => true
    | _ => false) with
  | some r => (match r.body with
    | .ckptEnd num _ _ b _ => onJrnl (fun j => { j with ckptNum := num, ckptBegin := b }) s
    | _ => s)
  | none => s

/-- The half that the head is not in: free where it holds neither a live record nor one of the delta, and to be carried forward where the newest
checkpoint began after all of it (05 R137). -/
def loadHalves (s : State) : State :=
  let h := activeHalf s
  let there := s.jrnl.recs.filter (fun r => halfOf r.recno ≠ h)
  let live := there.any (fun r => isLive s r && lastCopy s r)
  let delta := there.any (fun r => r.recno ≥ s.jrnl.ckptBegin)
  onJrnl (fun j => { j with otherFree := !live && !delta, carryDue := live && !delta && j.ckptNum > 0 }) s

/-- Blocks accepted since a record: those of the INTENT records after it (05 R135). -/
def acceptedSince (s : State) (recno : Nat) : Nat :=
  sumN (s.jrnl.recs.map (fun r => match r.body with
    | .intent _ _ n _ _ _ _ _ => if r.recno > recno && !r.carried then n + 1 else 0
    | _ => 0))

/-- What the records show of the checkpoint triggers (05 R135): the blocks accepted since the newest CKPT_BEGIN, and the trigger that stands, a half
that no checkpoint has followed, a checkpoint that did not end, or the count. -/
def loadTriggers (s : State) : State :=
  let begun := newestOf s (fun b => match b with
    | .ckptBegin .. => true
    | _ => false)
  let n := acceptedSince s (match begun with
    | some r => r.recno
    | none => 0)
  let s := onJrnl (fun j => { j with accepted := n }) s
  let h := activeHalf s
  if s.jrnl.recs.any (fun r => halfOf r.recno ≠ h && r.recno ≥ s.jrnl.ckptBegin) then trigger 1 s
  else match begun with
    | some r => (match r.body with
      | .ckptBegin _ reason _ => if r.recno > s.jrnl.ckptBegin ∧ reason ≠ 2 then trigger reason s else if n ≥ 2 ^ 20 then trigger 0 s else s
      | _ => s)
    | none => if n ≥ 2 ^ 20 then trigger 0 s else s

/-- JOURNAL_SCAN: every slot is read once the MRAM is powered; `failing` are the slots that are not zero and fail their CRC (05 R143,
R449). -/
def execJournalScan (failing : List Nat) (s : State) : Host.Outcome State Fault Refusal :=
  if s.jrnl.state ≠ 0 ∨ ¬ s.pwr.railsOk ∨ s.safe.stopper then .next s
  else
    let top := highestPass s failing
    let torn := tornSlots top failing
    let cut := torn.foldl (fun c f => min c (slotNumber top f)) (top + 1)
    let s := onJrnl (fun j => { j with
      recs := j.recs.filter (fun r => !has failing (slotOf r.recno) && r.recno < cut),
      next := cut, horizon := cut - 1, state := 1, scanned := true }) s
    let s := onHx (fun x => { x with gseq := nextGseq s }) s
    let s := loadTriggers (loadHalves (loadFlush (loadCkpt (rebuildResv (rebuildC1 (rebuildC1 s .a) .b)))))
    let s := if torn.isEmpty then s else raise 4 5 0 0 s
    if failing.any (fun f => !has torn f) then .next (danger 4 21 0 s) else .next s

/-! ### The survey -/

/-- Units whose newest UNIT record has STATE 0 or 3 (05 R144): by set, or by unit. -/
def surveyed (s : State) (u : NandUnit) : Bool :=
  s.jrnl.recs.any (fun r => isLive s r && (match r.body with
    | .unit true a _ k => (k = 0 || k = 3) && (match u.header with
      | some h => h.set = some a && (h.role = 1 || h.role = 2)
      | none => false)
    | .unit false a _ k => (k = 0 || k = 3) && a = u.addr
    | _ => false))

/-- Whether a slot passes its CRC-64 check (05 R144, 08 R230). -/
def slotPasses (k : Slot) : Bool := k.check = blockCheck k.nsid k.lba k.hostMeta k.blk

/-- The index entries of a unit, from the pages that can be read: those that pass their check (05 R144). -/
def indexUnit (unreadable : List (Nat × Nat)) (u : NandUnit) : List Present :=
  (u.pages.filter (fun p => !unreadable.any (fun x => x.1 = u.addr && x.2 = p.1))).flatMap (fun p =>
    (p.2.filter (fun k => k.kind = 0 && !k.lost && slotPasses k)).map (fun k =>
      { nsid := k.nsid, lba := k.lba, gseq := k.gseq, spill := k.spill, media := { set := k.set, block := k.block } }))

/-- Whether the survey may begin: GEOMETRY and READ_TIMING have been handed over (05 R144). -/
def maySurvey (s : State) : Bool := s.jrnl.scanned && s.jrnl.state = 1 && s.prm.geometry.isSome && s.prm.readTiming.isSome

/-- SURVEY: the metadata of open and spill units is indexed; `unreadable` are the pages (unit and page) that neither decode nor can be
rebuilt from their braid (05 R144, R149). -/
def execSurvey (unreadable : List (Nat × Nat)) (s : State) : Host.Outcome State Fault Refusal :=
  if !maySurvey s ∨ s.safe.stopper then .next s
  else .next (onJrnl (fun j => { j with
    state := 2, surveyed := true, index := (s.media.nand.filter (surveyed s)).flatMap (indexUnit unreadable) }) s)

/-! ### The unit and set tables (06 R158, R185, 08 R219) -/

/-- Every unit address that GEOMETRY declares, ascending (06 R154). -/
def allUnits (s : State) : List Nat :=
  let g := geo s
  (List.range g.dies).flatMap (fun d => (List.range 8).flatMap (fun t => (List.range 16).flatMap (fun c =>
    if bit (nth g.fitted c 0) t then (List.range g.units).map (fun u => (c + 16 * t + 128 * d) * 16384 + u) else [])))

/-- Whether this device can read a header with a MAGIC, a VERSION and a PART (08 R233). -/
def knownHeader (magic version part : Nat) : Bool := magic = headerMagic && version = headerVersion && part = Config.part

/-- How a header page reads at start: one with another MAGIC, VERSION or PART is unreadable (08 R233). -/
def readAs : HeaderRead → HeaderRead
  | .foreign m v p => if knownHeader m v p then .copy 0 else .none
  | x => x

/-- How a unit's header read: as the command says, else copy 0 of what the medium holds. A unit on a target that is not usable gives none. -/
def headerOf (s : State) (hs : List (Nat × HeaderRead)) (a : Nat) : Option Header :=
  if !unitUsable s a then none
  else match (kvGet hs a).map readAs with
    | some .none => none
    | some .erased => none
    | _ => (nandUnit s a).bind (fun u => u.header)

/-- Whether a unit's header page is neither erased nor readable (08 R219). -/
def headerBad (hs : List (Nat × HeaderRead)) (a : Nat) : Bool := decide ((kvGet hs a).map readAs = some .none)

/-- Header copies of a unit that failed before one passed. -/
def badCopies (hs : List (Nat × HeaderRead)) (a : Nat) : Nat :=
  match (kvGet hs a).map readAs with
  | some (.copy c) => min c 3
  | some .none => 4
  | _ => 0

/-- The header pages read in SLC mode at each die's SLC offset (08 R219). -/
def readHeaders (s : State) : State :=
  (allUnits s).foldl (fun s a => readAt a 0 (levelsOf s (unitDie a) (bucketOf s a)) s) s

/-- A first start: no checkpoint mark, and no unit with a data role (03 R99). -/
def isFirstStart (s : State) : Bool :=
  s.jrnl.ckptNum = 0 && !s.media.nand.any (fun u => match u.header with
    | some h => h.role = 1 || h.role = 2
    | none => false)

/-- Unit table states by role (06 R158, 08 R221). -/
def roleState : Nat → Nat
  | 1 => 1
  | 2 => 1
  | 3 => 2
  | 4 => 3
  | 5 => 4
  | _ => 0

/-- The unit table; a retired unit keeps STATE 5 (DESIGN CHOICE, log entry 69). The PE count of a unit without history is the highest readable count of its die, but 0 at a first start (08 R219,
06 R185). -/
def unitTable (s : State) (hs : List (Nat × HeaderRead)) (first : Bool) : List UnitE :=
  let us := allUnits s
  let diePe (d : Nat) : Nat := if first then 0
    else us.foldl (fun m a => if unitDie a = d then (match headerOf s hs a with
      | some h => max m h.pe
      | none => m) else m) 0
  us.map (fun a => match headerOf s hs a with
    | some h => { addr := a, pe := h.pe, state := if has s.media.retired a then 5 else roleState h.role }
    | none => { addr := a, pe := diePe (unitDie a), state := if has s.media.retired a then 5 else 6 })

/-- STATE of the newest UNIT record of a set, and the GSEQ of that record. -/
def setRecord (s : State) (idx : Nat) : Option (Nat × Nat) :=
  (newestOf s (fun b => match b with
    | .unit true a _ _ => a = idx
    | _ => false)).bind (fun r => match r.body with
      | .unit _ _ _ k => some (k, r.gseq)
      | _ => none)

/-- Pages programmed in the rows of a set, from its members' media. -/
def rowsWritten (s : State) (members : List (Option Nat)) : Nat :=
  (members.filterMap id).foldl (fun m a => match nandUnit s a with
    | some n => n.pages.foldl (fun m p => max m p.1) m
    | none => m) 0

/-- The members of a set of the table: the units whose own headers name its formation, and where a channel has none, the unit that the newest header names
there, if its own header cannot be read (06 R158, 08 R219). -/
def tableMembers (s : State) (hs : List (Nat × HeaderRead)) (heads : List (Nat × Nat × Header)) (idx : Nat) (h : Header) : List (Option Nat) :=
  (List.range 16).map (fun c =>
    match heads.find? (fun x => x.2.1 = idx && x.2.2.createGseq = h.createGseq && unitCh x.1 = c) with
    | some x => some x.1
    | none => (nth h.members c none).bind (fun a => if (headerBad hs a || !unitUsable s a) && !has s.media.retired a then some a else none))

/-- A set of the table, from the headers of its newest formation (06 R158). A set left open is closed (log entry 26). CLOSE_GSEQ of a set whose UNIT record
with STATE 1 is no longer held is its CREATE_GSEQ: DESIGN CHOICE, the spec names no source (log entry 74). -/
def tableSet (s : State) (hs : List (Nat × HeaderRead)) (heads : List (Nat × Nat × Header)) (idx : Nat) (h : Header) : SetE :=
  let members := tableMembers s hs heads idx h
  { idx := idx, members := members, mode := h.cell, state := match setRecord s idx with
      | some (0, _) => 1
      | some (4, _) => 4
      | _ => 2,
    role := if h.cell = 0 then 0 else 1, layout := h.layout, d := h.d,
    closeGseq := match setRecord s idx with
      | some (1, g) => g
      | _ => h.createGseq,
    createGseq := h.createGseq, fill := rowsWritten s members * h.d * slotsPerPage s, row := [], failed := [], rebuild := false,
    released := match setRecord s idx with
      | some (4, _) => true
      | _ => false,
    erased := [] }

/-- The headers of data units that are not retired: unit, set and header. -/
def setHeads (s : State) (hs : List (Nat × HeaderRead)) : List (Nat × Nat × Header) :=
  (allUnits s).filterMap (fun a => (headerOf s hs a).bind (fun h =>
    if (h.role = 1 ∨ h.role = 2) ∧ ¬ has s.media.retired a then h.set.map (fun i => (a, i, h)) else none))

/-- The set table: each index with the newest formation among its units' headers. -/
def setTable (s : State) (hs : List (Nat × HeaderRead)) : List SetE :=
  let heads := setHeads s hs
  (distinct (heads.map (fun x => x.2.1))).filterMap (fun i =>
    (argMax (fun x => x.2.2.createGseq) (heads.filter (fun x => x.2.1 = i))).map (fun x => tableSet s hs heads i x.2.2))

/-- The spill groups (08 R222). -/
def spillTable (s : State) (hs : List (Nat × HeaderRead)) : List SpillGroup :=
  let heads := (allUnits s).filterMap (fun a => (headerOf s hs a).bind (fun h =>
    if h.role = 3 ∧ ¬ has s.media.retired a then h.set.map (fun i => (i, a)) else none))
  (distinct (heads.map (fun x => x.1))).map (fun g =>
    let us := (heads.filter (fun x => x.1 = g)).map (fun x => x.2)
    let rows := rowsWritten s (us.map some)
    { group := g, units := us, fill := rows * (us.length - 1) * slotsPerPage s, written := rows > 0, dirty := rows > 0 })

/-- The checkpoint image that the newest CKPT_END names. -/
def imageOf (s : State) : Option Image :=
  if s.jrnl.ckptNum = 0 then none
  else match s.media.ckpt with
    | some i => if i.num = s.jrnl.ckptNum then some i else s.media.work
    | none => s.media.work

/-- The units of the newest checkpoint. -/
def ckptUnits (s : State) : List Nat := match imageOf s with
  | some i => i.pairs.flatten
  | none => []

/-- The tables rebuilt (06 R158). Units of an older formation of a set index belong to no set and are free, and so are map-checkpoint units that the
newest checkpoint does not name. A set whose erase was cut short stays erasing (07 R202). -/
def rebuildTables (hs : List (Nat × HeaderRead)) (s : State) : State :=
  let sets := setTable s hs
  let inSet (a : Nat) : Bool := sets.any (fun e => e.members.any (fun m => m = some a))
  let us := (unitTable s hs (isFirstStart s)).map (fun u =>
    if (u.state = 1 ∧ ¬ inSet u.addr) ∨ (u.state = 3 ∧ ¬ has (ckptUnits s) u.addr) then { u with state := 0 } else u)
  onMap (fun m => { m with sets := sets, units := us, spills := spillTable s hs }) s

/-- The events of header copies that did not pass (08 R219); none at a first start, and none for an erased header page. -/
def headerEvents (hs : List (Nat × HeaderRead)) (s : State) : State :=
  hs.foldl (fun s x =>
    let s := (List.range (badCopies hs x.1)).foldl (fun s _ => raise 8 12 0 0 s) s
    if headerBad hs x.1 then raise 8 13 0 0 s else s) s

/-! ### Replay (05 R145) -/

/-- Where replay finds a block (05 R145). -/
inductive Source
  | present (a : MAddr)
  | spill (a : MAddr)
  | none
  deriving DecidableEq, Repr

def sourceOf (s : State) (nsid gseq lba : Nat) : Source :=
  let hit (sp : Bool) := s.jrnl.index.find? (fun p => p.nsid = nsid && p.lba = lba && p.gseq = gseq && p.spill = sp)
  match hit false with
  | some p => .present p.media
  | none => match hit true with
    | some p => .spill p.media
    | none => .none

/-- Whether a block goes on the run of the block before it: the same source, and for present blocks the next place. -/
def sameRun (a b : Source) : Bool :=
  match a, b with
  | .present x, .present y => x.set = y.set && y.block = x.block + 1
  | .spill _, .spill _ => true
  | .none, .none => true
  | _, _ => false

/-- Blocks (offset and source) grouped into contiguous runs that share a source. -/
def groupRuns : List (Nat × Source) → List (List (Nat × Source))
  | [] => []
  | x :: l => match groupRuns l with
    | (y :: ys) :: rest => if y.1 = x.1 + 1 ∧ sameRun x.2 y.2 then (x :: y :: ys) :: rest else [x] :: (y :: ys) :: rest
    | other => [x] :: other

/-- A block found in a spill unit (08 R222). -/
def spillSlot (s : State) (nsid gseq lba : Nat) : Option Slot :=
  (s.media.nand.flatMap (fun u => u.pages.flatMap (fun p => p.2))).find? (fun k =>
    k.spill && k.nsid = nsid && k.lba = lba && k.gseq = gseq)

/-- One erase carried out within the step (log entry 24): the cycles of it and of the header program, the PE count, and what the unit becomes. -/
def landErase (s : State) (e : Erase) : State :=
  let s := setUnit e.unit (fun u => { u with pe := sat 16 (u.pe + 1), state := e.use.state }) (playErases e.unit e.cell [] s)
  let h := headerFor s e.unit e.use
  let p : Prog := { id := 0, set := Config.noSet, row := 0, ch := unitCh e.unit, unit := e.unit, slots := [], items := [], header := some (h, e.use), run := run0 }
  putNand { addr := e.unit, header := some h, pages := [] } (playProgs p [] s)

/-- What is queued for a set carried out within the step: the erases and headers of its members, then its page programs (log entry 24). -/
def landSet (set : Nat) (s : State) : State :=
  let es := s.media.erases.filter (fun e => e.use.set = some set && e.use.role = 2)
  let ps := s.media.progs.filter (fun p => p.set = set)
  let s := onMedia (fun m => { m with
    erases := m.erases.filter (fun e => !(e.use.set = some set && e.use.role = 2)), progs := m.progs.filter (fun p => p.set ≠ set) }) s
  ps.foldl (fun s p => addPage p.unit (p.row + 1) p.slots (playProgs p [] s)) (es.foldl landErase s)

/-- The replay sets closed once every run is copied, and what they hold programmed (05 R145, 06 R159). -/
def landReplay (s : State) : State :=
  (s.map.sets.filter (fun e => e.role = 4 && e.state = 1)).foldl (fun s e => landSet e.idx (closeSet e.idx s)) s

/-- A run copied from spill into a replay unit, whose pages are filled in order (05 R145): its place. -/
def copySpilled (nsid gseq slba n layout : Nat) (s : State) : Option (MAddr × State) :=
  match takeRun 0 4 layout n false true false s with
  | none => none
  | some (i, b, s) =>
    let xs := (List.range n).map (fun k =>
      let blk := match spillSlot s nsid gseq (slba + k) with
        | some x => x.blk
        | none => zeroBlk
      (dataSlot s nsid (slba + k) gseq layout i (b + k) false false true blk, (none : Option PItem)))
    some ({ set := i, block := b }, appendRun i xs s)

/-- A COMPLETION that replay writes (05 R145). -/
def replayRec (r : JRec) (nsid slba nlb1 ext : Nat) (o : Outcome) (peers layout : Nat) (media : Option MAddr) : JRec :=
  { recno := 0, gseq := r.gseq, carried := false, replayed := true, ctrl2 := r.ctrl2,
    body := .completion nsid slba nlb1 ext o peers layout media }

/-- PEERS of the newest COMPLETION, SPILLED, of a run: the mirror peers that have acknowledged it (05 R130, R146). -/
def peersOf (s : State) (nsid gseq slba : Nat) : Nat :=
  match argMax (fun q => q.recno) (s.jrnl.recs.filter (fun q => match q.body with
    | .completion n sl nlb _ .spilled _ _ _ => n = nsid && q.gseq = gseq && sl ≤ slba && slba ≤ sl + nlb
    | _ => false)) with
  | some q => (match q.body with
    | .completion _ _ _ _ _ p _ _ => p
    | _ => 0)
  | none => 0

/-- The members of a mirror whose bit in PEERS is 0 (05 R146). -/
def unacked (s : State) (l : Layout) (peers : Nat) : List Nat := ((others s l).zipIdx.filter (fun x => !bit peers x.2)).map (fun x => x.1)

/-- The content of a replayed block: that of any slot with its NSID, LBA and GSEQ (05 R144). -/
def replayedBlk (s : State) (nsid gseq lba : Nat) : Blk :=
  match (s.media.nand.flatMap (fun u => u.pages.flatMap (fun p => p.2))).find? (fun k =>
      k.nsid = nsid && k.lba = lba && k.gseq = gseq && !k.lost && slotPasses k) with
  | some k => k.blk
  | none => zeroBlk

/-- A replayed run that other bricks must still hear of (05 R146, 10 R286): an extent of its own. -/
def owedExt (s : State) (r : JRec) (nsid slba n ext layout : Nat) (mode : Mode) (a : MAddr) (comp : Option Nat) (id : Nat) : Extent :=
  { id := id, origin := .replay, port := .a, nsid := nsid, slba := slba, nlb1 := n - 1, ext := ext, gseq := r.gseq, stamp := 0,
    mode := mode, layout := layout,
    blks := (List.range n).map (fun k =>
      let b := replayedBlk s nsid r.gseq (slba + k)
      { tok := .mirrorPending, blk := some b, check := blockCheck nsid (slba + k) (nsMeta s nsid) b,
        place := some { a with block := a.block + k }, ok := comp.isSome, lost := false }),
    recno := some r.recno, durable := true, stopped := false, waitOn := [], acked := 0, builders := [], resent := [],
    compRec := comp, zero := false, rxHeld := 0 }

/-- A run on the medium closed: COMPLETION, PLACED, REPLAYED. A mirrored extent's home sends it to each member whose bit in PEERS is 0 (05 R146); a data
holder of a long braid keeps it open until its deltas are acknowledged, which loading the map sends (10 R286). -/
def closePlaced (r : JRec) (nsid slba n ext layout : Nat) (mode : Mode) (a : MAddr) (s : State) : State :=
  let l := (layoutBy s layout).getD (layout0 s)
  if l.cross = 5 ∧ slba < 2 ^ 39 then
    let (id, s) := newKey s
    onExts (fun es => es ++ [owedExt s r nsid slba n ext layout mode a none id]) s
  else
    let peers := peersOf s nsid r.gseq slba
    let tos := if isMirror l && isHome s nsid then unacked s l peers else []
    let (c, s) := journal (replayRec r nsid slba (n - 1) ext .placed peers layout (some a)) s
    if tos.isEmpty then s
    else
      let (id, s) := newKey s
      let e := { owedExt s r nsid slba n ext layout mode a (some c) id with waitOn := tos, acked := peers }
      tos.foldl (sendCopy e) (onExts (fun es => es ++ [e]) s)

/-- The cause of a deferred error found at replay (05, cause table). -/
def replayCause (s : State) : Nat :=
  match newestOf s (fun b => match b with
    | .shutdown .. => true
    | .start .. => true
    | _ => false) with
  | some r => (match r.body with
    | .shutdown 2 .. => 2
    | .shutdown 3 .. => 4
    | _ => 5)
  | none => 5

/-- One run of an open extent closed (05 R145). -/
def closeRun (r : JRec) (nsid slba ext layout : Nat) (mode : Mode) (cause : Nat) (s : State) (run : List (Nat × Source)) : State :=
  match run with
  | [] => s
  | (off, src) :: _ =>
    let n := run.length
    match src with
    | .present a => closePlaced r nsid (slba + off) n ext layout mode a
        (onJrnl (fun j => { j with skipped := inc 32 j.skipped }) s)
    | .spill _ => (match copySpilled nsid r.gseq (slba + off) n layout s with
      | some (a, s) => closePlaced r nsid (slba + off) n ext layout mode a (onJrnl (fun j => { j with redriven := inc 32 j.redriven }) s)
      | none => s)
    | .none =>
      let s := deferRun true nsid (slba + off) n cause ext r.gseq (onJrnl (fun j => { j with deferred := inc 32 j.deferred }) s)
      (journal (replayRec r nsid (slba + off) (n - 1) ext .lost 0 layout none) s).2

/-- The source of a run. -/
def runSource (run : List (Nat × Source)) : Source := match run with
  | (_, x) :: _ => x
  | [] => .none

/-- The runs of an extent in the order of R145: those with source spill, then present, then none. -/
def runsInOrder (rs : List (List (Nat × Source))) : List (List (Nat × Source)) :=
  let rank (run : List (Nat × Source)) : Nat := match runSource run with
    | .spill _ => 0
    | .present _ => 1
    | .none => 2
  sortBy rank rs

/-- One open extent replayed (05 R145). -/
def replayExt (cause : Nat) (s : State) (r : JRec) : State :=
  match r.body with
  | .intent nsid slba nlb1 ext mode layout _ _ =>
    let offs := uncovered s nsid r.gseq slba nlb1
    let srcs := offs.map (fun i => (i, sourceOf s nsid r.gseq (slba + i)))
    if offs.isEmpty then s
    else if mode.dealloc then (journal (replayRec r nsid slba nlb1 ext .deallocated 0 layout none) s).2
    else if !mode.buffered && srcs.any (fun x => x.2 = .none) then
      raise 4 6 0 0 (onJrnl (fun j => { j with abandoned := inc 32 j.abandoned })
        (journal (replayRec r nsid slba nlb1 ext .abandoned 0 layout none) s).2)
    else (runsInOrder (groupRuns srcs)).foldl (closeRun r nsid slba ext layout mode cause) s
  | _ => s

/-- The open extents, in ascending GSEQ; of an intent and its carried copies the last. -/
def openIntents (s : State) : List JRec :=
  sortBy (fun r => r.gseq) (s.jrnl.recs.filter (fun r => (match r.body with
    | .intent .. => true
    | _ => false) && lastCopy s r && isLive s r))

/-- START written, with REPLAYED as every record that replay writes (05 R129), and INFO 4.0 raised: the journal runs (05 R145). -/
def endReplay (s : State) : State :=
  let j := s.jrnl
  let r := jrec s.hx.gseq (.start s.dev.powerOn s.boot.genUsed j.redriven j.skipped j.deferred j.abandoned s.dev.secs)
  let s := (journal { r with replayed := true } s).2
  raise 4 0 0 0 (onJrnl (fun j => { j with state := 4, index := [] }) s)

/-- Reservations that did not persist: their records are ended (log entry 23). -/
def endResv (s : State) : State :=
  s.jrnl.recs.foldl (fun s r => match r.body with
    | .reservation n h k _ 0 => if isLive s r && !has s.ptpl n then note (.reservation n h k 0 1) s else s
    | _ => s) s

/-- Replay restarted from the scan, with NOTICE 4.2 (05 R147). -/
def restartReplay (s : State) : State :=
  raise 4 2 0 0 (onAon (fun a => { a with replayRestarts := inc 8 a.replayRestarts })
    (onJrnl (fun j => { j with state := 0, scanned := false, surveyed := false, index := [] }) s))

/-- Whether an earlier start was cut short in its replay: records that replay wrote stand after the newest START, and this start has replayed nothing
yet (05 R147). A long braid's deltas may close a replayed extent after START (10 R286). -/
def replayCut (s : State) : Bool :=
  let from_ := match newestOf s (fun b => match b with
      | .start .. => true
      | _ => false) with
    | some r => r.recno
    | none => 0
  s.boot.phase ≠ 7 && s.jrnl.recs.any (fun r => r.replayed && !r.carried && r.recno > from_ && (match r.body with
    | .completion _ sl _ _ _ _ lay _ => sl ≥ 2 ^ 39 || decide (((layoutBy s lay).getD (layout0 s)).cross ≠ 5)
    | _ => true))

/-- A replay that begins again after one that was cut short: NOTICE 4.2, counted (05 R147). -/
def tellReplayCut (s : State) : State :=
  if replayCut s then raise 4 2 0 0 (onAon (fun a => { a with replayRestarts := inc 8 a.replayRestarts })  s) else s

/-- Whether replay may run: the gates are released, and scan and survey have ended (05 R145). -/
def mayReplay (s : State) : Bool :=
  s.boot.gates && s.boot.release.isNone && s.jrnl.scanned && s.jrnl.surveyed && s.jrnl.state = 2 && !s.safe.stopper && s.therm.shut.isNone && s.flush.isNone

/-! ### Loading the map (06 R184) -/

/-- The newest live SWITCH or RELEASE record of a namespace (10 R301). -/
def layoutRec (s : State) (nsid : Nat) : Option JRec :=
  argMax (fun r => r.recno) (s.jrnl.recs.filter (fun r => isLive s r && (match r.body with
    | .splicePhase _ .switch n _ _ _ _ => n = nsid
    | .splicePhase _ .release n _ _ _ _ => n = nsid
    | _ => false)))

/-- Whether the exchange of a namespace's splice lies in the delta (10 R292). -/
def switchInDelta (s : State) (nsid : Nat) : Bool :=
  s.jrnl.recs.any (fun r => r.recno ≥ s.jrnl.ckptBegin && !r.carried && (match r.body with
    | .splicePhase _ .switch n _ _ _ _ => n = nsid
    | _ => false))

/-- The layouts in force as the delta begins (10 R292, R301). -/
def loadLayouts (s : State) : State :=
  onBraid (fun b => { b with layoutOf := s.prm.namespaces.filterMap (fun n => (layoutRec s n.nsid).bind (fun r => match r.body with
    | .splicePhase _ _ _ old new _ _ => some (n.nsid, if switchInDelta s n.nsid then old else new)
    | _ => none)) }) s

/-- The GSEQ of a record of the delta, kept for the blocks whose content it changes (05 R141). -/
def learnGseq (nsid slba nlb1 gseq : Nat) (s : State) : State :=
  (List.range (nlb1 + 1)).foldl (fun s i =>
    if gseqAt s nsid (slba + i) ≤ gseq then
      onMap (fun m => { m with known := (nsid, slba + i, gseq) :: m.known.filter (fun x => !(x.1 = nsid && x.2.1 = slba + i)) }) s else s) s

/-- One record of the delta (05 R141, 10 R292). -/
def applyDelta (s : State) (r : JRec) : State :=
  match r.body with
  | .completion n sl nlb _ .placed _ _ (some a) => learnGseq n sl nlb r.gseq (applyPlaced n sl nlb r.gseq a s)
  | .completion n sl nlb _ .deallocated _ _ _ => learnGseq n sl nlb r.gseq (applyDealloc n sl nlb r.gseq s)
  | .mapUpdate n sl nlb k old new => applyMove n sl nlb k old new s
  | .splicePhase _ .switch n old new _ _ =>
    if r.carried then s
    else match layoutBy s old, layoutBy s new with
      | some a, some b => exchangeRuns n new (isLocalRun a b) s
      | _, _ => s
  | _ => s

/-- The delta: the records from BEGIN_RECNO to the horizon (05 R141). -/
def deltaRecs (s : State) : List JRec :=
  s.jrnl.recs.filter (fun r => r.recno ≥ s.jrnl.ckptBegin && r.recno ≤ s.jrnl.horizon)

/-- The delta applied: hanks at rest then have the forms of R167, and what the records said of GSEQs is no longer needed (05 R141, 06 R167). -/
def applyDeltas (s : State) : State :=
  onMap (fun m => { m with known := [] }) (settleForms ((deltaRecs s).foldl applyDelta s))

/-- The map from the checkpoint (05 R141): every hank unmapped at a first start (06 R185). -/
def loadImage (s : State) : State :=
  match imageOf s with
  | some i =>
    let s := onMap (fun m => { m with hanks := i.hanks, strands := i.strands }) s
    let s := onMedia (fun m => { m with levels := i.levels, fidAt := i.fidAt, ckpt := some i, work := none }) s
    onPs (fun p => { p with pos := i.patrol.map (fun x => x.1), pass := i.patrol.map (fun x => x.2) }) s
  | none => s

/-- The phase in which a splice resumes (10 R303): a paused one in the phase its last record before names. -/
def resumePhase (s : State) (r : JRec) (id : Nat) (ph : SPhase) : SPhase :=
  match ph with
  | .paused => (match argMax (fun q => q.recno) (s.jrnl.recs.filter (fun q => q.recno < r.recno && (match q.body with
      | .splicePhase i p _ _ _ _ _ => i = id && p ≠ .paused
      | _ => false))) with
    | some q => (match q.body with
      | .splicePhase _ p _ _ _ _ _ => p
      | _ => .build)
    | none => .build)
  | .switch => .release
  | p => p

/-- Hanks of a namespace named by an INTENT of the delta (10 R303). -/
def deltaHanks (s : State) (nsid : Nat) : List Nat :=
  distinct ((deltaRecs s).filterMap (fun r => match r.body with
    | .intent n sl _ _ _ _ _ _ => if n = nsid then some (sl / 32) else none
    | _ => none))

/-- The mapped blocks of a namespace, A of 10 R291. -/
def mappedOf (s : State) (nsid : Nat) : Nat := match nsOf s nsid with
  | some n => nsMapped s n
  | none => 0

/-- A splice or repair resumed from its newest record (10 R303; log entry 27). -/
def resumeOne (s : State) (r : JRec) : State :=
  match r.body with
  | .splicePhase id ph n old new bm pr =>
    let o := (layoutBy s old).getD (layout0 s)
    let l := (layoutBy s new).getD (layout0 s)
    let driver := (layoutBy s old).isSome && (o.cross = 0 || o.pos = 0)
    let ended := ph = .aborted || (ph = .release && (pr = some releaseEnd || (pr.getD 0) ≥ hanksOf s n))
    if !isLive s r || !driver || ended then s
    else
      let rep := old = new
      let saved := match bm, imageOf s with
        | some _, some i => (kvGet i.dirty id).getD []
        | _, _ => []
      let p : Splice :=
        { id := id, phase := resumePhase s r id ph, left := resumePhase s r id ph, nsid := n, old := old, new := new,
          builders := if rep then others s l else buildersOf s o l, reserved := [], progress := pr.getD 0,
          dirty := (saved ++ deltaHanks s n).foldl insNat [], verified := 0, diffs := 0, diffAt := [], folds := [],
          dual := true, auto := false, repair := rep, lostBuilder := false, paused2 := false, refusal := 0,
          startSecs := s.dev.secs, localRun := !rep && isLocalRun o l, reserve := if !rep && isLocalRun o l && ph ≠ .release then reserveBlocks (mappedOf s n) l else 0, cmd := none,
          ready := false, told := [], phaseTags := [], again := [] }
      let s := onBraid (fun b => { b with splices := b.splices ++ [p], nextId := id + 1 }) s
      if rep then
        (others s l).foldl (fun s e => (linksTo s e).foldl (fun s k =>
          setLink k.1 k.2 (fun k => { k with stale := insNat k.stale n }) s) s) s
      else s
  | _ => s

/-- Every splice resumed. -/
def resumeAll (s : State) : State := s.jrnl.recs.foldl resumeOne s

/-- The record that ends a RELEASE, at the first start at which the release is complete and the image names the new layout (10 R301). -/
def endReleases (s : State) : State :=
  s.jrnl.recs.foldl (fun s r => match r.body with
    | .splicePhase id .release n old new _ pr =>
      if isLive s r && (pr.getD 0) ≥ hanksOf s n && (match nsOf s n with
          | some e => e.layout = new
          | none => false) then
        note (.splicePhase id .release n old new none (some releaseEnd)) s else s
    | _ => s) s

/-- Counters at start (06 R184, step 5). -/
def loadHeat (s : State) : State :=
  let t := match s.prm.mapping with
    | some m => m.promoteT + 1
    | none => 0
  let hot := s.map.hanks.filter (fun e => match e.2 with
    | .strand _ => true
    | _ => false)
  onMap (fun m => { m with heat := hot.map (fun e => (e.1, (t, epoch s % 8))) }) s

/-- The size of the SLC buffer at a start (06 R170). -/
def loadSlc (s : State) : State :=
  let p := 4096 * sumN ((s.map.sets.filter (fun e => e.mode = 0)).map (setCap s))
  let t := slcTarget s
  onMap (fun m => { m with slc := if 99 * p ≤ 100 * t ∧ 100 * t ≤ 101 * p then min t p else t, slcF := freeHanks s }) s

/-- Scheduled rewrites that are live (05 R130). -/
def loadRewrites (s : State) : State :=
  onMap (fun m => { m with rewrites := s.jrnl.recs.filterMap (fun r => match r.body with
    | .rewrite a c 0 => if isLive s r && lastCopy s r then some (a, c) else none
    | _ => none) }) s

/-- Sets left open by the last run, closed (log entry 26). -/
def closeLeft (s : State) : State :=
  s.map.sets.foldl (fun s e => if e.state = 1 then
    note (.unit true e.idx (if e.mode = 0 then 2 else 1) 1)
      (setSet e.idx (fun e => { e with state := 2, closeGseq := s.hx.gseq }) s) else s) s

/-- Deltas of replayed long-braid extents, sent once the old blocks can be read (10 R286). -/
def sendOwed (s : State) : State :=
  (s.exts.filter (fun e => decide (e.origin = .replay) && e.compRec.isNone)).foldl (fun s e =>
    let e := { e with blks := e.blks.map (fun b => { b with ok := true }) }
    sendDeltas e ((layoutBy s e.layout).getD (layout0 s)) (setExt e.id (fun _ => e) s)) s

/-- PREPARE redone: its record is written again, and with it every builder is asked again (10 R303). -/
def redoPrepare (s : State) : State :=
  s.braid.splices.foldl (fun s p => if p.phase = .prepare then enterPhase p.id .prepare s else s) s

/-- One member of a released set: a unit that failed to program is retired, NOTICE 5.5; one on a failed target, whose set stays erasing, is left alone,
and so is one that another set has taken; any other is erased once the record of the release is durable, and its WHIPPING_ONLY header follows (06 R175,
R179, 07 R209, 08 R216). -/
def releaseMember (e : SetE) (after : Nat) (s : State) (addr : Nat) : State :=
  let ended (s : State) : State := setSet e.idx (fun x => { x with erased := insNat x.erased (unitCh addr) }) s
  if has s.media.retired addr then ended s
  else if has e.failed addr then ended (retire 5 addr s)
  else if s.map.sets.any (fun x => x.idx ≠ e.idx && x.members.any (fun m => m = some addr)) then ended s
  else if !unitUsable s addr then s
  else queueErase e.mode addr after (freeUse s) s

/-- Sets whose erase was cut short, erased again before their members become free (07 R202). -/
def eraseMembersAgain (s : State) : State :=
  (s.map.sets.filter (fun e => e.state = 4)).foldl (fun s e => (e.members.filterMap id).foldl (releaseMember e 0) s) s

/-- Motur starts: what waits for the journal and for the gates is done, a shortage of native capacity is found (06 R181), and INFO 5.0 raised (06 R184). -/
def startMotur (s : State) : State :=
  let s := checkCapacity (onMap (fun m => { m with state := 3 }) s)
  raise 5 0 0 0 (settle (sendOwed (tendReserve (eraseMembersAgain (closeLeft (endReleases (redoPrepare s)))))))

/-- Whether a spilled run of an open extent is still to be copied: no replay unit had room for it (05 R145; log entry 75). -/
def spillLeft (s : State) : Bool :=
  s.jrnl.recs.any (fun r => isLive s r && (match r.body with
    | .completion n sl nlb _ .spilled _ _ _ => (uncovered s n r.gseq sl nlb).any (fun i => match sourceOf s n r.gseq (sl + i) with
      | .spill _ => true
      | _ => false)
    | _ => false))

/-- REPLAY: open extents and spilled runs are closed in ascending GSEQ, and START is written (05 R145 to R147). The tokens that replay claims are filling
within the step only. A replay that an earlier start left unfinished is a restart (R147). `restart`: a fault ends the attempt, which begins again from the scan. Where no replay unit has room for a spilled run, replay does
not end: the next REPLAY goes on (log entry 75). -/
def execReplay (restart : Bool) (s : State) : Host.Outcome State Fault Refusal :=
  if !mayReplay s then .next s
  else if restart then .next (restartReplay s)
  else
    let first := isFirstStart s
    let s := tellReplayCut s
    let s := onBoot (fun b => { b with firstStart := first, phase := max b.phase 7 }) (onJrnl (fun j => { j with state := 3 }) s)
    let s := if s.map.state = 0 then rebuildTables [] s else s
    let s := landReplay ((openIntents s).foldl (replayExt (replayCause s)) s)
    if spillLeft s then .next (onJrnl (fun j => { j with state := 2 }) s)
    else
      let s := endReplay (endResv s)
      .next (if s.map.state = 2 then startMotur s else s)

/-- Whether the map may be loaded: replay has ended and its records are durable, or the scan shows that replay has nothing to do (06
R184, 03 R62 text). -/
def mayLoad (s : State) : Bool :=
  s.map.state = 0 && s.prm.geometry.isSome && s.prm.mapping.isSome && !s.safe.stopper &&
  ((s.jrnl.state = 4 && s.jrnl.horizon + 1 = s.jrnl.next && s.jrnl.waiting.isEmpty) ||
   (s.jrnl.scanned && (s.jrnl.state = 1 || s.jrnl.state = 2) && (openIntents s).isEmpty))

/-- MAP_LOAD: the map from the newest checkpoint and the delta, the tables from the headers, the counters and the SLC size (06 R184).
`headers` says how header pages read that did not read at copy 0; `badPages` counts map pages of which neither copy can be read:
DANGER 4.22. -/
def execMapLoad (headers : List (Nat × HeaderRead)) (badPages : Nat) (s : State) : Host.Outcome State Fault Refusal :=
  if !mayLoad s then .next s
  else if badPages > 0 then .next (danger 4 22 0 (onMap (fun m => { m with state := 1 }) s))
  else
    let s := readHeaders s
    let s := if isFirstStart s then s else headerEvents headers s
    let s := applyDeltas (tellDegraded (fun _ => false) (loadLayouts (loadImage (rebuildTables headers s))))
    let s := loadRewrites (loadSlc (loadHeat (resumeAll s)))
    let s := onBoot (fun b => { b with phase := max b.phase 8 }) s
    .next (if s.jrnl.state = 4 then startMotur s else onMap (fun m => { m with state := 2 }) s)

end Sys2Proof.Machine
end

