-- ==== Sys2Proof/Machine/Motur.lean ====
section
/-! DEFINITION. Motur's own work: the heat sweep (06 R157, R164), folding (06 R171), collection (06 R173), rewrites (06 R180), rebuild
(10 R279, R280), wear moves (06 R177), and the ends of programs and erases: PROGRAM_STATUS (01 R27, R29, 06 R179, 08 R216), SET_ERASE and ERASE_STATUS (06
R175, R178). -/

namespace Sys2Proof.Machine

open Sys2Proof

/-- Whether Motur works (06, 14 R395, 11 R315). -/
def mayWork (s : State) : Bool :=
  s.map.state = 3 && s.jrnl.state = 4 && !s.safe.stopper && s.flush.isNone && s.therm.shut.isNone && partRuns s 4

/-! ### Relocation -/

/-- Whether all 32 blocks of a hank lie in one slot, or are to again: a change that failed left it between records. -/
def wholeForm (s : State) (h : Nat) : Bool := match kvGet s.map.hanks h with
  | some (.slot _ _) => true
  | some (.moving bs) => bs.all Option.isSome
  | _ => false

/-- A hank's blocks moved off a place that a test names: a hank in hank form as a whole into a hank slot, strands into the hot set (06
R171, R173). `src` says how the blocks read. A hank with a change in flight waits (06 R166), and so does one whose blocks lie on a die that is not
idle (07 R199, R200; log entry 68). -/
def relocHank (kind : MoveKind) (role : Nat) (worn : Bool) (p : MAddr → Bool) (src : RelocReads) (s : State) (h : Nat) : State :=
  let idxs := placesIn s h p
  if kvGet s.map.hanks h = some .invalid then danger 5 21 0 s
  else if idxs.isEmpty || hankBusy s h 0 || !sourcesIdle s (hankBlocks s h) then s
  else
    let lay := layoutOfHank s h
    if wholeForm s h then (copyHank h kind (geo s).cell role lay false worn src s).getD s
    else match takeRun (geo s).cell 2 lay idxs.length false true worn s with
      | some (i, b, s) => moveBlocks h kind idxs src lay i b s
      | none => s

/-- Every mapped block that a test names. -/
def blocksIn (s : State) (p : MAddr → Bool) : List (Option MAddr) :=
  s.map.hanks.flatMap (fun e => (hankBlocks s e.1).filter (fun b => match b with
    | some a => p a
    | none => false))

/-- Every hank with a block that a test names, moved off it; what the reads of those blocks give rise to (07 R207). -/
def relocAll (kind : MoveKind) (role : Nat) (worn : Bool) (p : MAddr → Bool) (src : RelocReads) (s : State) : State :=
  softAll src (blocksIn s p) s ((s.map.hanks.map (fun e => e.1)).foldl (relocHank kind role worn p src) s)

/-- The blocks of a set. -/
def inSet (idx : Nat) (a : MAddr) : Bool := a.set = idx

/-- Whether a media block lies on a unit. -/
def onUnit (s : State) (unit : Nat) (a : MAddr) : Bool := match pageAt s a with
  | some p => p.1 = unit
  | none => false

/-- The REWRITE records of a set's units closed with STATE 1 (06 R180, coincidences). -/
def closeRewrites (members : List (Option Nat)) (s : State) : State :=
  let mine := s.map.rewrites.filter (fun r => members.any (fun m => m = some r.1))
  onMap (fun m => { m with rewrites := m.rewrites.filter (fun r => !members.any (fun x => x = some r.1)) })
    (mine.foldl (fun s r => note (.rewrite r.1 r.2 1) s) s)

/-- The valid blocks of a set relocated; those of a unit that failed to program are copied before the rest of the set (06 R173, R179). -/
def relocSet (e : SetE) (kind : MoveKind) (role : Nat) (worn : Bool) (src : RelocReads) (s : State) : State :=
  let first (a : MAddr) : Bool := inSet e.idx a && e.failed.any (fun u => onUnit s u a)
  relocAll kind role worn (if (blocksIn s first).isEmpty then inSet e.idx else first) src s

/-- Whether every block of a set has been copied, or is on its way. -/
def allCopied (s : State) (e : SetE) : Bool :=
  s.map.hanks.all (fun x => (placesIn s x.1 (inSet e.idx)).isEmpty || hankBusy s x.1 0)

/-- A set's blocks copied into a set of the most worn free units, MAP_UPDATE kind 2; that set is closed once the last is copied (06 R177). -/
def wearCopy (e : SetE) (src : RelocReads) (s : State) : State :=
  let s := relocSet e .wear 5 true src s
  if allCopied s e then (s.map.sets.filter (fun x => x.role = 5 && x.state = 1)).foldl (fun s x => closeSet x.idx s) s else s

/-! ### The order of the work (06 R173, R179, 10 R279) -/

/-- GC_T1 (06 R172). -/
def gcT1 (s : State) : Nat := match s.prm.mapping with
  | some m => m.gcT1
  | none => 0

/-- The score of a set (06 R173). -/
def score (s : State) (e : SetE) : Nat :=
  let age := min ((s.hx.gseq - e.closeGseq) / 2 ^ 20) 1023
  validOf s e.idx * 1024 / (1024 + age)

/-- Whether a set has a valid block to copy: one on a hank with no change in flight. -/
def hasWork (s : State) (e : SetE) : Bool := !allCopied s e

/-- A set to evacuate after a program failure, ahead of all other work in the share (06 R179). -/
def evacSet (s : State) : Option SetE := s.map.sets.find? (fun e => has s.map.evac e.idx && hasWork s e)

/-- A set whose collection has begun, and whose last blocks had to wait (06 R166). -/
def begunSet (s : State) : Option SetE :=
  s.map.sets.find? (fun e => e.state = 3 && !e.rebuild && s.map.wear ≠ some e.idx && hasWork s e)

/-- The closed native set of the lowest score, lowest index on equal scores (06 R173). -/
def lowestSet (s : State) : Option SetE :=
  argMin (score s) (s.map.sets.filter (fun e => e.mode ≠ 0 && e.state = 2 && s.map.wear ≠ some e.idx && validOf s e.idx > 0))

/-- The set that a wear move empties, while it has blocks to copy (06 R177). -/
def wearSet (s : State) : Option SetE := (s.map.wear.bind (setBy s)).bind (fun e => if hasWork s e then some e else none)

/-- Whether collection is due: a set is begun, or free sets are fewer than GC_T1 (06 R172). -/
def collectionDue (s : State) : Bool := (begunSet s).isSome || (freeSets s < gcT1 s && (lowestSet s).isSome)

/-- The set that GARBAGE_COLLECTION takes: one to evacuate, then one begun before, then while collection is not due that of a wear move, which comes after
it, else the set of the lowest score (06 R173, R177, R179). -/
def collectable (s : State) : Option SetE :=
  match evacSet s with
  | some e => some e
  | none => match begunSet s with
    | some e => some e
    | none => match wearSet s with
      | some w => if collectionDue s then lowestSet s else some w
      | none => lowestSet s

/-- The least tolerance left of a set: failed members counted against the parity of its local part (10 R278, R279). -/
def tolerance (s : State) (e : SetE) : Int :=
  let bad := ((e.members.filterMap id).filter (fun u => !unitUsable s u)).length
  let t := match localOf s e with
    | 1 => 1
    | 2 => 2
    | 3 => 1
    | 4 => 2
    | _ => 0
  (t : Int) - bad

/-- The degraded set that rebuild takes: the least tolerance left, then the lowest index (10 R279). -/
def rebuildable (s : State) : Option SetE :=
  argMin (fun e => (tolerance s e + 16).toNat) (s.map.sets.filter (fun e => degradedSet s e && validOf s e.idx > 0))

/-- Whether work that R173 puts before demotions waits: rebuild, an evacuation, a rewrite, or collection that is due. -/
def workBefore (s : State) : Bool :=
  (rebuildable s).isSome || (evacSet s).isSome || !s.map.rewrites.isEmpty || collectionDue s

/-! ### Sweep, fold, collection, rewrite, rebuild -/

/-- HEAT_SWEEP: a heat entry decayed and written back; a cooled hank is demoted once the work before demotions is done (06 R157, R164, R173). The copy of a
hank that a failed program left between records is made again. -/
def execHeatSweep (hank : Nat) (src : RelocReads) (s : State) : Host.Outcome State Fault Refusal :=
  if !mayWork s then .next s
  else
    let c := heat s hank
    let s := touchHeat s hank
    let t := match s.prm.mapping with
      | some m => m.demoteT
      | none => 0
    let cooled := demotable s hank && c ≤ t
    let again := wholeForm s hank && !(hankBlocks s hank == []) && (match kvGet s.map.hanks hank with
      | some (.moving _) => true
      | _ => false)
    if (cooled || again) && !workBefore s && !hankBusy s hank 0 && sourcesIdle s (hankBlocks s hank) then
      .next (softAll src (hankBlocks s hank) s (demoteHank hank src s))
    else .next s

/-- Whether folding is due: occupancy reaches FOLD_PCT of C, or C lies below it (06 R171). -/
def foldDue (s : State) : Bool :=
  let pct := match s.prm.mapping with
    | some m => m.foldPct
    | none => 100
  slcUsed s > 0 && 100 * slcUsed s ≥ pct * s.map.slc

/-- One hank of a fold: in hank form into a hank slot; in strand form demoted where all its blocks are mapped and its counter is no higher
than PROMOTE_T, else its strands to the hot set (06 R171). The counter is read, and written back (06 R157). -/
def foldHank (idx : Nat) (src : RelocReads) (s : State) (h : Nat) : State :=
  let t := match s.prm.mapping with
    | some m => m.promoteT
    | none => 0
  if (placesIn s h (inSet idx)).isEmpty || hankBusy s h 0 || !sourcesIdle s (hankBlocks s h) then s
  else if demotable s h then
    let s := touchHeat s h
    if heat s h ≤ t then demoteHank h src s else relocHank .fold 3 false (inSet idx) src s h
  else relocHank .fold 3 false (inSet idx) src s h

/-- FOLD: the closed SLC set with the oldest CLOSE_GSEQ that still has valid blocks is folded; `src` says how they read (06 R171). -/
def execFold (src : RelocReads) (s : State) : Host.Outcome State Fault Refusal :=
  if !mayWork s then .next s
  else if !foldDue s then .next (onMap (fun m => { m with folding := false }) s)
  else match argMin (fun e => e.closeGseq) (s.map.sets.filter (fun e => e.mode = 0 && e.state = 2 && validOf s e.idx > 0)) with
    | none => .next s
    | some e =>
      .next (onMap (fun m => { m with folding := true })
        (softAll src (blocksIn s (inSet e.idx)) s ((s.map.hanks.map (fun x => x.1)).foldl (foldHank e.idx src) s)))

/-- GARBAGE_COLLECTION: the chosen set's valid blocks copied to the relocation set with MAP_UPDATE kind 1, or for a wear move with kind 2; rebuild and
scheduled rewrites are served before it, and an evacuation before those (06 R173, R177, R179, 10 R279). -/
def execGarbageCollection (src : RelocReads) (s : State) : Host.Outcome State Fault Refusal :=
  if !mayWork s || (rebuildable s).isSome || ((evacSet s).isNone && !s.map.rewrites.isEmpty) then .next s
  else match collectable s with
    | none => .next s
    | some e =>
      let s := setSet e.idx (fun e => { e with state := 3 }) s
      .next (if s.map.wear = some e.idx then wearCopy e src s else relocSet e .collection 3 false src s)

/-- REWRITE: the oldest scheduled rewrite: the valid blocks of its unit are copied to the relocation set with MAP_UPDATE kind 3; once the map names none of
them there any more, the REWRITE record is closed with STATE 1 (06 R180). -/
def execRewrite (src : RelocReads) (s : State) : Host.Outcome State Fault Refusal :=
  match s.map.rewrites with
  | [] => .next s
  | (unit, cause) :: rest =>
    if !mayWork s || (rebuildable s).isSome || (evacSet s).isSome then .next s
    else if (blocksIn s (onUnit s unit)).isEmpty then .next (note (.rewrite unit cause 1) (onMap (fun m => { m with rewrites := rest }) s))
    else .next (relocAll .rewrite 3 false (onUnit s unit) src s)

/-- REBUILD: a degraded set is taken: its valid blocks are relocated with MAP_UPDATE kind 6 (10 R279); `src` names those that neither the row nor a peer
can rebuild (10 R280). -/
def execRebuild (src : RelocReads) (s : State) : Host.Outcome State Fault Refusal :=
  match rebuildable s with
  | none => .next s
  | some e =>
    if !mayWork s then .next s
    else
      let s := if e.state = 1 then closeSet e.idx s else s
      let s := setSet e.idx (fun e => { e with state := 3, rebuild := true }) s
      .next (relocSet e .rebuild 3 false src s)

/-! ### Erasing sets -/

/-- Whether some change still names a set: blocks placed there, programs, row buffers, or records not yet durable (06 R175). -/
def setNamed (s : State) (idx : Nat) : Bool :=
  s.exts.any (fun e => e.blks.any (fun b => match b.place with
    | some a => a.set = idx
    | none => false)) ||
  s.media.progs.any (fun p => p.set = idx) ||
  (ahead s).any (fun r => match r.body with
    | .completion _ _ _ _ _ _ _ (some a) => a.set = idx
    | .mapUpdate _ _ _ _ o n => n.set = idx || (match o with
      | some a => a.set = idx
      | none => false)
    | _ => false)

/-- Whether a set may be erased: no valid block, no record outstanding, no read in flight to it (06 R175). -/
def mayErase (s : State) (e : SetE) : Bool :=
  (e.state = 2 || e.state = 3) && validOf s e.idx = 0 && !setNamed s e.idx &&
  !s.media.reads.any (fun r => e.members.any (fun m => m = some r.unit))

/-- PE_MIN and PE_MAX over the units that are not retired (06 R177). -/
def peMin (s : State) : Nat := match argMin (fun u => u.pe) (s.map.units.filter (fun u => u.state ≠ 5)) with
  | some u => u.pe
  | none => 0
def peMax (s : State) : Nat := match argMax (fun u => u.pe) (s.map.units.filter (fun u => u.state ≠ 5)) with
  | some u => u.pe
  | none => 0

/-- The mean PE of a set's members, times 2^10. -/
def meanPe (s : State) (e : SetE) : Nat :=
  let us := (e.members.filterMap id).filterMap (unitBy s)
  sumN (us.map (fun u => u.pe)) * 1024 / max us.length 1

/-- A wear move started: the closed native set whose members have the lowest mean PE, on equal means the oldest, is chosen; its blocks are copied by
GARBAGE_COLLECTION in the order of R173 (06 R173, R177). -/
def wearMove (s : State) : State :=
  let spread := match s.prm.mapping with
    | some m => m.wearSpread
    | none => 65535
  if s.map.wear.isSome || peMax s ≤ peMin s + spread || !mayWork s then s
  else match argMin (meanPe s) (sortBy (fun e => e.closeGseq)
      (s.map.sets.filter (fun e => e.idx ≥ Config.poolSets && e.state = 2))) with
    | none => s
    | some e => onMap (fun m => { m with wear := some e.idx }) (setSet e.idx (fun e => { e with state := 3 }) s)

/-- A set whose members have all ended: its index is free, but for one with a member on a failed target, which stays erasing (07 R209); the wear move that
emptied it has ended, INFO 5.9; the last degraded set gone raises INFO 11.9; the wear spread is checked (06 R175, R177, 10 R279). -/
def setGone (e : SetE) (s : State) : State :=
  let bad := degradedCount s
  let all := (setChans e).all (has e.erased)
  let s := onMap (fun m => { m with
    sets := if all then m.sets.filter (fun x => x.idx ≠ e.idx) else m.sets.map (fun x => if x.idx = e.idx then { x with rebuild := false } else x),
    evac := m.evac.filter (fun i => i ≠ e.idx) }) s
  let s := if s.map.wear = some e.idx then
      raise 5 9 0 0 (onMap (fun m => { m with wear := none, wearMoves := inc 16 m.wearMoves }) s) else s
  let s := if e.rebuild && bad = 0 then raise 11 9 0 0 s else s
  wearMove (tendReserve (resizeSlc s))

/-- A released set that has ended: every member's erase has, or its target has failed. -/
def maybeGone (idx : Nat) (s : State) : State :=
  match setBy s idx with
  | none => s
  | some e =>
    if e.state = 4 && (setChans e).all (fun c => has e.erased c || (match nth e.members c none with
        | some u => !unitUsable s u
        | none => true)) then setGone e s else s

/-- A member of a released set whose erase has ended. -/
def memberEnded (unit : Nat) (s : State) : State :=
  match s.map.sets.find? (fun e => e.state = 4 && e.members.any (fun m => m = some unit)) with
  | some e => maybeGone e.idx (setSet e.idx (fun x => { x with erased := insNat x.erased (unitCh unit) }) s)
  | none => s

/-- SET_ERASE: a set with no valid block is released by a UNIT record with STATE 4, and the erases of its members follow it (06 R175). -/
def execSetErase (set : Nat) (s : State) : Host.Outcome State Fault Refusal :=
  match setBy s set with
  | none => .next s
  | some e =>
    if !mayWork s || !mayErase s e then .next s
    else
      let (r, s) := noteNo (.unit true set (if e.mode = 0 then 2 else 1) 4) s
      let s := setSet set (fun e => { e with state := 4, released := true, erased := [] }) (closeRewrites e.members s)
      .next (maybeGone set ((e.members.filterMap id).foldl (releaseMember e r) s))

/-! ### Units that fail on their way into use (06 R178, R179, 08 R216) -/

/-- The new member put into what its set's other units become. -/
def withMember (i ch unit : Nat) (u : UnitUse) : UnitUse :=
  if u.set = some i ∧ (u.role = 1 ∨ u.role = 2) then { u with members := modAt u.members ch (fun _ => some unit) } else u

/-- A member of a set that failed to erase or to take its header: another free unit of the channel takes its place, with the programs that waited for it;
where there is none the set is closed (06 R179, 08 R216). -/
def replaceMember (i old : Nat) (u : UnitUse) (s : State) : State :=
  let ch := unitCh old
  match chooseUnit s false ch with
  | none => failSet i old [] true s
  | some v =>
    let ps := s.media.progs.filter (fun p => p.set = i && p.unit = old)
    let s := setSet i (fun e => { e with members := modAt e.members ch (fun _ => some v) }) (setUnit v (fun x => { x with state := 1 }) s)
    let s := onMedia (fun m => { m with
      progs := m.progs.filter (fun p => !(p.set = i && p.unit = old)),
      erases := m.erases.map (fun e => { e with use := withMember i ch v e.use }) }) s
    ps.foldl (fun s p => queueProg i p.row v p.slots p.items none s) (queueErase u.cell v 0 (withMember i ch v u) s)

/-- A spill unit that failed: its group takes another free unit of the channel, or goes without (05 R148, 06 coincidences). -/
def replaceSpill (g old : Nat) (s : State) : State :=
  let set (us : List Nat) (s : State) : State :=
    onMap (fun m => { m with spills := m.spills.map (fun x => if x.group = g then { x with units := us } else x) }) s
  match s.map.spills.find? (fun x => x.group = g) with
  | none => s
  | some x =>
    let rest := x.units.filter (fun a => a ≠ old)
    match chooseUnit s false (unitCh old) with
    | some v => reserveUnit g (groupMembers (rest ++ [v])) (set (sortBy unitCh (rest ++ [v])) s) v
    | none => set rest s

/-- A retired unit that was to be put into use, replaced by what its role asks for. -/
def replaceUnit (old : Nat) (u : UnitUse) (s : State) : State :=
  match u.role, u.set with
  | 1, some i => replaceMember i old u s
  | 2, some i => replaceMember i old u s
  | 3, some g => replaceSpill g old s
  | 4, _ => redoCkpt s
  | 5, _ => mirrorJournal s
  | _, _ => s

/-- ERASE_STATUS: an erase ends: the unit's PE count rises and its header is queued, or it is retired with NOTICE 5.4 and replaced where it was to be put
into use (06 R175, R178, 08 R216). -/
def execEraseStatus (unit : Nat) (ok rbHigh : Bool) (s : State) : Host.Outcome State Fault Refusal :=
  match s.media.erases.find? (fun e => e.unit = unit && running e.run) with
  | none => .next s
  | some e =>
    let s := rbDisagrees rbHigh (unitCh unit) (unitTgt unit) s
    let s := onMedia (fun m => { m with
      erases := m.erases.filter (fun x => x.id ≠ e.id),
      channels := modVec m.channels (unitCh unit) (fun c => { c with ersFails := if ok then c.ersFails else inc 16 c.ersFails }) }) s
    let s := if ok then
        queueHeader unit e.use (putNand { addr := unit, header := none, pages := [] }
          (setUnit unit (fun u => { u with pe := sat 16 (u.pe + 1) }) s))
      else replaceUnit unit e.use (retire 4 unit s)
    .next (pumpDie (memberEnded unit s) (unitDie unit))

/-! ### The end of a program -/

/-- A block of an extent on the medium: its token waits for the mirror peers, or for the completion record (01 R27). -/
def blockDone (ext k : Nat) (s : State) : State :=
  setExt ext (fun e => { e with blks := modAt e.blks k (fun b =>
    { b with ok := true,
             tok := if (e.waitOn.isEmpty && e.builders.isEmpty) || b.tok ≠ .inflight then b.tok else .mirrorPending }) }) s

/-- What a program carried, on the medium: tokens advance, and relocated blocks get their MAP_UPDATE records (05 R130); a copy for a
splice that has ended is of no use (10 R302). -/
def itemDone (s : State) (i : PItem) : State :=
  match i with
  | .ext x k => blockDone x k s
  | .move n l k o a => if k = .splice && !runOpen s n then s else note (.mapUpdate n l 0 k o a) s

/-- Whether the page read back is the first of its stripe: the first programmed member of a row (01 R29). -/
def firstOfStripe (s : State) (p : Prog) : Bool :=
  !s.map.sets.any (fun e => e.idx = p.set && (e.members.filterMap id).any (fun u => match nandUnit s u with
    | some n => (kvGet n.pages (p.row + 1)).isSome
    | none => false))

/-- A program failure counted on its channel. -/
def countPgmFail (unit : Nat) (s : State) : State :=
  onMedia (fun m => { m with channels := modVec m.channels (unitCh unit) (fun c => { c with pgmFails := inc 16 c.pgmFails }) }) s

/-- The program of a header page ended: the unit is what it was to become, or it is retired and replaced (08 R216). -/
def headerEnded (p : Prog) (h : Header) (u : UnitUse) (ok : Bool) (s : State) : State :=
  if ok then
    let s := setUnit p.unit (fun x => { x with state := u.state }) (match nandUnit s p.unit with
      | some n => putNand { n with header := some h } s
      | none => s)
    if u.role = 3 then raiseBudget s else s
  else replaceUnit p.unit u (retire 5 p.unit (countPgmFail p.unit s))

/-- The program of a page of a checkpoint or of the journal mirror ended; one that failed is written again with all its pages (08 R216, 06 R179). -/
def pairPageEnded (p : Prog) (ok : Bool) (s : State) : State :=
  if ok then addPage p.unit (p.row + 1) p.slots s
  else
    let ckpt := match s.media.work with
      | some im => has im.units p.unit
      | none => false
    let s := retire 5 p.unit (countPgmFail p.unit s)
    if ckpt then redoCkpt s else mirrorJournal s

/-- A page whose read-back fails its check (01 R29): for a block of an extent as its write stands; for a relocated block, whose write completed, DANGER
15.4. -/
def metaFailed (p : Prog) (s : State) : State :=
  let s := ((p.items.filterMap itemExt).foldl insNat []).foldl (fun s x => match extBy s x with
    | some e => mediaCheckFailed 3 e s
    | none => s) s
  if p.items.any (fun i => (itemExt i).isNone) then danger 15 4 3 s else s

/-- The program of a page of a braid set ended: on success its tokens advance, and completion records and completions follow; on failure R179 applies. The
read-back of the metadata of a stripe's first program may fail its check (01 R29). -/
def setPageEnded (p : Prog) (ok metaOk : Bool) (s : State) : State :=
  if !ok then settle (programFailed p (countPgmFail p.unit s))
  else
    let first := firstOfStripe s p
    let s := addPage p.unit (p.row + 1) p.slots s
    if first && !metaOk then settle (metaFailed p s) else settle (p.items.foldl itemDone s)

/-- PROGRAM_STATUS: a page program ends: of a header, of a page of a checkpoint or of the journal mirror, or of a braid set. -/
def execProgramStatus (prog : Nat) (ok : Polled Bool) (metaOk : Bool) (s : State) : Host.Outcome State Fault Refusal :=
  match s.media.progs.find? (fun p => p.id = prog) with
  | none => .next s
  | some p =>
    if !running p.run then .next s
    else
      let s := rbDisagrees ok.rbHigh (unitCh p.unit) (unitTgt p.unit) s
      let s := onMedia (fun m => { m with progs := m.progs.filter (fun q => q.id ≠ prog) }) s
      let s := match p.header with
        | some (h, u) => headerEnded p h u ok.result s
        | none => if p.set = Config.noSet then pairPageEnded p ok.result s else setPageEnded p ok.result metaOk s
      .next (pumpDie s (unitDie p.unit))

end Sys2Proof.Machine
end

