-- ==== Sys2Proof/Machine/Channels.lean ====
section
/-! DEFINITION. Channels and targets (07 R190, R191, R199, R208 to R210; 16 R428), suspends (07 R201, R202), fid (07 R212 to R214) and the 10 ms
window (06 R172). -/

namespace Sys2Proof.Machine

open Sys2Proof

/-! ### Targets -/

/-- One target changed. -/
def setTgt (ch t : Nat) (f : Target → Target) (s : State) : State :=
  onMedia (fun m => { m with channels := modVec m.channels ch (fun c => { c with targets := modAt c.targets t f }) }) s

/-- One channel changed. -/
def setChan (ch : Nat) (f : Channel → Channel) (s : State) : State :=
  onMedia (fun m => { m with channels := modVec m.channels ch f }) s

/-- Whether a unit lies on a target. -/
def onTarget (ch t addr : Nat) : Bool := unitCh addr = ch && unitTgt addr = t

/-- Whether an operation that a test names has been issued on a target and has not ended. -/
def targetCarries (s : State) (ch t : Nat) (p : OpRun → Bool) : Bool :=
  s.media.erases.any (fun e => onTarget ch t e.unit && e.run.issued && p e.run) ||
  s.media.progs.any (fun q => onTarget ch t q.unit && q.run.issued && p q.run)

/-- Whether a read has been issued on a target and has not ended. -/
def targetReads (s : State) (ch t : Nat) : Bool := s.media.reads.any (fun r => onTarget ch t r.unit && r.issued)

/-- Whether an operation is outstanding on a target (07 R199). -/
def outstanding (s : State) (ch t : Nat) : Bool := targetReads s ch t || targetCarries s ch t (fun _ => true)

/-- Whether an operation keeps a target busy: one runs there, or the channel starts, whose parameter-page read, Set Features and ZQ calibration count as
busy time (07 R190, R208). -/
def targetBusy (s : State) (ch t : Nat) : Bool :=
  targetReads s ch t || targetCarries s ch t (fun r => !r.suspended) || (chan s ch).state = 1 || (chan s ch).state = 2

/-- Whether an operation runs or is suspended on a channel's bus (07 R191). -/
def channelBusy (s : State) (ch : Nat) : Bool := (List.range 8).any (outstanding s ch)

/-- The state of a target as R199 names it: BUSY and SUSPENDED follow from the work outstanding on it. -/
def targetState (s : State) (ch t : Nat) : TgtState :=
  match (tgtOf s ch t).state with
  | .ready =>
    if targetReads s ch t || targetCarries s ch t (fun r => !r.suspended) then .busy
    else if targetCarries s ch t (fun r => r.suspended) then .suspended else .ready
  | x => x

/-- What waits for the dies of a channel, issued. -/
def pumpChannel (ch : Nat) (s : State) : State := ((fittedDies s).filter (fun d => dieCh d = ch)).foldl pumpDie s

/-- The temperature of a channel's NAND packages: zone NZONE_0 for channels 0 to 7, NZONE_1 for the others (12 R335). -/
def nandTemp (s : State) (ch : Nat) : Option Int := nth s.therm.zones (if ch < 8 then 3 else 4) none

/-- Rows of a set programmed so far. -/
def rowsDone (s : State) (e : SetE) : Nat := (e.fill - e.row.length) / max (e.d * slotsPerPage s) 1

/-- Sets whose rows have lost more members than they tolerate, as one more target fails: ERROR 11.10 (10 R280). -/
def beyondTolerance (before : State) (s : State) : State :=
  s.map.sets.foldl (fun s e =>
    if tolerance s e < 0 ∧ tolerance before e ≥ 0 then
      raise 11 10 0 0 (onBraid (fun b => { b with beyond := sat 32 (b.beyond + rowsDone s e) }) s)
    else if tolerance s e < tolerance before e ∧ tolerance before e < 0 then raise 11 10 0 0 s
    else s) s

/-- An erase on a failed target: the set that it was to empty stays erasing; a unit that it was to put into use is replaced (07 R209, 08 R216). -/
def eraseLost (s : State) (e : Erase) : State := if e.use.role = 6 then s else replaceUnit e.unit e.use s

/-- A program on a failed target: of a set, as a program that failed (06 R179); of a unit on its way into use or of a page pair, made again on another
unit (07 R209). -/
def progLost (s : State) (p : Prog) : State := match p.header with
  | some (_, u) => replaceUnit p.unit u s
  | none =>
    if p.set ≠ Config.noSet then programFailed p s
    else if (match s.media.work with
        | some im => has im.units p.unit
        | none => false) then redoCkpt s
    else mirrorJournal s

/-- Outstanding work on a failed target: reads go to reconstruction, programs to R179, erases leave their sets erasing; a set that was open with a member
there is closed, and its row buffer is placed elsewhere (07 R209). -/
def endWork (ch t : Nat) (row : List (Nat × Nat)) (s : State) : State :=
  let rs := s.media.reads.filter (fun r => onTarget ch t r.unit)
  let es := s.media.erases.filter (fun e => onTarget ch t e.unit)
  let hs := s.media.progs.filter (fun p => onTarget ch t p.unit && p.header.isSome)
  let s := onMedia (fun m => { m with
    reads := m.reads.filter (fun r => !onTarget ch t r.unit), erases := m.erases.filter (fun e => !onTarget ch t e.unit),
    progs := m.progs.filter (fun p => !(onTarget ch t p.unit && p.header.isSome)) }) s
  let s := hs.foldl progLost (es.foldl eraseLost s)
  let ps := s.media.progs.filter (fun p => onTarget ch t p.unit)
  let s := ps.foldl progLost (onMedia (fun m => { m with progs := m.progs.filter (fun p => !onTarget ch t p.unit) }) s)
  let s := s.map.sets.foldl (fun s e => match nth e.members ch none with
    | some u => if onTarget ch t u then (if e.state = 1 then failSet e.idx u [] false s else maybeGone e.idx s) else s
    | none => s) s
  let s := rs.foldl (fun s r => r.wants.foldl (fun s w => wantRebuilt r row w s) s) s
  settleReads (settle s)

/-- A target FAILED for a cause (07 R208, R209). -/
def targetFailed (ch t cause : Nat) (row : List (Nat × Nat)) (s : State) : State :=
  let x := tgtOf s ch t
  if !x.fitted ∨ x.state = .failed ∨ x.state = .excluded then s
  else
    let s1 := setTgt ch t (fun x => { x with state := .failed, cause := cause, failAt := s.dev.secs }) s
    let s2 := beyondTolerance s (tellDegraded (degradedSet s) s1)
    endWork ch t row (raise (chanGroup ch) (chanBit ch + 2) t cause s2)

/-- A channel FAILED: its targets that are not EXCLUDED fail with it; its chip enables are high, its other outputs low and its termination off (07
R210). -/
def channelFailed (ch : Nat) (row : List (Nat × Nat)) (s : State) : State :=
  let s := setChan ch (fun c => { c with state := 4, ceHigh := true, drives := false, term := false }) s
  let s := (List.range 8).foldl (fun s t => targetFailed ch t 4 row s) s
  raise (chanGroup ch) (chanBit ch + 3) 0xFF 4 s

/-- Whether R210 fails a channel: three of its targets failed within 1 s, or every fitted target is FAILED or EXCLUDED. -/
def channelGone (s : State) (ch : Nat) : Bool :=
  let c := chan s ch
  let fit := c.targets.filter (fun t => t.fitted)
  c.state ≠ 4 && ((fit.filter (fun t => t.state = .failed && t.failAt + 1 ≥ s.dev.secs)).length ≥ 3 ||
    (!fit.isEmpty && fit.all (fun t => t.state = .failed || t.state = .excluded)))

/-- A target failed, and with it perhaps its channel. -/
def failTarget (ch t cause : Nat) (row : List (Nat × Nat)) (s : State) : State :=
  let s := targetFailed ch t cause row s
  if channelGone s ch then channelFailed ch row s else s

/-- TARGET_BUSY_TIMEOUT: an operation keeps a target busy for more than 50 ms of busy time (07 R208). -/
def execTargetBusyTimeout (ch tgt : Nat) (row : Polled (List (Nat × Nat))) (s : State) : Host.Outcome State Fault Refusal :=
  if targetBusy s ch tgt then
    .next (failTarget ch tgt 1 row.result (setChan ch (fun c => { c with busyMax := max c.busyMax 50000 }) (rbDisagrees row.rbHigh ch tgt s)))
  else .next s

/-- RB_LOW_TIMEOUT: R/B_N low for 50 ms with no operation outstanding (07 R208). -/
def execRbLowTimeout (ch tgt : Nat) (row : List (Nat × Nat)) (s : State) : Host.Outcome State Fault Refusal :=
  if outstanding s ch tgt ∨ (chan s ch).state = 0 ∨ ¬ supplied s ch then .next s else .next (failTarget ch tgt 2 row s)

/-! ### Channel start and training -/

/-- The dies of a channel that a start addresses: those of die 0 of each of its usable targets. -/
def startDies (s : State) (ch : Nat) : List Nat := ((List.range 8).map (fun t => ch + 16 * t)).filter (fun d => unitUsable s (d * 16384))

/-- The supply of a channel's group on (16 R428). -/
def supplyOn (ch : Nat) (s : State) : State := onPins (fun p => { p with npwrEn := modAt p.npwrEn (ch / 4) (fun _ => true) }) s

/-- Whether a parameter page agrees with GEOMETRY in the five values that R86 compares (03 R86). -/
def paramSame (g : Geometry) (p : ParamPage) : Bool :=
  p.data = 4096 * g.s && p.spare = g.spare && p.pages = g.pagesNative && p.units = g.units && p.dies = g.dies

/-- Step 3 of a channel start at one target: its parameter page read; a target whose parameter page differs is EXCLUDED, ERROR 1.10 (07 R190, 03
R86). -/
def startTarget (ch : Nat) (s : State) (x : TargetStart) : State :=
  let t := tgtOf s ch x.target
  if !t.fitted ∨ t.state ≠ .uninit then s
  else
    let addr := (ch + 16 * x.target) * 16384
    let s := onBus addr (playAt s addr 0 true []) (rTemplate s (fun r => r.tParam)) s
    if paramSame (geo s) x.page then setTgt ch x.target (fun t => { t with state := .ready }) s
    else raise 1 10 (ch + 16 * x.target) 0 (onBoot (fun b => { b with excluded := min 511 (b.excluded + 1) })
      (setTgt ch x.target (fun t => { t with state := .excluded }) s))

/-- Trainings attempted: each repeat raises NOTICE g.(4c′), and three failures in a row fail the channel (07 R190, R210). -/
def train (ch fails : Nat) (s : State) : State :=
  let s := emit (.bus ch ch (List.replicate (min fails 2 + 1) .train)) s
  let s := (List.range (min fails 2)).foldl (fun s _ => raise (chanGroup ch) (chanBit ch) 0xFF 0 s) s
  let s := setChan ch (fun c => { c with trains := sat 8 (c.trains + min fails 2 + 1), trainTemp := nandTemp s ch }) s
  if fails ≥ 3 then channelFailed ch [] s else setChan ch (fun c => { c with state := 3 }) s

/-- The fitted targets of a channel, as GEOMETRY declares them. -/
def fitTargets (ch : Nat) (s : State) : State :=
  let m := nth (geo s).fitted ch 0
  setChan ch (fun c => { c with targets := c.targets.zipIdx.map (fun t => { t.1 with fitted := bit m t.2 }) }) s

/-- Steps 1 and 2: the supply on, the chip enables high, SDR timing mode 0 (20 MT/s, R188), and the reset template on every fitted target that has not
failed (07 R190). -/
def resetChannel (ch : Nat) (s : State) : State :=
  let s := setChan ch (fun c => { c with state := 1, mode := 0, rate := 2, ceHigh := true, drives := true }) (fitTargets ch (supplyOn ch s))
  (startDies s ch).foldl (fun s d => onBus (d * 16384) (playAt s (d * 16384) 0 true []) (rTemplate s (fun r => r.tReset)) s) s

/-- Step 4: the interface mode and rate, the drive strength and the termination set in every target by Set Features, and so in the channel (07 R190,
R192). -/
def setMode (ch : Nat) (r : ReadTiming) (s : State) : State :=
  let mts := chanMts s ch
  let s := (startDies s ch).foldl (fun s d => emit (.bus ch d [.mode r.mode mts r.drive r.odt, .poll false]) s) s
  setChan ch (fun c => { c with mode := r.mode, rate := mts / 10, term := true }) s

/-- Step 5 before the training: VREFQ, and ZQ calibration where WRITE_TIMING asks for it (07 R190, R193). -/
def calibrate (ch : Nat) (w : WriteTiming) (s : State) : State :=
  (startDies s ch).foldl (fun s d =>
    emit (.bus ch d ([.vrefq w.vrefq, .poll false] ++ (if w.zq then [.zq, .poll false] else []))) s) s

/-- A channel start, as far as it comes: to the parameter pages of the targets that are ready; then to the interface mode; then, once WRITE_TIMING is
there, to the end (07 R190). What waits for its dies is issued. -/
def chanStart (ch : Nat) (targets : List TargetStart) (trainFails : Nat) (s : State) : State :=
  match s.prm.readTiming with
  | none => s
  | some r =>
    let s := targets.foldl (startTarget ch) (if (chan s ch).state = 0 then resetChannel ch s else s)
    if channelGone s ch then channelFailed ch [] s
    else if (chan s ch).targets.any (fun t => t.fitted && t.state = .uninit) then s
    else
      let s := if (chan s ch).mode = 0 then setMode ch r s else s
      match s.prm.writeTiming with
      | none => s
      | some w => pumpChannel ch (train ch trainFails (calibrate ch w (setChan ch (fun c => { c with state := 2 }) s)))

/-- CHANNEL_RETRAIN: the NAND-package temperature has moved by 20 °C since the channel's last training; it waits until the operations on the channel's bus
have ended, and what it held is issued after it (07 R191). -/
def execChannelRetrain (ch trainFails : Nat) (s : State) : Host.Outcome State Fault Refusal :=
  match nandTemp s ch, (chan s ch).trainTemp with
  | some t, some u =>
    if (chan s ch).state = 3 ∧ (t - u).natAbs ≥ 320 ∧ ¬ channelBusy s ch then
      .next (pumpChannel ch (train ch trainFails (setChan ch (fun c => { c with state := 2 }) s)))
    else .next s
  | some t, none => if (chan s ch).state = 3 then .next (setChan ch (fun c => { c with trainTemp := some t }) s) else .next s
  | none, _ => .next s

/-! ### Suspends -/

/-- Whether a waiting read suspends the operation that runs on a die, once that has run for a time (07 R201). -/
def maySuspend (s : State) (die ranUs : Nat) : Bool :=
  match s.prm.writeTiming, runOn s die with
  | some w, some r =>
    let e := (eraseOn s die).isSome
    running r && !r.overdue && (readNext s die).isSome && s.flush.isNone && s.therm.shut.isNone &&
    ranUs ≥ (if e then w.ersMinUs else w.pgmMinUs) && r.suspends < (if e then w.ersSuspMax else w.pgmSuspMax)
  | _, _ => false

/-- SUSPEND_COMPLETE: the operation on a die is suspended, and the reads that wait are issued to it (07 R201, R202). -/
def execSuspendComplete (die ranUs : Nat) (s : State) : Host.Outcome State Fault Refusal :=
  if !maySuspend s die ranUs then .next s
  else
    let e := (eraseOn s die).isSome
    let s := setRun die (fun r => { r with suspends := r.suspends + 1, suspended := true }) s
    let s := setChan (dieCh die) (fun c => { c with
      ersSusp := if e then inc 16 c.ersSusp else c.ersSusp, pgmSusp := if e then c.pgmSusp else inc 16 c.pgmSusp,
      busyMax := max c.busyMax (sat 16 ranUs) }) s
    .next (pumpDie (onBus (die * 16384) (playAt s (die * 16384) 1 true []) (wTemplate s (fun w => if e then w.tEsusp else w.tPsusp)) s) die)

/-- SUSPEND_TIMEOUT: suspended for 2 ms in total; the operation is resumed, after the read that is under way (07 R202). -/
def execSuspendTimeout (die : Nat) (s : State) : Host.Outcome State Fault Refusal :=
  if dieHeld s die then .next (pumpDie (setRun die (fun r => { r with overdue := true }) s) die) else .next s

/-! ### Fid -/

/-- The unit whose closed set is the oldest on a die and bucket: the sample (07 R213). -/
def fidSample (s : State) (die bucket : Nat) : Option (Nat × SetE) :=
  let us := s.map.sets.flatMap (fun e => if e.state = 2 then (e.members.filterMap id).map (fun u => (u, e)) else [])
  argMin (fun x => x.2.closeGseq) (us.filter (fun x => unitDie x.1 = die && bucketOf s x.1 = bucket && unitUsable s x.1))

/-- A fid asked for. -/
def askFid (die bucket : Nat) (s : State) : State :=
  if s.media.fidWant.any (fun w => w.1 = die && w.2 = bucket) then s
  else onMedia (fun m => { m with fidWant := m.fidWant ++ [(die, bucket)] }) s

/-- FID_DUE: FID_DAYS after the last fid of a die and bucket that has a closed set (07 R212). -/
def execFidDue (die bucket : Nat) (s : State) : Host.Outcome State Fault Refusal :=
  match s.prm.readLevels, kvGet s.media.fidAt (fidKey die bucket) with
  | some r, some t =>
    if s.dev.secs ≥ t + 86400 * r.fidDays ∧ (fidSample s die bucket).isSome then .next (askFid die bucket s) else .next s
  | _, _ => .next s

/-- FID_REQ written: REQ_GO asks for a fid of REQ_DIE and REQ_AGE (07 R212). -/
def fidReq (v : Word) (s : State) : State :=
  if v.getLsbD 31 then askFid (field v.toNat 8 0) (field v.toNat 11 9) s else s

/-- FID_REQ: a host write of REQ_GO (07 R212). -/
def execFidReq (p : Port) (v : Word) (s : State) : Host.Outcome State Fault Refusal :=
  if bar2Open s p then .next (fidReq v s) else .next s

/-- The first density outside 40.0 % to 60.0 % (07 R213). -/
def badDensity (ds : List Nat) : Option Nat := ds.find? (fun d => d < 400 || d > 600)

/-- The index of the pair with the least change of the ones count, the nearest to the present level on a tie, and how many pairs there are
(07 R214); of two that are equally near, the lower one (DESIGN CHOICE, log entry 29). -/
def bestPair (half step : Nat) (ns : List Nat) : Nat × Nat :=
  let ds := (ns.zip ns.tail).map (fun x => if x.1 < x.2 then x.2 - x.1 else x.1 - x.2)
  let near (i : Nat) : Nat := ((2 * (i * step) + step : Int) - 2 * half).natAbs
  ((argMin (fun i => nth ds i 0 * 1024 + near i) (List.range ds.length)).getD 0, ds.length)

/-- The new offset of one level; none where the pair is the first or the last of the sweep (07 R214). -/
def newLevel (half step : Nat) (cur : Int) (ns : List Nat) : Option Int :=
  let (i, n) := bestPair half step ns
  if i = 0 ∨ i + 1 = n then none else some (cur - half + i * step + (step / 2 : Nat))

/-- The indices of the levels that a mode uses (07 R212). -/
def levelsUsed (s : State) (slc : Bool) : List Nat :=
  if slc then [15] else if (geo s).cell = 2 then List.range 15 else List.range 7

/-- The offsets that a fid proposes, if no level's sweep rejects it. -/
def proposed (half step : Nat) (cur : List Int) (used : List Nat) (sweep : List (List Nat)) : Option (List Int) :=
  (used.zip sweep).foldl (fun acc x => acc.bind (fun l =>
    (newLevel half step (nth cur x.1 0) x.2).map (fun n => modAt l x.1 (fun _ => n)))) (some cur)

/-- Whether the new offsets are at least as good: every codeword converges and no more bits are corrected (07 R214). Where some codeword
does not converge at the present offsets, no count bounds the new ones (log entry 29). -/
def fidBetter (r : FidRun) : Bool := match r.bitsNew, r.bitsCur with
  | some n, some c => n ≤ c
  | some _, none => true
  | none, _ => false

/-- The end of a fid. -/
def fidEnds (last : Nat) (b : Nat) (s : State) : State :=
  raise 8 b 0 0 (onMedia (fun m => { m with
    fidLast := last, fidDone := if last = 1 then inc 32 m.fidDone else m.fidDone,
    fidAborted := if last = 2 then inc 32 m.fidAborted else m.fidAborted,
    fidRejected := if last = 3 then inc 32 m.fidRejected else m.fidRejected }) s)

/-- Physical page of page type t of the sample, wordline floor(PAGES_SLC / 2) (07 R196, R213). -/
def fidPage (s : State) (slc : Bool) (t : Nat) : Nat :=
  let w := (geo s).pagesSlc / 2
  if slc then w else pageTypes s * w + t + 1 - pageTypes s

/-- Every page of the sample read at some offsets (07 R213, R214). -/
def fidReads (u : Nat) (l : List Int) (s : State) : State :=
  let slc := slcUnit s u
  (List.range (if slc then 1 else pageTypes s)).foldl (fun s t => readAt u (fidPage s slc t) l s) s

/-- The reads of one level's sweep: the page type that senses it, at each offset from cur − SWEEP to cur + SWEEP (07 R214). -/
def fidSweep (rl : ReadLevels) (u k : Nat) (cur : List Int) (s : State) : State :=
  let slc := slcUnit s u
  let page := fidPage s slc (if slc then 0 else nth rl.levelPage k 0)
  (List.range (2 * rl.sweep / max rl.sweepStep 1 + 1)).foldl (fun s i =>
    readAt u page (modAt cur k (fun c => c - rl.sweep + i * rl.sweepStep)) s) s

/-- The levels that a fid sweeps: up to the first whose pair rejects it (07 R214). -/
def fidSwept (rl : ReadLevels) (cur : List Int) : List Nat → List (List Nat) → List Nat
  | k :: ks, n :: ns => if (newLevel rl.sweep rl.sweepStep (nth cur k 0) n).isSome then k :: fidSwept rl cur ks ns else [k]
  | _, _ => []

/-- Whether an abort bars fids of a die and bucket (07 R213). -/
def fidBarred (s : State) (die bucket : Nat) : Bool := match kvGet s.media.fidBar (fidKey die bucket) with
  | some t => s.dev.secs < t + 3600
  | none => false

/-- Whether a fid that was asked for may run: its reads are of the last class, so nothing else waits for the die (07 R200, R213). -/
def mayFid (s : State) (die bucket : Nat) : Bool :=
  s.media.fidWant.any (fun w => w.1 = die && w.2 = bucket) && !fidBarred s die bucket && s.map.state = 3 && !s.safe.stopper && dieIdle s die

/-- FID: a read-level calibration that was asked for: the sample's density, the sweep, and acceptance or rejection (07 R213, R214). -/
def execFid (die bucket : Nat) (r : FidRun) (s : State) : Host.Outcome State Fault Refusal :=
  if !mayFid s die bucket then .next s
  else match s.prm.readLevels, fidSample s die bucket with
    | some rl, some (u, _) =>
      let k := fidKey die bucket
      let s := onMedia (fun m => { m with
        fidWant := m.fidWant.filter (fun w => !(w.1 = die && w.2 = bucket)), fidAt := kvPut m.fidAt k s.dev.secs,
        fidDie := die, fidAge := bucket }) s
      let cur := levelsOf s die bucket
      let used := levelsUsed s (slcUnit s u)
      let s := fidReads u cur s
      (match badDensity r.density with
       | some d => .next (fidEnds 2 9 (onMedia (fun m => { m with density := d, fidBar := kvPut m.fidBar k s.dev.secs }) s))
       | none =>
         let s := onMedia (fun m => { m with density := r.density.getLast?.getD 0 }) s
         let s := (fidSwept rl cur used r.sweep).foldl (fun s k => fidSweep rl u k cur s) s
         match proposed rl.sweep rl.sweepStep cur used r.sweep with
         | none => .next (fidEnds 3 10 s)
         | some l =>
           let s := fidReads u cur (fidReads u l s)
           if fidBetter r then .next (fidEnds 1 0 (onMedia (fun m => { m with levels := kvPut m.levels k l }) s))
           else .next (fidEnds 3 10 s))
    | _, _ => .next (onMedia (fun m => { m with fidWant := m.fidWant.filter (fun w => !(w.1 = die && w.2 = bucket)) }) s)

/-- WINDOW_10MS: a 10 ms window ends: 10 ms more without an outstanding host command count towards the idle share (06 R172). Times
within the window are not modelled (log entry 30). -/
def execWindow10ms (s : State) : Host.Outcome State Fault Refusal :=
  .next (onMap (fun m => { m with gcMs := if s.cmds.isEmpty then min 100 (m.gcMs + 10) else 0 }) s)

end Sys2Proof.Machine
end

