-- ==== Sys2Proof/Machine/PowerStates.lean ====
section
/-! DEFINITION. Power states (11): orders of a state and their conflicts (R313, R314, 04 R120, R121), the sleep handshake (R315 to
R318), waking, and the patrol (R326 to R331). -/

namespace Sys2Proof.Machine

open Sys2Proof

/-! ### Orders -/

/-- The power state of a code (11 R313). -/
def codePwr : Nat → Option PwrState
  | 0 => some .run
  | 1 => some .idle
  | 2 => some .sleep
  | 3 => some .deep
  | 4 => some .off
  | _ => none

/-- Dword 0 of an order that succeeds: the state in force and TIMER_CEIL (11 R313). -/
def pwrDw0 (s : State) : Nat := s.ps.state + 16 * s.prm.power.ceil

/-- A handshake that an order asked for, not a timer or the rule of 04 R127. -/
def isOrder (a : Asker) : Bool := match a with
  | .timer => false
  | .held => false
  | _ => true

/-- The reported power state of a controller set by an order that took effect (11 R312, R313). -/
def reportPs (p : Port) (v : Nat) (s : State) : State :=
  setCtl p (fun c => { c with feat := { c.feat with ps := v, psOp := if v < 2 then v else c.feat.psOp } })
    (onPs (fun x => { x with ordered := if v < 2 then none else (codePwr v).map (fun st => (p, st)) }) s)

/-- Outstanding power orders of hosts end with success. -/
def finishOrders (s : State) : State :=
  (s.cmds.filter isPowerOrder).foldl (fun s c => finish c 0 0 (pwrDw0 s) (reportPs c.port c.slba s)) s

/-- An order took effect: hosts' orders complete, a peer's is answered OK. -/
def gainOrder (a : Asker) (s : State) : State :=
  let s := finishOrders s
  match a with
  | .peer p l tag => answerOrder p l tag 0 s
  | _ => s

/-- A peer's losing or forbidden order: its RESPONSE, and NOTICE g.13 (09, Sleep, shutdown and the stopper state). -/
def refusePeer (p : Port) (l tag status : Nat) (s : State) : State :=
  let e := match linkBy s p l with
    | some k => nodeLow s k.entry
    | none => 0
  raise (peerGroup p) 13 l e (answerOrder p l tag status s)

/-- An order that loses under 04 R121. -/
def loseOrder (a : Asker) (s : State) : State :=
  match a with
  | .host _ key => (match cmdBy s key with
    | some c => cmdLoses c s
    | none => s)
  | .smbus => onPs (fun p => { p with smbRefused := true }) (countConflict s)
  | .peer p l tag => refusePeer p l tag 1 (countConflict s)
  | _ => s

/-- Every outstanding power order of a host loses. -/
def loseHosts (s : State) : State := (s.cmds.filter isPowerOrder).foldl (fun s c => cmdLoses c s) s

/-! ### Entering a state -/

/-- The place of a unit in the patrol order of its channel group: ascending die index, then unit number (11 R326). -/
def patrolKey (addr : Nat) : Nat := (unitDie addr / 16 * 4 + unitCh addr % 4) * 16384 + unitNo addr

/-- Whether the skip map leaves a unit to visit: not free, retired, never written or in the spill reserve (11 R326). -/
def toVisit (u : UnitE) : Bool := u.state = 1 || u.state = 3 || u.state = 4

/-- The units that the skip map leaves to visit, in patrol order. -/
def skipMap (s : State) : List Nat := sortBy patrolKey ((s.map.units.filter toVisit).map (fun u => u.addr))

/-- A channel whose supply is off: every output low, termination off, and its targets to be started again (07 R190, 16 R428). -/
def chanDown (c : Channel) : Channel :=
  if c.state = 4 then { c with ceHigh := false, drives := false, term := false }
  else { c with
    state := 0, mode := 0, rate := 0, ceHigh := false, drives := false, term := false,
    targets := c.targets.map (fun t => if t.state = .ready then { t with state := .uninit } else t) }

/-- The NAND supply of a group off: the levels set in its dies are lost (11 R308, R315, R329). -/
def groupOff (s : State) (g : Nat) : State :=
  onPins (fun p => { p with npwrEn := modAt p.npwrEn g (fun _ => false) }) (onMedia (fun m => { m with
    channels := Vector.ofFn (fun i : Fin 16 => if i.val / 4 = g then chanDown m.channels[i] else m.channels[i]),
    set := m.set.filter (fun x => dieCh x.1 / 4 ≠ g) }) s)

/-- NAND supplies off (11 R308, R315). -/
def nandOff (s : State) : State := (List.range 4).foldl groupOff s

/-- The clocks gated for a state, INFO 12.0, and the backoff at 1 (11 R317, R318). In OFF every rail but VDD_AON is off and the gate is
low: the core is as in reset (11 R308, 02 R447). -/
def enterState (want : PwrState) (a : Asker) (s : State) : State :=
  let s := onPs (fun p => { p with
    state := pwrCode want, hs := none, backoff := 1, sleeps := if want = .sleep then inc 32 p.sleeps else p.sleeps,
    deeps := if want = .deep then inc 32 p.deeps else p.deeps }) s
  let s := if want = .sleep ∨ want = .deep then onPs (fun p => { p with skip := skipMap s }) s else s
  let s := if pwrCode want ≥ 2 then portsIdle s else s
  let s := if want = .deep ∨ want = .off then nandOff s else s
  let s := raise 12 0 0 0 (gainOrder a s)
  if want = .off then gateLow .powerOff (onPs (fun p => { p with state := 4 }) (coreReset s.aon s)) else s

/-- A handshake begun (11 R317). The controller itself refuses OFF while WAKE_IN_N is low (11 R316), and every state in the stopper
state (14 R395). -/
def beginHs (a : Asker) (want : PwrState) (s : State) : State :=
  let s' := onPs (fun p => { p with hs := some { want := want, asker := a, part := 1, stopped := [], waiting := false, also := [] } }) s
  if s.safe.stopper then rollback 0 1 s'
  else if want = .off ∧ s.ps.wakeLow then rollback 0 6 s'
  else s'

/-- The state that sleep counts as: a patrol cycle counts as the state it returns to. -/
def depth (s : State) : Nat := if s.ps.state = 5 then s.ps.back else s.ps.state

/-- An order that conflicts with none (11 R313, R314, R318): an operational state takes effect at once, a shallower state acts as a wake,
DEEP follows SLEEP without a handshake. -/
def startOrder (a : Asker) (want : PwrState) (s : State) : State :=
  if pwrCode want < 2 then gainOrder a (wake 9 s)
  else if pwrCode want < depth s then gainOrder a (wake 9 s)
  else if pwrCode want = depth s then gainOrder a s
  else if s.ps.state = 2 ∧ want = .deep then enterState .deep a s
  else beginHs a want s

/-- An order of a power state, settled against a handshake that runs (04 R120, R121): the shallower wins; an order for the same state
waits with the first; a timer's handshake gives way with reason 7. -/
def orderPower (a : Asker) (want : PwrState) (s : State) : State :=
  match s.ps.hs with
  | none => startOrder a want s
  | some h =>
    if isOrder h.asker then
      if pwrCode want < pwrCode h.want then
        let s := onPs (fun p => { p with
          refPart := h.part, refReason := 7, refState := pwrCode h.want, refusals := inc 32 p.refusals }) (takeDown h s)
        let s := raise 12 5 0 0 s
        let olds := s.cmds.filter (fun c => isPowerOrder c && c.slba = pwrCode h.want)
        let s := olds.foldl (fun s c => cmdLoses c s) s
        let s := match h.asker with
          | .host .. => s
          | x => loseOrder x s
        startOrder a want (h.also.foldl (fun s x => loseOrder (.peer x.1 x.2.1 x.2.2) s) s)
      else if pwrCode want > pwrCode h.want then loseOrder a s
      else match a with
        | .peer p l tag => onPs (fun x => { x with hs := some { h with also := h.also ++ [(p, l, tag)] } }) s
        | _ => s
    else startOrder a want (rollback h.part 7 s)

/-- A power order in its admin frame: while an order's handshake runs, the conflict decides and not the wake (11, coincidences). -/
def powerAdmin (h : Hdr) (f : State → State) (s : State) : Host.Outcome State Fault Refusal :=
  if !fetchAdmin s h then .next s
  else
    let s := match s.ps.hs with
      | some x => if isOrder x.asker then stampCmd h s else acceptAdmin h s
      | none => acceptAdmin h s
    if !adminOk s then .next (answer h 0 0x01 0 s) else .next (f s)

/-- A host's order of a power state (11 R313; in the stopper state 14 R395). -/
def hostPower (h : Hdr) (want : PwrState) (s : State) : State :=
  if s.safe.stopper ∧ pwrCode want ≥ 2 then answer h 7 0x84 0x100 s
  else
    let (key, s) := newKey s
    orderPower (.host h.port key) want (addCmd (newCmd key h .powerOrder 0 (pwrCode want) 0 s.hx.gseq s) s)

/-- ENTER: Power State Order (11 R313). -/
def execEnter (h : Hdr) (st : PwrState) (s : State) : Host.Outcome State Fault Refusal := powerAdmin h (hostPower h st) s

/-- SET_CEILING: TIMER_CEIL replaced; OFF is refused with Invalid Field in Command (11 R313). -/
def execSetCeiling (h : Hdr) (st : PwrState) (s : State) : Host.Outcome State Fault Refusal :=
  admin h (fun s =>
    if st = .off then answer h 0 0x02 0 s
    else
      let s := onPrm (fun p => { p with power := { p.power with ceil := pwrCode st } }) s
      answer h 0 0 (pwrDw0 s) s) s

/-- QUERY (11 R313). -/
def execQuery (h : Hdr) (s : State) : Host.Outcome State Fault Refusal := admin h (fun s => answer h 0 0 (pwrDw0 s) s) s

/-- PATROL_NOW: a new pass of every group at once (11 R313). -/
def execPatrolNow (h : Hdr) (s : State) : Host.Outcome State Fault Refusal :=
  admin h (fun s =>
    let s := onPs (fun p => { p with pos := [0, 0, 0, 0], visited := [0, 0, 0, 0], due := [none, none, none, none] }) s
    answer h 0 0 (pwrDw0 s) s) s

/-- An order of SMB_STATE given through the SMBus (11 R314); a code of no state orders nothing. -/
def smbOrder (st : Nat) (s : State) : State :=
  match codePwr st with
  | some want => orderPower .smbus want s
  | none => s

/-- SMB_GO: the SMBus orders SMB_STATE (11 R314). -/
def execSmbGo (st : Nat) (s : State) : Host.Outcome State Fault Refusal :=
  if !smbAlive s ∨ st ≥ 8 then .next s
  else .next (smbOrder st (onPs (fun p => { p with smbState := st }) s))

/-! ### The handshake -/

/-- Some tie-off notice of the handshake is not yet acknowledged (09 R266). -/
def noticesOpen (s : State) : Bool := (allLinks s).any (fun pl => match linkBy s pl.1 pl.2 with
  | some k => k.notice.isSome
  | none => false)

/-- Why the peer ports refuse (09 R266). -/
def linksRefuse (s : State) : Option Nat :=
  let ls := (allLinks s).filterMap (fun pl => linkBy s pl.1 pl.2)
  if ls.any (fun k => k.state = .handshake) then some 3
  else if ls.any (fun k => k.state = .up && (!k.sent.isEmpty || !k.held.isEmpty)) then some 1 else none

/-- Why Motur refuses (11 R315, row 4). -/
def moturRefuses (s : State) : Option Nat :=
  if tokens .journaled s > 0 then some 1
  else if s.map.state = 3 ∧ (freeSets s < gcT1 s ∨ foldDue s ∨ s.map.wear.isSome ∨ ¬ s.map.rewrites.isEmpty ∨ degradedCount s > 0) then
    some 2
  else none

/-- Why a participant refuses, as far as the state shows it (11 R315; the rest is the operand of PARTICIPANT_ANSWER, log entry 8). An
outstanding Asynchronous Event Request does not count as a command (log entry 31). -/
def refuses (s : State) (h : Handshake) : Option Nat :=
  let busy (b : Bool) : Option Nat := if b then some 1 else none
  match h.part with
  | 1 => busy (s.cmds.any (fun c => !isPowerOrder c))
  | 2 => linksRefuse s
  | 3 => busy (s.braid.splices.any (fun p => p.phase = .build || p.phase = .verify || p.phase = .switching) ||
      s.map.sets.any (fun e => e.rebuild))
  | 4 => moturRefuses s
  | 5 => busy ((match s.boot.loading with
      | some l => l.waiting
      | none => false) || (match s.stage with
      | some g => g.last.isSome
      | none => false))
  | 6 => busy (s.media.reads.any (fun r => r.level > 0))
  | 7 => busy (!s.media.reads.isEmpty || !s.media.progs.isEmpty || !s.media.erases.isEmpty || s.map.sets.any (fun e => e.state = 4))
  | 8 =>
    if !(inFlight s).isEmpty || !s.jrnl.waiting.isEmpty || s.jrnl.runNum.isSome || s.jrnl.carryDue then some 1
    else if h.want = .off ∧ tokensUsed s > 0 then some 4 else none
  | 9 => busy (s.rf.busy.toList.any Option.isSome)
  | 10 => busy (s.pwr.measuring || s.flush.isSome)
  | _ => none

/-- What a participant does on agreeing (11 R315). -/
def agreed (h : Handshake) (s : State) : State :=
  if h.part = 7 ∧ (h.want = .deep ∨ h.want = .off) then nandOff s
  else if h.part = 8 ∧ h.want = .off then sealJournal 0 0 0 0 0 s
  else s

/-- The participant after another; entry to IDLE asks 1, 3 and 4 (11 R315). -/
def nextPart (want : PwrState) (p : Nat) : Option Nat :=
  if want = .idle then (if p = 1 then some 3 else if p = 3 then some 4 else none)
  else if p < 12 then some (p + 1) else none

/-- The next participant asked: the peer ports send their notices (09 R266), and before Motur a shutdown makes its checkpoint (11 R316). -/
def askPart (h : Handshake) (p : Nat) (s : State) : State :=
  let wait := h.want = .off && p = 4
  let s := onPs (fun x => { x with hs := some { h with part := p, waiting := wait } }) s
  if p = 2 ∧ (linksRefuse s).isNone then
    notifyAll (if h.want = .off ∨ h.asker = .held then 3 else 4) false s
  else s

/-- The participant asked now has agreed. -/
def partAgrees (h : Handshake) (s : State) : State :=
  let s := agreed h s
  match nextPart h.want h.part with
  | some p => askPart { h with stopped := h.part :: h.stopped } p s
  | none => enterState h.want h.asker (h.also.foldl (fun s x => answerOrder x.1 x.2.1 x.2.2 0 s) s)

/-- PARTICIPANT_ANSWER: the participant asked agrees or refuses (11 R315, R317). A participant whose cause to refuse stands in the state
refuses; the peer ports answer once their notices are acknowledged. -/
def execParticipantAnswer (agree : Bool) (reason : Nat) (s : State) : Host.Outcome State Fault Refusal :=
  match s.ps.hs with
  | none => .next s
  | some h =>
    if (h.part = 2 ∧ noticesOpen s) ∨ h.waiting then .next s
    else match refuses s h with
      | some r => .next (rollback h.part r s)
      | none => if agree then .next (partAgrees h s) else .next (rollback h.part (max 1 (min reason 3)) s)

/-- PARTICIPANT_TIMEOUT: no answer within 1 ms (11 R315); the peer ports whose notices are not acknowledged refuse with reason 3 (09
R266). -/
def execParticipantTimeout (s : State) : Host.Outcome State Fault Refusal :=
  match s.ps.hs with
  | none => .next s
  | some h =>
    if h.part = 2 ∧ noticesOpen s then .next (rollback 2 3 s)
    else if h.waiting then .next s
    else .next (rollback h.part 5 (raise 12 11 h.part 5 s))

/-! ### The idle timers -/

/-- The deepest state whose threshold, multiplied by the backoff, has passed (11 R311); in PS1 the device does not wait for IDLE (R309). -/
def timerState (s : State) (idleUs : Nat) : Option PwrState :=
  let p := s.prm.power
  let b := s.ps.backoff
  let past (t : Nat) : Bool := t ≠ 0 && idleUs ≥ t * b
  let ps1 := s.ctl.a.feat.ps = 1 || s.ctl.b.feat.ps = 1
  if p.ceil ≥ 3 && past (p.deepS * 1000000) then some .deep
  else if p.ceil ≥ 2 && past (p.sleepMs * 1000) then some .sleep
  else if ps1 || (p.ceil ≥ 1 && past p.idleUs) then some .idle
  else none

/-- Whether the journal work of 04 R127 has ended: every journaled token programmed and its completion durable. -/
def heldDone (s : State) : Bool := tokens .journaled s = 0 && tokens .inflight s = 0 && tokens .mirrorPending s = 0 && (inFlight s).isEmpty && s.jrnl.waiting.isEmpty

/-- The request of 04 R127, once the journal work has ended: NOTICE 2.26, then DEEP through the handshake. -/
def askHeld (s : State) : State :=
  if !heldDone s ∨ s.safe.stopper ∨ s.ps.hs.isSome ∨ depth s ≥ 3 then s
  else
    let s := if s.hx.perstTold then s else raise 2 26 0 0 (onHx (fun x => { x with perstTold := true }) s)
    if s.ps.state = 2 then enterState .deep .held s else beginHs .held .deep s

/-- A request of the idle timers, or of R321. -/
def timerAsk (want : PwrState) (s : State) : State :=
  if pwrCode want ≤ depth s then s
  else if s.ps.state = 2 ∧ want = .deep then enterState .deep .timer s
  else beginHs .timer want s

/-- IDLE_TIMER_EXPIRY: idle time passes a threshold (11 R311); a state that a host ordered is entered again while no wake source is active (11 R321;
log entry 79), and the request of 04 R127 is made again. -/
def execIdleTimerExpiry (idleUs : Nat) (s : State) : Host.Outcome State Fault Refusal :=
  if s.ps.hs.isSome ∨ s.safe.stopper ∨ ¬ s.boot.hostReady ∨ s.flush.isSome ∨ s.ps.state ≥ 4 then .next s
  else if s.hx.perstHeld then .next (askHeld s)
  else match s.ps.ordered with
    | some (_, want) => if tooHot s then .next s else .next (timerAsk want s)
    | none => match timerState s idleUs with
      | some want => .next (timerAsk want s)
      | none => .next s

/-! ### Waking -/

/-- L1_EXIT: PCIe activity wakes the device (11 R320). -/
def execL1Exit (p : Port) (s : State) : Host.Outcome State Fault Refusal :=
  if s.ps.state = 4 then .next s else .next (wakeFor p s)

/-- WAKE_IN_HELD_TIMEOUT: WAKE_IN_N low for 1 s: NOTICE 12.9, once until the pin has risen and fallen (11 R325). -/
def execWakeInHeldTimeout (s : State) : Host.Outcome State Fault Refusal :=
  if s.ps.wakeLow ∧ ¬ s.ps.wakeTold then .next (raise 12 9 0 0 (onPs (fun p => { p with wakeTold := true }) s)) else .next s

/-! ### The patrol -/

/-- The channel group of a unit (11 R326). -/
def patrolGroup (addr : Nat) : Nat := unitCh addr / 4

/-- The units of a group in patrol order: from the unit table in RUN and IDLE, from the skip map else (11 R326). -/
def patrolUnits (s : State) (g : Nat) : List Nat :=
  (if s.ps.state ≤ 1 then skipMap s else s.ps.skip).filter (fun a => patrolGroup a = g)

/-- Page i of the sample of a unit (11 R327). -/
def samplePage (s : State) (addr g i : Nat) : Nat :=
  let rows := max 1 s.prm.power.rows
  let n := max 1 (unitPages (geo s) (if slcUnit s addr then 0 else 1) - 1)
  let r := nth s.ps.pass g 0 % max 1 (ceilDiv n rows)
  1 + (i * n / rows + r) % n

/-- A patrol page counted, its read on the bus. -/
def patrolPage (addr page : Nat) (s : State) : State :=
  busRead addr page 0 (onPs (fun p => { p with ptPages := inc 32 p.ptPages }) s)

/-- A rewrite that the patrol schedules: REWRITE with CAUSE 3 (11 R330). -/
def patrolRewrite (addr : Nat) (s : State) : State :=
  if s.map.rewrites.any (fun r => r.1 = addr) then s
  else scheduleRewrite addr 3 (onPs (fun p => { p with ptRewrites := inc 32 p.ptRewrites }) s)

/-- The reads of the ladder's first levels on a page; a page that needed any raises NOTICE 8.1 and asks for a fid (07 R206, R207). -/
def patrolClimb (addr page levels : Nat) (s : State) : State :=
  let s := (List.range levels).foldl (fun s l => ladderReads addr page (l + 1) s) s
  if levels = 0 then s else softNeeded addr s

/-- The outcome of one sample page (11 R330). -/
def pageOutcome (addr page : Nat) (s : State) (x : PatrolPage) : State :=
  match x with
  | .good => s
  | .erased => s
  | .weak level words =>
    let s := patrolClimb addr page (min level 3) s
    raiseEvery (evKey 12 7) 3600 12 7 0 0 (patrolRewrite addr (if level = 0 then s else countSoft level words s))
  | .unrecovered bad =>
    let s := if bad then checkFail s else unrecovered (patrolClimb addr page 3 s)
    raise 12 8 0 0 (patrolRewrite addr (onPs (fun p => { p with ptUnrecov := inc 32 p.ptUnrecov }) s))

/-- The header of a visited unit (08 R219, 11 R330): it answers whether the unit's pages are read. -/
def headerOutcome (x : HeaderRead) (s : State) : Bool × State :=
  match readAs x with
  | .copy c => (true, (List.range (min c 3)).foldl (fun s _ => raise 8 12 0 0 s) s)
  | .erased => (false, onPs (fun p => { p with ptNohdr := inc 32 p.ptNohdr }) s)
  | _ =>
    (false, raise 8 13 0 0 ((List.range 4).foldl (fun s _ => raise 8 12 0 0 s) (onPs (fun p => { p with ptNohdr := inc 32 p.ptNohdr }) s)))

/-- Seconds that a pass takes (11 R328). -/
def passSecs (s : State) : Nat := s.prm.power.patrolDays * 86400

/-- Units of a group already visited in this pass. -/
def visitedIn (s : State) (g : Nat) : Nat := ((patrolUnits s g).filter (fun a => patrolKey a < nth s.ps.pos g 0)).length

/-- A group's pace against its schedule: NOTICE 12.10 once per day for one more than a day behind (11 R328). -/
def checkPace (s : State) (g : Nat) : State :=
  let us := patrolUnits s g
  match nth s.ps.due g none with
  | none => onPs (fun p => { p with due := modAt p.due g (fun _ => some (s.dev.secs, visitedIn s g)) }) s
  | some (t, d) =>
    let late := !us.isEmpty && s.dev.secs > t + (visitedIn s g - d) * passSecs s / us.length + 86400
    let s := onPs (fun p => { p with behind := (if bit p.behind g then p.behind - 2 ^ g else p.behind) + (if late then 2 ^ g else 0) }) s
    if late then raiseEvery (0x10100 + g) 86400 12 10 0 0 s else s

/-- A visit ended: the next unit; past the last one the pass ends, INFO 12.6 (11 R328). -/
def endVisit (g addr : Nat) (s : State) : State :=
  let us := patrolUnits s g
  let s := onPs (fun p => { p with pos := modAt p.pos g (fun _ => patrolKey addr + 1), visited := modAt p.visited g (fun _ => 0) }) s
  if us.any (fun a => patrolKey a > patrolKey addr) then s
  else
    raise 12 6 0 0 (onPs (fun p => { p with
      pos := modAt p.pos g (fun _ => 0), pass := modAt p.pass g (fun n => (n + 1) % 2 ^ 32),
      due := modAt p.due g (fun x => x.map (fun y => (y.1 + (us.length - y.2) * passSecs s / max 1 us.length, 0))) }) s)

/-- One visit, or the part of it that a cycle's pages allow. It answers the pages left to the cycle (11 R327, R329). The reads are of the last class, so
they wait until nothing else is on the die (07 R200); a unit on a target that is not usable is not read (07 R209). -/
def visit (g : Nat) (acc : Nat × State) (v : PatrolVisit) : Nat × State :=
  let (left, s) := acc
  match (patrolUnits s g).find? (fun a => patrolKey a ≥ nth s.ps.pos g 0) with
  | none => (left, s)
  | some a =>
    if left = 0 then (0, s)
    else if !unitUsable s a then (left, endVisit g a s)
    else if !dieIdle s (unitDie a) then (left, s)
    else
      let done := nth s.ps.visited g 0
      let (go, s) := if done = 0 then headerOutcome v.header (patrolPage a 0 s) else (true, s)
      let left := if done = 0 then left - 1 else left
      let done := max done 1
      if !go then (left, endVisit g a s)
      else
        let rows := s.prm.power.rows
        let xs := v.pages.take (min left (rows + 1 - done))
        let s := (xs.zipIdx).foldl (fun s x =>
          let page := samplePage s a g (done - 1 + x.2)
          pageOutcome a page (patrolPage a page s) x.1) s
        let done := done + xs.length
        (left - xs.length,
         if done > rows then endVisit g a s else onPs (fun p => { p with visited := modAt p.visited g (fun _ => done) }) s)

/-- Whether the patrol may read (11 R326, 14 R394). -/
def mayPatrol (s : State) : Bool := s.map.state = 3 && s.jrnl.state = 4 && !s.safe.stopper && s.flush.isNone

/-- PATROL_READ: paced visits in RUN and IDLE (11 R328). The pace itself is when the command comes (log entry 30). -/
def execPatrolRead (group : Nat) (visits : List PatrolVisit) (s : State) : Host.Outcome State Fault Refusal :=
  if !mayPatrol s ∨ s.ps.state > 1 ∨ group > 3 then .next s
  else .next (checkPace (visits.foldl (visit group) (2 ^ 64, s)).2 group)

/-- Records still in flight made durable: the journal runs during a cycle (11 R329, step 7). -/
def settleRecords (s : State) : State :=
  (inFlight s ++ s.jrnl.waiting).foldl (fun s _ => match execRecordDurable s with
    | .next t => t
    | _ => s) s

/-- What makes a cycle rise to RUN (11 R331). -/
def cycleRises (unrecov : Nat) (s : State) : Bool :=
  s.ps.ptUnrecov ≠ unrecov || s.map.rewrites.length ≥ 1024 || s.jrnl.trigger.isSome || s.evt.queue.length ≥ 32

/-- The channels of a group started, as a cycle from DEEP begins with (11 R329, steps 3 and 4). -/
def startGroup (g : Nat) (starts : List ChanStart) (s : State) : State :=
  (List.range 4).foldl (fun s i =>
    let x := nth starts i { targets := [], trainFails := 0 }
    chanStart (4 * g + i) x.targets x.trainFails s) s

/-- PATROL_CYCLE: cycle c serves group c mod 4 and reads its next N pages, from DEEP or SLEEP, and returns there or rises to RUN; from DEEP the group's
supply is on for the cycle only (11 R329, R331). -/
def execPatrolCycle (group : Nat) (turn : PatrolTurn) (s : State) : Host.Outcome State Fault Refusal :=
  if !mayPatrol s ∨ (s.ps.state ≠ 2 ∧ s.ps.state ≠ 3) ∨ group ≠ s.ps.cycle % 4 ∨ s.ps.hs.isSome then .next s
  else
    let back := s.ps.state
    let u := s.ps.ptUnrecov
    let s := onPs (fun p => { p with state := 5, back := back, cycle := p.cycle + 1 }) s
    let s := if back = 3 then startGroup group turn.starts s else s
    let s := (turn.visits.foldl (visit group) (s.prm.power.patrolPages, s)).2
    let s := settleRecords (checkPace s group)
    if s.ps.state ≠ 5 then .next s
    else if cycleRises u s then .next (wake 6 s)
    else .next (onPs (fun p => { p with state := back }) (if back = 3 then groupOff s group else s))

end Sys2Proof.Machine
end

