-- ==== Sys2Proof/Machine/Features.lean ====
section
/-! DEFINITION. Features (04, table of features, R102): their values, SET_FEATURES and GET_FEATURES, and the conflicts of 04 R120 and R121
on a feature's value and on write protection. -/

namespace Sys2Proof.Machine

open Sys2Proof

/-- I/O queue pairs that the image grants; a field of 0 means 128 (04 R108, HOSTX limits). -/
def ioqPairs (s : State) : Nat := match s.prm.host with
  | some x => if x.ioqPairs = 0 then 128 else x.ioqPairs
  | none => 1

/-- Feature identifiers of the table but for 02h, 83h and 84h, which are not plain values of one controller. -/
def plainFeature (fid : Nat) : Bool :=
  has [0x01, 0x04, 0x05, 0x06, 0x07, 0x08, 0x09, 0x0A, 0x0B, 0x0F, 0x81, 0x82] fid

/-- Every feature identifier of the table. -/
def knownFeature (fid : Nat) : Bool := plainFeature fid || has [0x02, 0x83, 0x84] fid

/-- Features kept by namespace. -/
def nsFeature (fid : Nat) : Bool := has [0x82, 0x83, 0x84] fid

/-- What Set Features refuses of a plain value (04, table of features; field widths as NVMe's, PRESUMED, log entry 23). -/
def refuseValue (s : State) (p : Port) (fid v : Nat) : Option (Nat × Nat) :=
  match fid with
  | 0x04 => if field v 19 16 = 0 ∨ field v 19 16 = 15 then (if field v 21 20 < 2 then none else some (0, 0x02)) else some (0, 0x02)
  | 0x05 => if bit v 16 then some (0, 0x02) else none
  | 0x07 =>
    let c := s.ctl.get p
    if !c.sqs.isEmpty || !c.cqs.isEmpty then some (0, 0x0C)
    else if v % 65536 = 65535 ∨ v / 65536 = 65535 then some (0, 0x02) else none
  | 0x09 => if v % 65536 < msixCount s then none else some (0, 0x02)
  | 0x81 => if bit v 0 then none else some (0, 0x02)
  | _ => none

/-- Number of Queues as Dword 0 shows it: counts less 1 (04, feature 07h). -/
def queuesWord (n : Nat) : Nat := (n - 1) + 65536 * (n - 1)

/-- A reservation notification mask set, of one namespace or of all (04, feature 82h). -/
def setMask (s : State) (l : List (Nat × Nat)) (nsid v : Nat) : List (Nat × Nat) :=
  if nsid = 0xFFFFFFFF then s.prm.namespaces.foldl (fun l n => kvPut l n.nsid v) l else kvPut l nsid v

/-- A plain feature's value taken. -/
def takeFeature (s : State) (fid nsid v : Nat) (hostId : BitVec 128) (f : Features) : Features :=
  match fid with
  | 0x01 => { f with arbitration := v }
  | 0x04 => if field v 21 20 = 0 then { f with tempOver := v % 65536 } else { f with tempUnder := v % 65536 }
  | 0x05 => { f with errRecovery := v % 65536 }
  | 0x06 => { f with wce := bit v 0 }
  | 0x07 => { f with queues := min (ioqPairs s) (max (v % 65536) (v / 65536) + 1) }
  | 0x08 => { f with intCoal := v % 65536 }
  | 0x09 => { f with intVec := kvPut f.intVec (v % 65536) (field v 16 16) }
  | 0x0A => { f with atomicity := v % 2 }
  | 0x0B => { f with aec := BitVec.ofNat 32 v }
  | 0x0F => { f with kato := (v + 99) / 100 * 100 }
  | 0x81 => { f with hostId := hostId }
  | 0x82 => { f with resvMask := setMask s f.resvMask nsid (field v 3 1) }
  | _ => f

/-- The object of a feature order: a controller's, or the subsystem's for Reservation Persistence (04 R120). -/
def featObj (p : Port) (fid : Nat) : OrderObj := if fid = 0x83 then .feature none fid else .feature (some p) fid

/-- A plain feature set on a controller. -/
def setPlain (p : Port) (fid nsid v : Nat) (hostId : BitVec 128) (s : State) : State :=
  setCtl p (fun c => { c with feat := takeFeature s fid nsid v hostId c.feat }) s

/-! ### Write protection -/

/-- The newest NS_STATE record of a namespace that is not durable yet. -/
def pendingProtect (s : State) (nsid : Nat) : Option Nat :=
  (argMax (fun r => r.recno) ((ahead s).filter (fun r => match r.body with
    | .nsState n _ => n = nsid
    | _ => false))).bind (fun r => match r.body with
      | .nsState _ w => some w
      | _ => none)

/-- Hosts' outstanding orders on the write protection of a namespace. -/
def protectCmds (s : State) (nsid : Nat) : List HostCmd :=
  s.cmds.filter (fun c => decide (c.nsid = nsid) && (match orderOf s (.protect nsid) with
    | some r => c.waitRec.isSome && decide (r.value = c.nlb1) && c.slba = 0x84
    | none => false))

/-- Whether an order on write protection loses: enable against a protection that has not yet taken effect (04 R121). -/
def protectLoses (s : State) (nsid v : Nat) : Bool := v = 0 && (match pendingProtect s nsid with
  | some w => w ≠ 0
  | none => false)

/-- Answers owed to peers for enables of a namespace that have not taken effect. -/
def enableOwed (s : State) (nsid : Nat) : List Owed :=
  s.braid.owed.filter (fun o => o.msg.op = 2 && (ahead s).any (fun r => r.recno = o.recno && decide (r.body = .nsState nsid 0)))

/-- A peer's pending order that loses: the conflict status (04 R121, 09 R243). -/
def owedLoses (o : Owed) (s : State) : State :=
  refusePeer o.port o.link o.msg.head.tag 1 (countConflict (onBraid (fun b => { b with owed := b.owed.filter (fun x => x ≠ o) }) s))

/-- A protection that beats an enable which has not taken effect: the enable, a host's or a peer's, loses (04 R121). -/
def protectBeats (nsid v : Nat) (s : State) : State :=
  if v ≠ 0 ∧ pendingProtect s nsid = some 0 then
    (enableOwed s nsid).foldl (fun s o => owedLoses o s) ((protectCmds s nsid).foldl (fun s c => cmdLoses c s) s)
  else s

/-- A host's order on write protection: an NS_STATE record, whose durability completes it (05 R130, R132). -/
def hostProtect (h : Hdr) (nsid v : Nat) (s : State) : State :=
  if v > 2 then answer h 0 0x02 0 s
  else if protectLoses s nsid v then hostLoses h s
  else
    let s := noteOrder (.protect nsid) (hostMaster h.port) v (protectBeats nsid v s)
    let (key, s) := newKey s
    let (n, s) := journal (hostRec h.port (.nsState nsid v) s) s
    addCmd { newCmd key h .resv nsid 0x84 v s.hx.gseq s with waitRec := some n } s

/-- Reservation Persistence: a RESERVATION record of action 4 or 5 (05 R130). -/
def hostPersist (h : Hdr) (nsid v : Nat) (s : State) : State :=
  recordFor h .resv nsid 0 (resvRec nsid (hostIdOf s h.port) 0#64 0 (if bit v 0 then 4 else 5)) s

/-- Set Features on its accepted state, but for Power Management. -/
def setFeatureCmd (h : Hdr) (fid nsid v : Nat) (hostId : BitVec 128) (s : State) : State :=
  if !knownFeature fid then answer h 0 0x02 0 s
  else if nsFeature fid ∧ (nsOf s nsid).isNone ∧ ¬ (fid = 0x82 ∧ nsid = 0xFFFFFFFF) then answer h 0 0x0B 0 s
  else if fid = 0x84 then hostProtect h nsid (field v 2 0) s
  else if featureLoses s (featObj h.port fid) (hostMaster h.port) then hostLoses h s
  else if fid = 0x83 then hostPersist h nsid v (noteOrder (featObj h.port fid) (hostMaster h.port) v s)
  else match refuseValue s h.port fid v with
    | some (t, c) => answer h t c 0 s
    | none =>
      let s := setPlain h.port fid nsid v hostId (noteOrder (featObj h.port fid) (hostMaster h.port) v s)
      answer h 0 0 (if fid = 0x07 then queuesWord (s.ctl.get h.port).feat.queues else 0) s

/-- SET_FEATURES (04 R102). Power Management orders a power state (11 R313); the five states are those of 11 R309. -/
def execSetFeatures (h : Hdr) (fid : Nat) (sv : Bool) (nsid : Nat) (value : Word) (hostId : BitVec 128) (s : State) :
    Host.Outcome State Fault Refusal :=
  if sv then admin h (answer h 1 0x0D 0) s
  else if fid = 0x02 then
    powerAdmin h (fun s => match codePwr (value.toNat % 32) with
      | some st => hostPower h st s
      | none => answer h 0 0x02 0 s) s
  else admin h (setFeatureCmd h fid nsid value.toNat hostId) s

/-! ### Get Features -/

/-- The current value of a feature as Dword 0 shows it. -/
def featureWord (s : State) (p : Port) (fid nsid cdw11 : Nat) : Nat :=
  let f := (s.ctl.get p).feat
  match fid with
  | 0x01 => f.arbitration
  | 0x02 => f.ps
  | 0x04 => if field cdw11 21 20 = 0 then f.tempOver else f.tempUnder
  | 0x05 => f.errRecovery
  | 0x06 => b2n f.wce
  | 0x07 => queuesWord (if f.queues = 0 then ioqPairs s else f.queues)
  | 0x08 => f.intCoal
  | 0x09 => cdw11 % 65536 + 65536 * kvCount f.intVec (cdw11 % 65536)
  | 0x0A => f.atomicity
  | 0x0B => f.aec.toNat
  | 0x0F => f.kato
  | 0x82 => 2 * kvCount f.resvMask nsid
  | 0x83 => b2n (has s.ptpl nsid)
  | 0x84 => (match kvGet s.hx.wprot nsid with
    | some w => w
    | none => match nsOf s nsid with
      | some n => b2n n.wp
      | none => 0)
  | _ => 0

/-- The default value of a feature: its value after reset (04 R110 for 06h). -/
def featureDefault (s : State) (fid nsid cdw11 : Nat) : Nat :=
  match fid with
  | 0x04 => if field cdw11 21 20 = 0 then State.feat0.tempOver else State.feat0.tempUnder
  | 0x06 => 1
  | 0x07 => queuesWord (ioqPairs s)
  | 0x09 => cdw11 % 65536
  | 0x84 => (match nsOf s nsid with
    | some n => b2n n.wp
    | none => 0)
  | _ => 0

/-- Get Features on its accepted state (04 R102). -/
def getFeatureCmd (h : Hdr) (fid sel nsid cdw11 : Nat) (s : State) : State :=
  if !knownFeature fid ∨ sel > 3 then answer h 0 0x02 0 s
  else if nsFeature fid ∧ (nsOf s nsid).isNone ∧ sel ≠ 3 then answer h 0 0x0B 0 s
  else if sel = 3 then answer h 0 0 (if fid = 0x83 ∨ fid = 0x84 then 6 else 4) s
  else if fid = 0x81 then
    let v := if sel = 0 then (s.ctl.get h.port).feat.hostId else 0#128
    answer h 0 0 0 (emit (.bytes h.port h.sq h.cid (le 16 v.toNat)) s)
  else answer h 0 0 (if sel = 0 then featureWord s h.port fid nsid cdw11 else featureDefault s fid nsid cdw11) s

/-- GET_FEATURES (04 R102): Select 0 current, 1 and 2 default, since no feature is saveable, 3 capabilities. -/
def execGetFeatures (h : Hdr) (fid sel nsid : Nat) (cdw11 : Word) (s : State) : Host.Outcome State Fault Refusal :=
  admin h (getFeatureCmd h fid sel nsid cdw11.toNat) s

end Sys2Proof.Machine
end

