-- ==== Sys2Proof/Machine/Aes.lean ====
section
/-! DEFINITION. AES of FIPS 197 with 128-bit and 256-bit keys (13 R377), the key wrap of RFC 3394 (13 R374) and the CMAC of NIST SP
800-38B (13 R381), on bytes. A block is 16 bytes. -/

namespace Sys2Proof.Machine

open Sys2Proof

/-! ### The field of AES: polynomial 0x11B -/

/-- Multiplication by x. -/
def aesDouble (b : Byte) : Byte := if b.msb then (b <<< 1) ^^^ 0x1B#8 else b <<< 1

/-- Multiplication, by the low n bits of the first factor. -/
def aesMulAux : Nat → Byte → Byte → Byte
  | 0, _, _ => 0#8
  | n + 1, a, b => (if a.getLsbD 0 then b else 0#8) ^^^ aesMulAux n (a >>> 1) (aesDouble b)

def aesMul (a b : Byte) : Byte := aesMulAux 8 a b

/-- The inverse, with 0 for 0: the 254th power. -/
def aesInv (a : Byte) : Byte :=
  let a2 := aesMul a a
  let a3 := aesMul a2 a
  let a6 := aesMul a3 a3
  let a12 := aesMul a6 a6
  let a15 := aesMul a12 a3
  let a30 := aesMul a15 a15
  let a60 := aesMul a30 a30
  let a120 := aesMul a60 a60
  let a126 := aesMul a120 a6
  let a127 := aesMul a126 a
  aesMul a127 a127

/-- The substitution and its inverse. -/
def subByte (a : Byte) : Byte :=
  let b := aesInv a
  b ^^^ b.rotateLeft 1 ^^^ b.rotateLeft 2 ^^^ b.rotateLeft 3 ^^^ b.rotateLeft 4 ^^^ 0x63#8

def invSubByte (a : Byte) : Byte :=
  aesInv (a.rotateLeft 1 ^^^ a.rotateLeft 3 ^^^ a.rotateLeft 6 ^^^ 0x05#8)

/-! ### Rounds: byte r + 4c is row r of column c -/

def xorB (a b : List Byte) : List Byte := List.zipWith (· ^^^ ·) a b

def shiftRows (s : List Byte) : List Byte :=
  (List.range 16).map (fun i => nth s (i % 4 + 4 * ((i / 4 + i % 4) % 4)) 0#8)

def invShiftRows (s : List Byte) : List Byte :=
  (List.range 16).map (fun i => nth s (i % 4 + 4 * ((i / 4 + 4 - i % 4) % 4)) 0#8)

/-- A column multiplied by the circulant matrix of four coefficients. -/
def mixColumn (m : List Byte) (c : List Byte) : List Byte :=
  (List.range 4).map (fun r => (List.range 4).foldl (fun x k => x ^^^ aesMul (nth m ((k + 4 - r) % 4) 0#8) (nth c k 0#8)) 0#8)

def mixColumns (m s : List Byte) : List Byte :=
  (List.range 4).flatMap (fun c => mixColumn m (sub s (4 * c) 4))

def mixMatrix : List Byte := [2#8, 3#8, 1#8, 1#8]
def invMixMatrix : List Byte := [14#8, 11#8, 13#8, 9#8]

/-! ### Key schedule -/

/-- The round constant of step n, from 1. -/
def rcon (n : Nat) : Byte := (List.range (n - 1)).foldl (fun b _ => aesDouble b) 1#8

/-- The next word of the schedule, given the words so far, newest first. -/
def nextWord (nk : Nat) (ws : List (List Byte)) : List Byte :=
  let i := ws.length
  let prev := nth ws 0 []
  let t := if i % nk = 0 then xorB ((prev.drop 1 ++ prev.take 1).map subByte) [rcon (i / nk), 0#8, 0#8, 0#8]
    else if nk = 8 ∧ i % nk = 4 then prev.map subByte
    else prev
  xorB (nth ws (nk - 1) []) t

def moreWords (nk : Nat) : Nat → List (List Byte) → List (List Byte)
  | 0, ws => ws
  | n + 1, ws => moreWords nk n (nextWord nk ws :: ws)

/-- Rounds of a key: 10 for 16 bytes, 14 for 32. -/
def rounds (key : List Byte) : Nat := key.length / 4 + 6

/-- The round keys of a key, first to last. -/
def roundKeys (key : List Byte) : List (List Byte) :=
  let nk := key.length / 4
  let ws := (moreWords nk (4 * (rounds key + 1) - nk) ((chunks 4 9 key).reverse)).reverse
  (chunks 4 16 ws).map List.flatten

/-! ### One block -/

/-- AES(K, block). -/
def aesEncrypt (key blk : List Byte) : List Byte :=
  let ks := roundKeys key
  let n := rounds key
  let s := (List.range (n - 1)).foldl (fun s r =>
    xorB (mixColumns mixMatrix (shiftRows (s.map subByte))) (nth ks (r + 1) [])) (xorB blk (nth ks 0 []))
  xorB (shiftRows (s.map subByte)) (nth ks n [])

/-- The inverse of AES. -/
def aesDecrypt (key blk : List Byte) : List Byte :=
  let ks := roundKeys key
  let n := rounds key
  let s := (List.range (n - 1)).foldl (fun s r =>
    mixColumns invMixMatrix (xorB ((invShiftRows s).map invSubByte) (nth ks (n - 1 - r) []))) (xorB blk (nth ks n []))
  xorB ((invShiftRows s).map invSubByte) (nth ks 0 [])

/-! ### RFC 3394 (13 R374) -/

/-- The default initial value. -/
def wrapIv : List Byte := List.replicate 8 0xA6#8

/-- A number as n big-endian bytes. -/
def be (n v : Nat) : List Byte := (le n v).reverse

/-- One step of the wrap: step t on the register i of the list. -/
def wrapStep (kek : List Byte) (n : Nat) (x : List Byte × List (List Byte)) (t : Nat) : List Byte × List (List Byte) :=
  let i := t % n
  let b := aesEncrypt kek (x.1 ++ nth x.2 i [])
  (xorB (b.take 8) (be 8 (t + 1)), modAt x.2 i (fun _ => b.drop 8))

/-- The wrap of a plaintext of whole 8-byte words. -/
def keyWrap (kek plain : List Byte) : List Byte :=
  let rs := chunks 8 (plain.length + 1) plain
  let x := (List.range (6 * rs.length)).foldl (wrapStep kek rs.length) (wrapIv, rs)
  x.1 ++ x.2.flatten

/-- One step of the unwrap. -/
def unwrapStep (kek : List Byte) (n : Nat) (x : List Byte × List (List Byte)) (t : Nat) : List Byte × List (List Byte) :=
  let i := t % n
  let b := aesDecrypt kek (xorB x.1 (be 8 (t + 1)) ++ nth x.2 i [])
  (b.take 8, modAt x.2 i (fun _ => b.drop 8))

/-- The unwrap; none where the initial value does not come back. -/
def keyUnwrap (kek wrapped : List Byte) : Option (List Byte) :=
  let rs := chunks 8 (wrapped.length + 1) (wrapped.drop 8)
  let x := (List.range (6 * rs.length)).reverse.foldl (unwrapStep kek rs.length) (wrapped.take 8, rs)
  if x.1 = wrapIv then some x.2.flatten else none

/-! ### CMAC (13 R381) -/

/-- A block shifted left by one bit, with 0x87 in its last byte where the top bit was 1. -/
def cmacDouble (b : List Byte) : List Byte :=
  let v := beVal b
  let w := be 16 (2 * v % 2 ^ 128)
  if v ≥ 2 ^ 127 then modAt w 15 (fun x => x ^^^ 0x87#8) else w

/-- K1 and K2 from L. -/
def subkeys (l : List Byte) : List Byte × List Byte := (cmacDouble l, cmacDouble (cmacDouble l))

/-- L of a key. -/
def cmacL (key : List Byte) : List Byte := aesEncrypt key (zeros 16)

/-- Blocks absorbed into a chain, none of them last. -/
def absorb (key chain : List Byte) (ms : List (List Byte)) : List Byte := ms.foldl (fun c m => aesEncrypt key (xorB c m)) chain

/-- Blocks absorbed, the last as last; `padded`: the host has padded it. -/
def absorbLast (key chain : List Byte) (padded : Bool) (ms : List (List Byte)) : List Byte :=
  let (k1, k2) := subkeys (cmacL key)
  let c := absorb key chain ms.dropLast
  aesEncrypt key (xorB (xorB c (ms.getLastD [])) (if padded then k2 else k1))

/-- A message in blocks of 16 bytes; the last padded where it is short, and whether it was. An empty message is one padded block. -/
def cmacBlocks (m : List Byte) : List (List Byte) × Bool :=
  let r := m.length % 16
  if m.isEmpty ∨ r ≠ 0 then (chunks 16 (m.length + 2) (m ++ [0x80#8] ++ zeros (15 - r)), true)
  else (chunks 16 (m.length + 1) m, false)

/-- The CMAC tag of a message. -/
def cmac (key m : List Byte) : List Byte :=
  let (bs, p) := cmacBlocks m
  absorbLast key (zeros 16) p bs

end Sys2Proof.Machine
end

