-- ==== Sys2Proof/Machine/Records.lean ====
section
/-! DEFINITION. The content of record flash as bytes: the records of 13 R362, R374, 12 R349, 14 R397 and 15 R419, what RECWIN shows
(13 R360), and the log pages that are read from it (12 R350, 15 R420). -/

namespace Sys2Proof.Machine

open Sys2Proof

/-! ### Records as bytes -/

/-- A record body followed by its CRC-32C (05 R129). -/
def withCrc (bs : List Byte) : List Byte := bs ++ le 4 (crc32c bs).toNat

/-- A level, refresh or pin record (13 R362). -/
def flashRecBytes (r : FlashRec) : List Byte :=
  withCrc (le 1 r.type ++ le 1 r.arg ++ le 2 r.arg2 ++ le 4 r.seq ++ le 4 r.gen ++ le 6 r.secs ++ zeros 10)

/-- The store key (13 R374). -/
def storeKeyBytes : List Byte := (List.range 32).map Config.storeKey

/-- The context key (13 R374). -/
def contextKeyBytes : List Byte := (List.range 32).map Config.contextKey

/-- A key-store entry (13 R374); a deleted key wraps nothing. -/
def keyRecBytes (k : KeyRec) : List Byte :=
  let w := if k.state = 1 then keyWrap storeKeyBytes k.key else []
  withCrc (le 1 0x4B ++ le 1 k.slot ++ le 1 (b2n k.k256) ++ le 1 k.state ++ le 4 k.seq ++ le 4 k.gen ++ zeros 4 ++ fit 40 w ++ zeros 4)

/-- A zone of a thermal record: 0x8000 for no value (12 R349). -/
def zoneBytes (z : Option Int) : List Byte := le 2 (match z with
  | some v => code 16 v
  | none => 0x8000)

/-- A thermal record (12 R349) or a stopper record (14 R397). -/
def heatBytes : HeatRec → List Byte
  | .thermal source flags step zones dram powerOn secs =>
    withCrc (le 1 0x54 ++ le 1 source ++ le 1 flags ++ le 1 step ++ (zones.map zoneBytes).flatten ++ le 1 dram ++ zeros 1 ++
      le 4 powerOn ++ le 6 secs ++ zeros 2)
  | .stopper group bit flags detail gseq powerOn secs resets =>
    withCrc (le 1 0x53 ++ le 1 group ++ le 1 bit ++ le 1 flags ++ le 4 detail ++ le 8 gseq ++ le 4 powerOn ++ le 6 secs ++
      le 1 (sat 8 resets) ++ zeros 1)

/-- An event-log entry (15 R419). -/
def entryBytes (e : Entry) : List Byte :=
  withCrc (le 1 0x45 ++ le 1 (pack [(0, e.g), (4, entryClass e), (6, b2n e.queued)]) ++ le 1 e.bit ++ le 1 e.rep ++ le 4 e.seq ++
    le 6 e.secs ++ le 2 e.subsec ++ le 4 e.powerOn ++ le 4 e.arg0 ++ le 4 e.arg1)

/-! ### Banks as RECWIN shows them -/

/-- Four erased bytes. -/
def erased4 : List Byte := List.replicate 4 0xFF#8

/-- Four bytes at an offset of an area of equal slots. -/
def slotWord (n : Nat) (slot : Nat → Option (List Byte)) (off : Nat) : List Byte := match slot (off / n) with
  | some bs => sub bs (off % n) 4
  | none => erased4

/-- The byte of the custodian area at a bank offset; what is not listed reads erased. -/
def custByte (b : Bank) (off : Nat) : Byte := (kvGet b.cust off).getD 0xFF#8

/-- The four bytes of a bank at a word-aligned offset (13 R360). -/
def bankWord (no : Nat) (b : Bank) (off : Nat) : List Byte :=
  if off < 0x1000 then slotWord 32 (fun i => (b.level[i]?).map flashRecBytes) off
  else if off < 0x2000 then slotWord 32 (fun i => (b.pins[i]?).map flashRecBytes) (off - 0x1000)
  else if off < 0x3000 then (match b.header with
    | some h => sub h (off - 0x2000) 4
    | none => erased4)
  else if off < 0x7000 then slotWord 64 (fun i => (b.keys[i]?).map keyRecBytes) (off - 0x3000)
  else if off < 0xF000 then slotWord 32 (fun i => (kvGet b.heat i).map heatBytes) (off - 0x7000)
  else if off < 0x10F000 then
    slotWord 32 (fun i => ((kvGet b.log (2 * (i / 128) + no)).bind (fun es => es[i % 128]?)).map entryBytes) (off - 0xF000)
  else if off < 0x7FF000 then (List.range 4).map (fun i => custByte b (off + i))
  else erased4

/-- Whether the level hides an offset of a bank from RECWIN (13 R369). -/
def levelHides (lvl off : Nat) : Bool :=
  (lvl ≥ 1 && 0x2000 ≤ off && off < 0x7000) || (lvl ≥ 2 && !(0xF000 ≤ off && off < 0x10F000))

/-! ### Log pages -/

/-- Thermal records of both banks, newest first. -/
def thermals (s : State) : List HeatRec :=
  let all := ((s.rf.banks[0].heat ++ s.rf.banks[1].heat).map (fun x => x.2)).filter (fun h => match h with
    | .thermal .. => true
    | _ => false)
  (sortBy (fun h => match h with
    | .thermal _ _ _ _ _ _ secs => secs
    | .stopper .. => 0) all).reverse

/-- Log page C2h (12 R350). -/
def logC2 (s : State) : List Byte :=
  let ts := thermals s
  le 4 ts.length ++ le 1 (min 16 ts.length) ++ le 1 (sat 8 s.aon.latchRefusals) ++ zeros 26 ++ ((ts.take 16).map heatBytes).flatten

/-- Entries of the event log, oldest first by SEQ in serial order (15 R419, R420). -/
def logEntries (s : State) : List Entry :=
  let all := (s.rf.banks[0].log ++ s.rf.banks[1].log).flatMap (fun x => x.2)
  sortBy (fun e => (e.seq + 2 ^ 32 - s.evt.nextSeq % 2 ^ 32) % 2 ^ 32) all

/-- Log page C3h (15 R420). -/
def logC3 (s : State) : List Byte :=
  let es := logEntries s
  le 4 (match es.head? with
    | some e => e.seq
    | none => 0) ++ le 4 es.length ++ le 4 s.evt.dropped ++ le 4 s.evt.suppressed ++ le 4 s.dev.powerOn ++ le 6 s.dev.secs ++ zeros 6 ++
    (es.map entryBytes).flatten

end Sys2Proof.Machine
end

