-- ==== Sys2Proof/Machine/RecordFlash.lean ====
section
/-! DEFINITION. Record flash (13): its operations and their ends (R359, R361, R363, R367, R368), host access (R364 to R366), protection
levels (R369 to R373), what the release of the gates does (R361, R367, R372), and EVENT_LOG_WRITE (15 R417). -/

namespace Sys2Proof.Machine

open Sys2Proof

/-! ### The custodian area -/

/-- The canonical form of a custodian area: offsets strictly rising, no byte that an unlisted offset reads as. -/
def Memory.wf : List Host.Cell → Bool
  | [] => true
  | [c] => c.2 ≠ 0xFF#8
  | c :: d :: m => decide (c.1 < d.1) && decide (c.2 ≠ 0xFF#8) && Memory.wf (d :: m)

/-- One byte written: a byte equal to the erased value is not listed. -/
def custPut (m : List Host.Cell) (off : Nat) (b : Byte) : List Host.Cell := if b = 0xFF#8 then kvDel m off else kvPut m off b

/-- Bytes written from an offset. -/
def custWrite (m : List Host.Cell) : Nat → List Byte → List Host.Cell
  | _, [] => m
  | off, b :: bs => custWrite (custPut m off b) (off + 1) bs

/-- The bytes of a range erased. -/
def custErase (m : List Host.Cell) (off n : Nat) : List Host.Cell := m.filter (fun c => c.1 < off || off + n ≤ c.1)

/-! ### What an operation does to its bank -/

/-- One bank changed. -/
def setBank (b : Nat) (f : Bank → Bank) (s : State) : State := onRf (fun r => { r with banks := modVec r.banks b f }) s

def bankAt (s : State) (b : Nat) : Bank := vecAt s.rf.banks b State.bank0

/-- Slots of the thermal-record area. -/
def heatSlots : Nat := 1024

/-- The erased slot that the next thermal or stopper record takes: the first after a written one, round the area. -/
def heatSlot (b : Bank) : Option Nat :=
  if b.heat.isEmpty then some 0
  else ((List.range heatSlots).filter (fun i => (kvGet b.heat i).isNone && (kvGet b.heat ((i + heatSlots - 1) % heatSlots)).isSome)).head?

/-- A sector erased. The four sectors of the key store are erased together, under the first (13 R374). -/
def eraseSectorOf (n : Nat) (b : Bank) : Bank :=
  if n = 0 then { b with level := [] }
  else if n = 1 then { b with pins := [] }
  else if n = 2 then { b with header := none }
  else if n < 7 then { b with keys := [] }
  else if n < 15 then { b with heat := b.heat.filter (fun x => x.1 / 128 ≠ n - 7) }
  else if 271 ≤ n ∧ n < 2047 then { b with cust := custErase b.cust (4096 * n) 4096 }
  else b

/-- An operation's effect on the content of its bank. A refresh leaves the content as it was (13 R367; log entry 37). -/
def flashEffect (w : FlashWhat) (b : Bank) : Bank :=
  match w with
  | .record r => if r.type = 0x50 ∨ r.type = 0x55 then { b with pins := b.pins ++ [r] } else { b with level := b.level ++ [r] }
  | .header bs => { b with header := some bs }
  | .key k => { b with keys := b.keys ++ [k] }
  | .heat h => match heatSlot b with
    | some i => { b with heat := kvPut b.heat i h }
    | none => b
  | .entry i e => { b with log := kvPut b.log i ((kvGet b.log i).getD [] ++ [e]) }
  | .page off bs => { b with cust := custWrite b.cust off bs }
  | .eraseLog i => { b with log := kvDel b.log i }
  | .eraseSector n => eraseSectorOf n b
  | .eraseBank keep0 => if keep0 then { State.bank0 with level := b.level } else State.bank0
  | .refresh _ _ => b

/-! ### Sequences of records -/

/-- A sequence of a kind of record: level and lowering, refresh, pin. -/
def recKind (t : Nat) : Nat := if t = 0x4C ∨ t = 0x6C then 0 else if t = 0x52 ∨ t = 0x72 then 1 else 2

/-- Records of sectors 0 and 1 that are being written or wait. -/
def recsPending (s : State) : List FlashRec :=
  (s.rf.queue ++ s.rf.busy.toList.filterMap id).filterMap (fun j => match j.what with
    | .record r => some r
    | _ => none)

/-- Every record of sectors 0 and 1, of both banks and on the way. -/
def allRecs (s : State) : List FlashRec :=
  s.rf.banks[0].level ++ s.rf.banks[0].pins ++ s.rf.banks[1].level ++ s.rf.banks[1].pins ++ recsPending s

/-- One above the highest SEQ of a kind in either bank (13 R361). -/
def nextSeqOf (s : State) (t : Nat) : Nat := match newestRec ((allRecs s).filter (fun r => recKind r.type = recKind t)) with
  | some r => r.seq + 1
  | none => 0

/-- A new record of sector 0 or 1. -/
def newRec (s : State) (t arg arg2 gen : Nat) : FlashRec :=
  { type := t, arg := arg, arg2 := arg2, seq := nextSeqOf s t, gen := gen, secs := s.dev.secs }

/-- Every key-store entry, of both banks and on the way. -/
def allKeys (s : State) : List KeyRec :=
  s.rf.banks[0].keys ++ s.rf.banks[1].keys ++ (s.rf.queue ++ s.rf.busy.toList.filterMap id).filterMap (fun j => match j.what with
    | .key k => some k
    | _ => none)

/-- The entry of a key slot that stands: the newest of either bank (13 R374). -/
def keyEntry (s : State) (slot : Nat) : Option KeyRec :=
  argMax (fun k => k.seq) ((s.rf.banks[0].keys ++ s.rf.banks[1].keys).filter (fun k => k.slot = slot))

/-- The key in force in a slot. -/
def slotKey (s : State) (slot : Nat) : Option (List Byte) := match keyEntry s slot with
  | some k => if k.state = 1 then some k.key else none
  | none => none

/-- The pin record in force, none where an unpin record or an unusable pin record stands (13 R362). -/
def pinInForce (s : State) : Option FlashRec :=
  match newestRec (s.rf.banks[0].pins ++ s.rf.banks[1].pins) with
  | some r => if r.type = 0x50 ∧ r.arg ≤ 1 then some r else none
  | none => none

/-- A lowering record newer than every level record (13 R369, R372). -/
def loweringOpen (s : State) : Option FlashRec := match newestRec (levelRecs s) with
  | some r => if r.type = 0x6C then some r else none
  | none => none

/-- Whether a stored image header is valid (13 R362). -/
def headerValid (h : List Byte) : Bool :=
  sub h 0 4 == [0x41#8, 0x52#8, 0x56#8, 0x49#8] && rd h 4 2 = 1 && rd h 6 2 = Config.part && 11 ≤ rd h 12 2 && rd h 12 2 ≤ 2048

/-- GENERATION of a header. -/
def headerGen (h : List Byte) : Nat := rd h 8 4

/-- The valid header copy of a bank. -/
def goodHeader (b : Bank) : Option (List Byte) := match b.header with
  | some h => if headerValid h then some h else none
  | none => none

/-- The header copy that stands (13 R362). -/
def standingHeader (s : State) : Option (List Byte) :=
  match goodHeader s.rf.banks[0], goodHeader s.rf.banks[1] with
  | some a, some b => if headerGen b > headerGen a then some b else some a
  | some a, none => some a
  | none, b => b

/-! ### Housekeeping after an operation -/

/-- A header written into one bank: its sector is erased first where it holds anything. -/
def headerJobs (b : Nat) (bs : List Byte) (other : Bool) (s : State) : State :=
  let s := if (bankAt s b).header.isSome then flashJob { bank := b, what := .eraseSector 2, other := false } s else s
  flashJob { bank := b, what := .header bs, other := other } s

/-- A copy of a record for the other bank (13 R361). -/
def copyOther (j : FlashJob) (s : State) : State :=
  match j.what with
  | .header bs => headerJobs (1 - j.bank) bs false s
  | w => flashJob { bank := 1 - j.bank, what := w, other := false } s

/-- The refresh record in force (13 R361, R362). -/
def refreshRec (s : State) : Option FlashRec :=
  newestRec ((s.rf.banks[0].level ++ s.rf.banks[1].level).filter (fun r => r.type = 0x52 || r.type = 0x72))

/-- A refresh begun in a sector and not ended (13 R367). -/
def refreshOpen (s : State) : Option FlashRec :=
  match refreshRec s with
  | some r => if r.type = 0x52 then some r else none
  | none => none

/-- A sector with no erased slot left, erased, and the records in force written into it again (13 R362, R374). -/
def keepRoom (b : Nat) (s : State) : State :=
  let k := bankAt s b
  let job (w : FlashWhat) (s : State) : State := flashJob { bank := b, what := w, other := false } s
  let s := if k.level.length ≥ 128 then
      let stand := (newestRec (levelRecs s)).toList ++ (refreshRec s).toList
      stand.foldl (fun s r => job (.record r) s) (job (.eraseSector 0) s)
    else s
  let s := if k.pins.length ≥ 128 then
      (newestRec k.pins).toList.foldl (fun s r => job (.record r) s) (job (.eraseSector 1) s)
    else s
  if k.keys.length ≥ 256 then
    ((List.range 16).filterMap (keyEntry s)).foldl (fun s e => job (.key e) s) (job (.eraseSector 3) s)
  else s

/-- A fresh sector of the thermal-record area of a bank with four or fewer erased slots, erased before any other erase (12 R345). -/
def heatRoom (b : Nat) (s : State) : State :=
  let k := bankAt s b
  if k.heat.length + 4 < heatSlots then s
  else
    let sec := match heatSlot k with
      | some i => (i / 128 + 1) % 8
      | none => 0
    let j : FlashJob := { bank := b, what := .eraseSector (7 + sec), other := false }
    if (s.rf.queue ++ s.rf.busy.toList.filterMap id).any (fun x => decide (x = j)) then s else flashUrgent j s

/-- The log sector after another, passing over those that failed to erase (13 R363, R368). -/
def logAfter (s : State) (i : Nat) : Nat :=
  ((((List.range 511).map (fun k => (i + 1 + k) % 512)).filter (fun k => !has s.rf.passed k)).head?).getD ((i + 1) % 512)

/-- The log sector after the one being written is kept erased (13 R363). -/
def eraseAhead (s : State) : State :=
  let n := logAfter s s.rf.logAt
  let j : FlashJob := { bank := n % 2, what := .eraseLog n, other := false }
  if has s.rf.ready n || s.rf.lstate ≠ 0 || (s.rf.queue ++ s.rf.busy.toList.filterMap id).any (fun x => decide (x = j)) then s
  else flashJob j s

/-- An entry in the log: its sector is no longer erased; a full sector moves the writing on (13 R363). -/
def entryDone (i : Nat) (s : State) : State :=
  let n := ((kvGet (bankAt s (i % 2)).log i).getD []).length
  let s := onRf (fun r => { r with ready := r.ready.filter (fun k => k ≠ i) }) s
  if n ≥ 128 ∧ s.rf.logAt = i then eraseAhead (onRf (fun r => { r with logAt := logAfter s i }) s) else s

/-- The next step of a refresh (13 R367): 0 erase the spare, 1 program it, 2 the refresh-begun record, 3 erase the sector, 4 program it,
5 the refresh-ended record, 6 erase the spare. -/
def refreshStep (b sector step : Nat) (s : State) : State :=
  if step = 2 then flashBoth (.record (newRec s 0x52 b sector 0)) s
  else if step = 5 then flashBoth (.record (newRec s 0x72 b sector 0)) s
  else if step ≤ 6 then flashJob { bank := b, what := .refresh sector step, other := false } s
  else raise 14 0 0 0 (onRf (fun r => { r with refreshes := inc 16 r.refreshes }) s)

/-- The level record of a lowering into BANK_0 (13 R371, step 5). -/
def lowerRecord (s : State) : State :=
  flashJob { bank := 0, what := .record (newRec s 0x4C s.rf.lowTo 0 0), other := false } s

/-- A lowering goes on after a bank has been erased (13 R371, R372). -/
def lowerErased (b : Nat) (s : State) : State :=
  if s.rf.lowFinish then
    (if b = 0 then flashJob { bank := 1, what := .eraseBank true, other := false } s else lowerRecord s)
  else if b = 1 then flashJob { bank := 1, what := .record (newRec s 0x6C s.rf.lowTo (level s) 0), other := false } s
  else lowerRecord s

/-- What follows a durable record of sector 0 or 1. -/
def recordDone (j : FlashJob) (r : FlashRec) (s : State) : State :=
  if r.type = 0x6C ∧ s.rf.lstate = 1 then
    flashJob { bank := 0, what := .eraseBank false, other := false } (onRf (fun x => { x with lstate := 2 }) s)
  else if r.type = 0x4C ∧ s.rf.lstate = 2 then
    flashJob { bank := 1, what := .record r, other := false }
      (onRf (fun x => { x with lstate := 0, lowFinish := false, lowTail := true, ready := List.range 512, logAt := 0 }) s)
  else if r.type = 0x4C ∧ s.rf.lowTail ∧ j.bank = 1 then raise 14 5 0 0 (onRf (fun x => { x with lowTail := false }) s)
  else if r.type = 0x4C ∧ j.other then raise 14 4 0 0 s
  else if r.type = 0x52 ∧ ¬ j.other then refreshStep r.arg r.arg2 3 s
  else if r.type = 0x72 ∧ ¬ j.other then refreshStep r.arg r.arg2 6 s
  else s

/-- A RECF_CMD ends (13 R366). -/
def cmdEnds (err : Nat) (s : State) : State := onRf (fun r => { r with cmdState := if err = 0 then 2 else 3, cmdErr := err }) s

/-- What follows an operation that has succeeded. -/
def afterJob (j : FlashJob) (s : State) : State :=
  let s := if j.other then copyOther j s else s
  match j.what with
  | .record r => recordDone j r s
  | .header _ => s
  | .key _ => s
  | .heat _ => heatRoom j.bank s
  | .entry i _ => entryDone i s
  | .page _ _ => cmdEnds 0 s
  | .eraseLog i => eraseAhead (onRf (fun r => { r with ready := insNat r.ready i }) s)
  | .eraseSector n => if n ≥ 271 then cmdEnds 0 s else s
  | .eraseBank _ => lowerErased j.bank s
  | .refresh sec step => refreshStep j.bank sec (step + 1) s

/-- What follows an operation whose status failed: ERROR 14.10 (13 R368). A record goes on to the other bank; a log sector that fails to
erase is passed over; a bank erase of a lowering is made again (log entry 37). -/
def afterFailure (j : FlashJob) (s : State) : State :=
  let s := raise 14 10 0 0 s
  match j.what with
  | .page _ _ => cmdEnds 4 s
  | .eraseSector n => if n ≥ 271 then cmdEnds 4 s else s
  | .eraseLog i => eraseAhead (onRf (fun r => { r with passed := insNat r.passed i }) s)
  | .eraseBank _ => flashJob { j with other := false } s
  | .record _ => if j.other then copyOther j s else s
  | .header _ => if j.other then copyOther j s else s
  | .key _ => if j.other then copyOther j s else s
  | _ => s

/-- The operation of a bank ended. -/
def endJob (j : FlashJob) (ok : Bool) (s : State) : State :=
  let s := onRf (fun r => { r with busy := modVec r.busy j.bank (fun _ => none) }) s
  let s := if ok then keepRoom j.bank (afterJob j (setBank j.bank (flashEffect j.what) s)) else afterFailure j s
  startJobs 2 s

/-- RECORD_FLASH_PROGRAM_DONE: a program ends; what waited for its bank may start (13 R359). -/
def execRecordFlashProgramDone (bank : Fin 2) (ok : Bool) (s : State) : Host.Outcome State Fault Refusal :=
  match vecAt s.rf.busy bank.val none with
  | some j => if isErase j.what then .next s else .next (endJob j ok s)
  | none => .next s

/-- RECORD_FLASH_ERASE_DONE: an erase ends; an erase that waited in the other bank may start (13 R359). -/
def execRecordFlashEraseDone (bank : Fin 2) (ok : Bool) (s : State) : Host.Outcome State Fault Refusal :=
  match vecAt s.rf.busy bank.val none with
  | some j => if isErase j.what then .next (endJob j ok s) else .next s
  | none => .next s

/-! ### Host access (13 R364 to R366) -/

/-- The window's data: zeros where the level hides it, else the bank's bytes. -/
def windowWord (s : State) (off : Nat) : Word :=
  let b := off / 0x800000 % 2
  let o := off % 0x800000 / 4 * 4
  if levelHides (level s) o then 0#32 else BitVec.ofNat 32 (leVal (bankWord b (bankAt s b) o))

/-- Whether a read of the window is a bus fault (13 R364). -/
def windowFaults (s : State) (off : Nat) : Bool :=
  let b := off / 0x800000 % 2
  bankBusy s b || (!s.prm.recf.dual && bankBusy s (1 - b))

/-- The bits of a 32-bit register that a set of flipped bits of its 64-bit word changes. -/
def flipped (off : Nat) (flips : List Nat) : Word :=
  flips.foldl (fun w b => let lo := off % 8 / 4 * 32
    if lo ≤ b ∧ b < lo + 32 then w ^^^ (1#32 <<< (b - lo)) else w) 0#32

/-- A read of the window: one 64-bit word read through SEC-DED; `flips` are the flipped bits of its 72 (13 R359, R364, R368). -/
def windowRead (p : Port) (off : Nat) (flips : List Nat) (s : State) : State :=
  if windowFaults s off then
    raise 14 3 0 0 (emit (.abort p) (onRf (fun r => { r with faults := inc 16 r.faults }) s))
  else
    let w := windowWord s off
    if levelHides (level s) (off % 0x800000) ∨ flips.isEmpty then emit (.reg p w) s
    else if flips.length = 1 then emit (.reg p w) (onRf (fun r => { r with corrected := inc 16 r.corrected }) s)
    else raise 14 6 0 0 (emit (.reg p (w ^^^ flipped off flips)) (onRf (fun r => { r with uncorrected := inc 16 r.uncorrected }) s))

/-- RECWIN_READ (13 R364). -/
def execRecwinRead (p : Port) (off : Nat) (flips : List Nat) (s : State) : Host.Outcome State Fault Refusal :=
  if bar2Open s p then .next (windowRead p off flips s) else .next s

/-- A write through the window: discarded (13 R366). -/
def windowWrite (s : State) : State := onRf (fun r => { r with wrIgnored := true }) s

/-- RECWIN_WRITE (13 R366). -/
def execRecwinWrite (p : Port) (_off : Nat) (_v : Word) (s : State) : Host.Outcome State Fault Refusal :=
  if bar2Open s p then .next (windowWrite s) else .next s

/-- HOLD set or cleared; deferred erases start when it clears (13 R365). -/
def setHold (v : Bool) (s : State) : State := startJobs 2 (onRf (fun r => { r with hold := v }) s)

/-- HOLD: a host sets the bit (13 R365). -/
def execHold (p : Port) (s : State) : Host.Outcome State Fault Refusal :=
  if bar2Open s p then .next (setHold true s) else .next s

/-- HOLD_EXPIRY: 100 ms after it was set (13 R365). -/
def execHoldExpiry (s : State) : Host.Outcome State Fault Refusal := .next (setHold false s)

/-- Why a RECF_CMD is refused, in the register's reason codes (13 R366, R369; log entry 37 for their order). -/
def cmdRefusal (s : State) (op bank sector page : Nat) : Option Nat :=
  if s.rf.cmdState = 1 then some 6
  else if s.safe.stopper then some 5
  else if level s ≥ 2 then some 1
  else if sector < 271 ∨ 2047 ≤ sector then some 2
  else if op = 1 ∧ (bankAt s bank).cust.any (fun c => 4096 * sector + 256 * page ≤ c.1 && c.1 < 4096 * sector + 256 * page + 256) then some 3
  else none

/-- A write of RECF_CMD with GO (13 R366). -/
def recfCmd (v : Word) (s : State) : State :=
  let n := v.toNat
  let op := field n 1 0
  let b := field n 2 2
  let sec := field n 13 3
  let page := field n 17 14
  if !bit n 31 || (op ≠ 1 && op ≠ 2) then s
  else match cmdRefusal s op b sec page with
    | some r => cmdEnds r s
    | none =>
      let w : FlashWhat := if op = 1 then .page (4096 * sec + 256 * page) s.rf.page else .eraseSector sec
      flashJob { bank := b, what := w, other := false } (onRf (fun r => { r with cmdState := 1, cmdErr := 0 }) s)

/-- PROGRAM: RECF_CMD writes PAGEBUF into an erased custodian page (13 R366). -/
def execProgram (p : Port) (v : Word) (s : State) : Host.Outcome State Fault Refusal :=
  if bar2Open s p then .next (recfCmd v s) else .next s

/-- ERASE: RECF_CMD erases a custodian sector (13 R366). -/
def execErase (p : Port) (v : Word) (s : State) : Host.Outcome State Fault Refusal :=
  if bar2Open s p then .next (recfCmd v s) else .next s

/-- Whether the device refreshes: in RUN and IDLE, after the gates, no lowering running (13 R367, R372). -/
def mayRefresh (s : State) : Bool := partRuns s 9 && s.boot.gates && s.rf.lstate = 0 && !s.safe.stopper

/-- REFRESH: a sector's programmed pages read: corrected and uncorrectable words counted, ERROR 14.6 for the latter, and a sector with a
corrected word refreshed (13 R359, R367, R368). -/
def execRefresh (bank : Fin 2) (sector corrected uncorrectable : Nat) (s : State) : Host.Outcome State Fault Refusal :=
  if !mayRefresh s || sector ≥ 2047 then .next s
  else
    let s := onRf (fun r => { r with corrected := sat 16 (r.corrected + corrected), uncorrected := sat 16 (r.uncorrected + uncorrectable) }) s
    let s := if uncorrectable > 0 then raise 14 6 0 0 s else s
    if corrected > 0 then .next (refreshStep bank.val sector 0 s) else .next s

/-! ### Levels and pins (13 R362, R369 to R373) -/

/-- A lowering accepted: every Cleat context freed, and BANK_1 erased (13 R371). -/
def beginLower (to_ : Nat) (s : State) : State :=
  let s := onCleat (fun c => { c with ctx := Vector.replicate 16 none }) s
  flashJob { bank := 1, what := .eraseBank false, other := false }
    (onRf (fun r => { r with lstate := 1, lowTo := to_, lowFinish := false, lowTail := false }) s)

/-- A write of LEVEL_CTRL (13 R370, R371, R373). NEW_LEVEL 3 names no level. -/
def levelCtrl (v : Word) (s : State) : State :=
  let new := v.toNat % 4
  let cur := level s
  if new = 3 ∨ new = cur then s
  else if new > cur then (if s.rf.lstate = 0 then flashBoth (.record (newRec s 0x4C new 0 0)) s else s)
  else if v.toNat / 65536 ≠ 0xE5A5 then s
  else if s.safe.stopper ∨ s.rf.lstate ≠ 0 ∨ s.stage.isSome then onRf (fun r => { r with lowRefused := true }) s
  else beginLower new s

/-- LEVEL_RAISE: a level record is written; the level is in force once it is durable in the first bank (13 R370). -/
def execLevelRaise (p : Port) (v : Word) (s : State) : Host.Outcome State Fault Refusal :=
  if bar2Open s p then .next (levelCtrl v s) else .next s

/-- LEVEL_LOWER: a confirmed lowering (13 R371). -/
def execLevelLower (p : Port) (v : Word) (s : State) : Host.Outcome State Fault Refusal :=
  if bar2Open s p then .next (levelCtrl v s) else .next s

/-- A write of PIN_CTRL with PIN_GO: a pin or an unpin record (13 R362); ignored during a lowering (13, coincidences). -/
def pinCtrl (v gen : Word) (s : State) : State :=
  if !v.getLsbD 31 || s.rf.lstate ≠ 0 then s
  else if v.getLsbD 1 then flashBoth (.record (newRec s 0x55 0 0 0)) s
  else flashBoth (.record (newRec s 0x50 (v.toNat % 2) 0 gen.toNat)) s

/-- PIN (13 R362). -/
def execPin (p : Port) (v gen : Word) (s : State) : Host.Outcome State Fault Refusal :=
  if bar2Open s p then .next (pinCtrl v gen (onRf (fun r => { r with pinGen := gen }) s)) else .next s

/-- UNPIN (13 R362). -/
def execUnpin (p : Port) (v : Word) (s : State) : Host.Outcome State Fault Refusal :=
  if bar2Open s p then .next (pinCtrl v s.rf.pinGen s) else .next s

/-! ### The event log (13 R363, 15 R417, R419) -/

/-- The place of the next entry: the position of the log found at a start (13 R363, 15 R419). -/
def loadLog (s : State) : State :=
  let secs := s.rf.banks[0].log ++ s.rf.banks[1].log
  let all := secs.flatMap (fun x => x.2.map (fun e => (x.1, e)))
  let newer (a b : Nat) : Bool := let d := (a + 2 ^ 32 - b) % 2 ^ 32; 1 ≤ d && d < 2 ^ 31
  let top := all.foldl (fun (m : Option (Nat × Entry)) x => match m with
    | none => some x
    | some y => if newer x.2.seq y.2.seq then some x else m) none
  let ready := (List.range 512).filter (fun i => ((kvGet secs i).getD []).isEmpty)
  let s := onRf (fun r => { r with ready := ready }) s
  match top with
  | none => onEvt (fun e => { e with nextSeq := 0 }) (onRf (fun r => { r with logAt := 0 }) s)
  | some (i, e) =>
    let full := ((kvGet secs i).getD []).length ≥ 128
    onEvt (fun x => { x with nextSeq := (e.seq + 1) % 2 ^ 32 }) (onRf (fun r => { r with logAt := if full then logAfter s i else i }) s)

/-- Whether an entry is being written. -/
def entryBusy (s : State) : Bool := (s.rf.queue ++ s.rf.busy.toList.filterMap id).any (fun j => match j.what with
  | .entry .. => true
  | _ => false)

/-- Whether the log can accept an entry: the gates are released, no lowering runs, and the sector being written is erased or begun (13
R363, R372, 15 R417). -/
def logOpen (s : State) : Bool :=
  outwardOpen s && s.rf.lstate = 0 && (loweringOpen s).isNone && !entryBusy s && s.therm.shut.isNone && partRuns s 9 &&
  (has s.rf.ready s.rf.logAt ||
   (let n := ((kvGet (bankAt s (s.rf.logAt % 2)).log s.rf.logAt).getD []).length
    0 < n && n < 128))

/-- The waiting entry that is moved next: a DANGER entry ahead of the others, else the oldest (15 R417). -/
def nextEntry (q : List Entry) : Option Entry := match q.find? (fun e => entryClass e = 3) with
  | some e => some e
  | none => q.head?

/-- The last good image header updated, with INFO 1.12 or NOTICE 1.6 (03 R88, R92). -/
def updateHeader (hdr : List Byte) (s : State) : State :=
  let old := s.boot.genGood
  let g := s.boot.genUsed
  let s := if standingHeader s = none ∨ g ≠ old then headerJobs (firstBank s) hdr true s else s
  if g > old then raise 1 12 g old s
  else if g < old then raise 1 6 g old (onBoot (fun b => { b with rollback := true }) s)
  else s

/-- The second and third acts of R88 once the start-up queue is in the log: the header is stored, and INFO 1.12 or NOTICE 1.6 raised. -/
def afterQueue (s : State) : State := match s.boot.release with
  | some (hdr, n) => if n = 0 ∨ s.evt.queue.isEmpty then updateHeader hdr (onBoot (fun b => { b with release := none }) s) else s
  | none => s

/-- One more entry of the queue is on its way to the log: of those that R88 waits for, one fewer is left. -/
def logMoved (s : State) : State :=
  afterQueue (onBoot (fun b => { b with release := b.release.map (fun x => (x.1, x.2 - 1)) }) s)

/-- EVENT_LOG_WRITE: a waiting entry is moved to the log, with the next SEQ (15 R417, R419); QUEUED where it waited more than 1 s. -/
def execEventLogWrite (s : State) : Host.Outcome State Fault Refusal :=
  match nextEntry s.evt.queue with
  | none => .next s
  | some e =>
    if !logOpen s then .next s
    else
      let x : Entry := { e with seq := s.evt.nextSeq, queued := s.dev.secs > e.secs + 1 }
      let s := onEvt (fun v => { v with
        queue := dropFirst (fun y => decide (y = e)) v.queue, nextSeq := (v.nextSeq + 1) % 2 ^ 32, quiet := s.dev.secs }) s
      .next (logMoved (flashJob { bank := s.rf.logAt % 2, what := .entry s.rf.logAt x, other := false } s))

/-! ### At the release of the gates (13 R361, R367, R372) -/

/-- A record in force that a bank lacks, written into it, with NOTICE 14.9 (13 R361). -/
def copyInto (b : Nat) (w : FlashWhat) (s : State) : State := match w with
  | .header bs => raise 14 9 0 0 (headerJobs b bs false s)
  | w => raise 14 9 0 0 (flashJob { bank := b, what := w, other := false } s)

/-- Every record in force that a bank lacks (13 R361). -/
def lacking (s : State) (b : Nat) : List FlashWhat :=
  let k := bankAt s b
  let recs := ((newestRec (levelRecs s)).toList ++ (refreshRec s).toList ++ (newestRec (s.rf.banks[0].pins ++ s.rf.banks[1].pins)).toList).filter
    (fun r => !(k.level ++ k.pins).any (fun x => decide (x = r)))
  let hdr := match standingHeader s with
    | some h => if k.header = some h then [] else [FlashWhat.header h]
    | none => []
  let keys := ((List.range 16).filterMap (keyEntry s)).filter (fun e => !k.keys.any (fun x => decide (x = e)))
  recs.map FlashWhat.record ++ hdr ++ keys.map FlashWhat.key

/-- The two banks compared (13 R361). -/
def copyMissing (s : State) : State :=
  let l0 := lacking s 0
  let l1 := lacking s 1
  l1.foldl (fun s w => copyInto 1 w s) (l0.foldl (fun s w => copyInto 0 w s) s)

/-- A refresh cut short is repeated from the erase of the sector, NOTICE 14.1 (13 R367). -/
def repeatRefresh (s : State) : State := match refreshOpen s with
  | some r => raise 14 1 0 0 (refreshStep r.arg r.arg2 3 s)
  | none => s

/-- What the release of the gates does in record flash: an open lowering is finished before anything else (13 R372); otherwise the banks
are compared (R361), a refresh is repeated (R367), and the log's next sector is erased (R363). -/
def recAtGates (s : State) : State :=
  match loweringOpen s with
  | some r =>
    flashJob { bank := 0, what := .eraseBank false, other := false }
      (onRf (fun x => { x with lstate := 2, lowTo := min r.arg 2, lowFinish := true, lowTail := false }) s)
  | none => eraseAhead (repeatRefresh (copyMissing s))

end Sys2Proof.Machine
end

