-- ==== Sys2Proof/Machine/Cleat.lean ====
section
/-! DEFINITION. The Cleat engine (13 R377 to R382): context slots, AES and CMAC operations, and saved contexts. -/

namespace Sys2Proof.Machine

open Sys2Proof

/-! ### What refuses a command -/

/-- Verification holds the engine: a copy's block is being verified, or a staged image is read back (13 R378). -/
def verifyHold (s : State) : Bool :=
  (match s.boot.loading with
   | some l => l.waiting
   | none => false) ||
  (match s.stage with
   | some g => g.last.isSome
   | none => false)

def ctxAt (s : State) (slot : Nat) : Option Ctx := vecAt s.cleat.ctx slot none

/-- A slot that belongs to the other controller (13 R379). -/
def ownedByOther (s : State) (p : Port) (slot : Nat) : Bool := match ctxAt s slot with
  | some c => c.owner ≠ p
  | none => false

/-- A command while verification holds the engine: 7h/86h (13 R378). -/
def cleatBusy (h : Hdr) (s : State) : State :=
  answer h 7 0x86 0 (onCleat (fun c => { c with busyRefused := inc 16 c.busyRefused }) s)

/-- A command that the protection level forbids: 7h/87h (13 R369). -/
def cleatLevel (h : Hdr) (s : State) : State :=
  answer h 7 0x87 0 (onCleat (fun c => { c with levelRefused := inc 16 c.levelRefused }) s)

/-- The frame of a Cleat command: a data buffer of another size than its command moves is no command of the device. -/
def cleatCmd (h : Hdr) (sized : Bool) (f : State → State) (s : State) : Host.Outcome State Fault Refusal :=
  if !sized then .fault .illFormed
  else admin h (fun s => if verifyHold s then cleatBusy h s else f s) s

/-- A command that fills a slot: refused where the other controller owns it (13 R379). -/
def onSlot (h : Hdr) (slot : Nat) (f : State → State) (s : State) : State :=
  if slot ≥ 16 ∨ ownedByOther s h.port slot then answer h 0 0x02 0 s else f s

/-- A command that uses a slot: an empty one answers Command Sequence Error (13 R379). -/
def withCtx (h : Hdr) (slot : Nat) (f : Ctx → State → State) (s : State) : State :=
  onSlot h slot (fun s => match ctxAt s slot with
    | some c => f c s
    | none => answer h 0 0x0C 0 s) s

/-- A slot written. -/
def setCtx (slot : Nat) (c : Option Ctx) (s : State) : State :=
  onCleat (fun x => { x with ctx := modVec x.ctx slot (fun _ => c) }) s

/-- AES blocks run for hosts, counted. -/
def ranBlocks (n : Nat) (s : State) : State := onCleat (fun c => { c with hostBlocks := sat 32 (c.hostBlocks + n) }) s

/-- The 16-byte blocks of a buffer. -/
def blocks16 (count : Nat) (buf : List Byte) : List (List Byte) := chunks 16 count buf

/-- BLOCKS after more blocks; a count beyond its 32 bits is a free value (log entry 38). -/
def addBlocks (c : Ctx) (n : Nat) (s : State) : Nat × State :=
  if c.blocks + n < 2 ^ 32 then (c.blocks + n, s)
  else
    let (v, s) := draw s
    (v % 2 ^ 32, s)

/-- A count outside 1 to 256 (13 R380). -/
def badCount (count : Nat) : Bool := count = 0 || count > 256

/-! ### Loading -/

/-- A key loaded into a slot for the issuing controller, the chain cleared; L takes one AES block (13 R377, R380; log entry 38). -/
def loadKey (h : Hdr) (slot source : Nat) (key : List Byte) (s : State) : State :=
  let c : Ctx := { owner := h.port, k256 := key.length = 32, source := source, blocks := 0, chain := zeros 16, key := key }
  answer h 0 0 0 (ranBlocks 1 (setCtx slot (some c) s))

/-- LOAD_STORE: the key of key slot 8 to 15 (13 R380). -/
def execLoadStore (h : Hdr) (slot kslot : Nat) (s : State) : Host.Outcome State Fault Refusal :=
  cleatCmd h true (onSlot h slot (fun s =>
    if kslot < 8 ∨ 15 < kslot then answer h 0 0x02 0 s
    else match slotKey s kslot with
      | some k => loadKey h slot kslot k s
      | none => answer h 0 0x0C 0 s)) s

/-- LOAD_CLEAR: a key from the buffer, at level 0 only (13 R369, R380). -/
def execLoadClear (h : Hdr) (slot : Nat) (key256 : Bool) (buf : List Byte) (s : State) : Host.Outcome State Fault Refusal :=
  cleatCmd h (decide (buf.length = 32)) (fun s =>
    if level s ≥ 1 then cleatLevel h s
    else onSlot h slot (loadKey h slot 0 (if key256 then buf else buf.take 16)) s) s

/-! ### Operations -/

/-- An operation on each block of the buffer, in place (13 R380). -/
def eachBlock (h : Hdr) (slot count : Nat) (buf : List Byte) (f : List Byte → List Byte → List Byte) (s : State) : State :=
  if badCount count then answer h 0 0x02 0 s
  else withCtx h slot (fun c s =>
    let out := ((blocks16 count buf).map (f c.key)).flatten
    answer h 0 0 0 (emit (.bytes h.port h.sq h.cid out) (ranBlocks count s))) s

/-- A buffer of COUNT blocks; a COUNT outside its range is refused before the buffer matters. -/
def sized16 (count : Nat) (buf : List Byte) : Bool := badCount count || buf.length = 16 * count

/-- ENCRYPT (13 R380). -/
def execEncrypt (h : Hdr) (slot count : Nat) (buf : List Byte) (s : State) : Host.Outcome State Fault Refusal :=
  cleatCmd h (sized16 count buf) (eachBlock h slot count buf aesEncrypt) s

/-- DECRYPT (13 R380). -/
def execDecrypt (h : Hdr) (slot count : Nat) (buf : List Byte) (s : State) : Host.Outcome State Fault Refusal :=
  cleatCmd h (sized16 count buf) (eachBlock h slot count buf aesDecrypt) s

/-- CMAC_UPDATE: COUNT blocks absorbed, none of them last (13 R381). -/
def execCmacUpdate (h : Hdr) (slot count : Nat) (buf : List Byte) (s : State) : Host.Outcome State Fault Refusal :=
  cleatCmd h (sized16 count buf) (fun s =>
    if badCount count then answer h 0 0x02 0 s
    else withCtx h slot (fun c s =>
      let (n, s) := addBlocks c count s
      let c' : Ctx := { c with chain := absorb c.key c.chain (blocks16 count buf), blocks := n }
      answer h 0 0 0 (ranBlocks count (setCtx slot (some c') s))) s) s

/-- CMAC_FINAL: COUNT blocks absorbed, the last as last; the tag goes into bytes 0 to 15 of the buffer and the chain is cleared (13
R381). -/
def execCmacFinal (h : Hdr) (slot count : Nat) (padded : Bool) (buf : List Byte) (s : State) : Host.Outcome State Fault Refusal :=
  cleatCmd h (sized16 count buf) (fun s =>
    if badCount count then answer h 0 0x02 0 s
    else withCtx h slot (fun c s =>
      let tag := absorbLast c.key c.chain padded (blocks16 count buf)
      let c' : Ctx := { c with chain := zeros 16, blocks := 0 }
      answer h 0 0 0 (emit (.bytes h.port h.sq h.cid (tag ++ buf.drop 16)) (ranBlocks count (setCtx slot (some c') s)))) s) s

/-- CMAC_RESET: the chain cleared (13 R380). -/
def execCmacReset (h : Hdr) (slot : Nat) (s : State) : Host.Outcome State Fault Refusal :=
  cleatCmd h true (withCtx h slot (fun c s =>
    answer h 0 0 0 (setCtx slot (some { c with chain := zeros 16, blocks := 0 }) s))) s

/-- FREE: the slot emptied (13 R380). -/
def execFree (h : Hdr) (slot : Nat) (s : State) : Host.Outcome State Fault Refusal :=
  cleatCmd h true (withCtx h slot (fun _ s => answer h 0 0 0 (setCtx slot none s))) s

/-! ### Saved contexts (13 R382) -/

/-- The 64-byte plaintext of a context. -/
def ctxPlain (c : Ctx) : List Byte :=
  le 1 1 ++ le 1 (b2n c.k256) ++ le 1 c.source ++ le 1 0 ++ le 4 c.blocks ++ zeros 8 ++ c.chain ++ fit 32 c.key

/-- The context that a plaintext describes, none where it breaks the table. -/
def ctxOfPlain (p : Port) (bs : List Byte) : Option Ctx :=
  let size := rd bs 1 1
  let src := rd bs 2 1
  if rd bs 0 1 = 1 ∧ size ≤ 1 ∧ (src = 0 ∨ (8 ≤ src ∧ src ≤ 15)) ∧ rd bs 3 1 = 0 ∧ allZero (sub bs 8 8) ∧ (size = 1 ∨ allZero (sub bs 48 16)) then
    some { owner := p, k256 := size = 1, source := src, blocks := rd bs 4 4, chain := sub bs 16 16,
           key := sub bs 32 (if size = 1 then 32 else 16) }
  else none

/-- AES operations of one wrap or unwrap of a context (13 R382). -/
def wrapBlocks : Nat := 48

/-- CLEAT_CONTEXT_SAVE: the slot stays loaded (13 R382). -/
def execCleatContextSave (h : Hdr) (slot : Nat) (wrapped : Bool) (s : State) : Host.Outcome State Fault Refusal :=
  cleatCmd h true (fun s =>
    if !wrapped && level s ≥ 1 then cleatLevel h s
    else withCtx h slot (fun c s =>
      if wrapped then answer h 0 0 0 (emit (.bytes h.port h.sq h.cid (keyWrap contextKeyBytes (ctxPlain c))) (ranBlocks wrapBlocks s))
      else answer h 0 0 0 (emit (.bytes h.port h.sq h.cid (ctxPlain c ++ zeros 8)) s)) s) s

/-- A restore refused: 0h/02h and NOTICE 14.11 (13 R382). -/
def restoreRefused (h : Hdr) (s : State) : State :=
  raise 14 11 0 0 (answer h 0 0x02 0 (onCleat (fun c => { c with unwrapFailed := inc 16 c.unwrapFailed }) s))

/-- The plaintext of a restore: unwrapped, or the clear form with its eight zero bytes. -/
def restorePlain (wrapped : Bool) (buf : List Byte) : Option (List Byte) :=
  if wrapped then keyUnwrap contextKeyBytes buf
  else if allZero (buf.drop 64) then some (buf.take 64) else none

/-- CLEAT_CONTEXT_RESTORE: the slot goes to the issuing controller (13 R382). -/
def execCleatContextRestore (h : Hdr) (slot : Nat) (wrapped : Bool) (buf : List Byte) (s : State) : Host.Outcome State Fault Refusal :=
  cleatCmd h (decide (buf.length = 72)) (fun s =>
    if !wrapped && level s ≥ 1 then cleatLevel h s
    else onSlot h slot (fun s =>
      let s := if wrapped then ranBlocks wrapBlocks s else s
      match (restorePlain wrapped buf).bind (ctxOfPlain h.port) with
      | some c => answer h 0 0 0 (ranBlocks 1 (setCtx slot (some c) s))
      | none => restoreRefused h s) s) s

end Sys2Proof.Machine
end

