-- ==== Sys2Proof/Machine/Admin.lean ====
section
/-! DEFINITION. Admin commands (04 R102 to R117): queues, log pages, Identify, Abort, asynchronous event requests, Keep Alive, and the
opcodes the device does not support. Offsets within NVMe's own structures, and NVMe's own status codes, are PRESUMED (log entry 39). -/

namespace Sys2Proof.Machine

open Sys2Proof

/-- The frame of the three admin commands that the no-image state keeps (03 R93). -/
def adminAny (h : Hdr) (f : State → State) (s : State) : Host.Outcome State Fault Refusal :=
  if !fetchAdmin s h then .next s else .next (f (acceptAdmin h s))

/-! ### Dropping a host's commands (04 R126) -/

/-- The key of the command that an extent belongs to. -/
def ownerKey (e : Extent) : Option Nat := match e.origin with
  | .host k => some k
  | _ => none

/-- Extents of dropped commands: one with a durable INTENT record goes on to the medium with nobody waiting, one without is dropped and its
tokens are free at once (01 R27, 04 R126). -/
def dropExts (keys : List Nat) (s : State) : State :=
  onExts (fun l => (l.filter (fun e => match ownerKey e with
    | some k => !has keys k || e.durable
    | none => true)).map (fun e => match ownerKey e with
    | some k => if has keys k then { e with origin := .dropped } else e
    | none => e)) s

/-- Commands dropped: their completions are discarded (04 R126). -/
def dropCmds (p : HostCmd → Bool) (s : State) : State :=
  let keys := (s.cmds.filter p).map (fun c => c.key)
  dropExts keys (onCmds (fun l => l.filter (fun c => !p c)) s)

/-! ### Queues (04 R108) -/

/-- An aborted command's completion; the Write of a fused pair ends with it (04 R113). -/
def endAborted (sc : Nat) (c : HostCmd) (s : State) : State :=
  let s := post c.port c.sq c.cid 0 sc 0 s
  match c.kind with
  | .fused _ w => post c.port c.sq w.cid 0 0x09 0 s
  | _ => s

/-- Entries of an I/O queue at most: IOQ_DEPTH, at most 4096 (04 R105). -/
def ioqDepth (s : State) : Nat := match s.prm.host with
  | some x => min x.ioqDepth 4096
  | none => min Config.noImageDepth 4096

/-! ### Controller registers (04 R105) -/

/-- The registers of BAR0 that the device gives a value (04 R105), at the offsets of NVMe (PRESUMED, log entry 39): CAP, VS, the enable of CC, CSTS
and AQA. CAP.TO is 60, that is 30 s (03 R61). -/
def ctlReg (s : State) (p : Port) (off : Nat) : Option Nat :=
  let c := s.ctl.get p
  match off with
  | 0x00 => some (pack [(0, ioqDepth s - 1), (16, 1), (24, 60)])
  | 0x04 => some (pack [(5, 1)])
  | 0x08 => some 0x00020000
  | 0x14 => some (pack [(0, b2n c.en)])
  | 0x1C => some (pack [(0, b2n c.rdy), (1, b2n c.cfs)])
  | 0x24 => some (pack [(0, c.asqs), (16, c.acqs)])
  | _ => none

/-- The granted count of I/O queues: Number of Queues as set, else IOQ_PAIRS. -/
def granted (s : State) (p : Port) : Nat :=
  let q := (s.ctl.get p).feat.queues
  if q = 0 then ioqPairs s else q

/-- Queue sizes are 0-based: an entry count of 2 to IOQ_DEPTH. -/
def badSize (s : State) (qsize : Nat) : Bool := qsize = 0 || qsize + 1 > ioqDepth s

/-- DELETE_IO_SUBMISSION_QUEUE (04 R102): its outstanding commands end with Command Aborted due to SQ Deletion. -/
def execDeleteIoSubmissionQueue (h : Hdr) (qid : Nat) (s : State) : Host.Outcome State Fault Refusal :=
  admin h (fun s =>
    let c := s.ctl.get h.port
    if qid = 0 ∨ ¬ c.sqs.any (fun q => q.qid = qid) then answer h 1 0x01 0 s
    else
      let mine (d : HostCmd) : Bool := d.port = h.port && d.sq = qid
      let s := (s.cmds.filter mine).foldl (fun s d => endAborted 0x08 d s) s
      answer h 0 0 0 (setCtl h.port (fun c => { c with sqs := c.sqs.filter (fun q => q.qid ≠ qid) }) (settleReads (dropCmds mine s)))) s

/-- CREATE_IO_SUBMISSION_QUEUE (04 R102, R108). -/
def execCreateIoSubmissionQueue (h : Hdr) (qid qsize cqid : Nat) (pc : Bool) (s : State) : Host.Outcome State Fault Refusal :=
  admin h (fun s =>
    let c := s.ctl.get h.port
    if qid = 0 ∨ qid > granted s h.port ∨ c.sqs.any (fun q => q.qid = qid) then answer h 1 0x01 0 s
    else if badSize s qsize then answer h 1 0x02 0 s
    else if cqid = 0 ∨ ¬ c.cqs.any (fun q => q.qid = cqid) then answer h 1 0x00 0 s
    else if !pc then answer h 0 0x02 0 s
    else
      let q : Sq := { qid := qid, size := qsize + 1, cqid := cqid, head := 0, tail := 0 }
      answer h 0 0 0 (setCtl h.port (fun c => { c with sqs := c.sqs ++ [q] }) s)) s

/-- DELETE_IO_COMPLETION_QUEUE (04 R102): not while a submission queue uses it. -/
def execDeleteIoCompletionQueue (h : Hdr) (qid : Nat) (s : State) : Host.Outcome State Fault Refusal :=
  admin h (fun s =>
    let c := s.ctl.get h.port
    if qid = 0 ∨ ¬ c.cqs.any (fun q => q.qid = qid) then answer h 1 0x01 0 s
    else if c.sqs.any (fun q => q.cqid = qid) then answer h 1 0x0C 0 s
    else answer h 0 0 0 (setCtl h.port (fun c => { c with cqs := c.cqs.filter (fun q => q.qid ≠ qid) }) s)) s

/-- CREATE_IO_COMPLETION_QUEUE (04 R102, R108). -/
def execCreateIoCompletionQueue (h : Hdr) (qid qsize iv : Nat) (ien pc : Bool) (s : State) : Host.Outcome State Fault Refusal :=
  admin h (fun s =>
    let c := s.ctl.get h.port
    if qid = 0 ∨ qid > granted s h.port ∨ c.cqs.any (fun q => q.qid = qid) then answer h 1 0x01 0 s
    else if badSize s qsize then answer h 1 0x02 0 s
    else if iv ≥ msixCount s then answer h 1 0x08 0 s
    else if !pc then answer h 0 0x02 0 s
    else
      let q : Cq := { qid := qid, size := qsize + 1, iv := iv, ien := ien }
      answer h 0 0 0 (setCtl h.port (fun c => { c with cqs := c.cqs ++ [q] }) s)) s

/-! ### Identify (04 R105, R106) -/

/-- ASCII spaces after a string, to a length. -/
def padText (n : Nat) (bs : List Byte) : List Byte := (bs ++ List.replicate n 0x20#8).take n

/-- An upper-case hexadecimal digit in ASCII. -/
def hexDigit (n : Nat) : Byte := BitVec.ofNat 8 (if n < 10 then 0x30 + n else 0x37 + n)

/-- A generation as eight upper-case hexadecimal digits (03 R79). -/
def hexGen (g : Nat) : List Byte := (List.range 8).map (fun i => hexDigit (g / 16 ^ (7 - i) % 16))

/-- The five power states (11 R309): maximum power, entry latency, exit latency, non-operational. -/
def powerDescs : List (Nat × Nat × Nat × Bool) :=
  [(4200, 0, 0, false), (4200, 10, 10, false), (400, 200, 500, true), (50, 5000, 20000, true), (1, 2000000, 20000000, true)]

/-- A power state descriptor of 32 bytes. -/
def powerDesc (d : Nat × Nat × Nat × Bool) : List Byte :=
  fit 32 (le 2 d.1 ++ le 1 0 ++ le 1 (2 * b2n d.2.2.2) ++ le 4 d.2.1 ++ le 4 d.2.2.1)

/-- The HOST section's values as Identify shows them; in the no-image state only the subsystem identifiers are given (04 R101). -/
def hostView (s : State) : HostSec := s.prm.host.getD
  { ssvid := Config.vendorId, ssid := Config.deviceId, sn := [], mdts := 0, msix := 1, ioqPairs := 1, ioqDepth := Config.noImageDepth, aerLimit := 1,
    subnqn := [] }

/-- The Identify Controller structure (04 R105). -/
def identifyCtrl (s : State) (p : Port) : List Byte :=
  let x := hostView s
  let i := s.prm.identity
  layOut 4096
    [(0, le 2 Config.vendorId), (2, le 2 x.ssvid), (4, padText 20 x.sn), (24, padText 40 (match i with
       | some i => i.model
       | none => [])),
     (64, hexGen s.boot.genUsed), (73, fit 3 (match i with
       | some i => i.oui
       | none => [])),
     (76, le 1 (if dualPort s then 3 else 0)), (77, le 1 x.mdts), (78, le 2 (ctrlNo p)), (80, le 4 0x00020000), (96, le 4 1),
     (111, le 1 1), (258, le 1 3), (259, le 1 (x.aerLimit - 1)), (260, le 1 5), (261, le 1 6), (262, le 1 63), (263, le 1 4),
     (320, le 2 1), (512, le 1 0x66), (513, le 1 0x44), (516, le 4 32), (520, le 2 0xBD), (522, le 2 1),
     (525, le 1 (b2n (s.prm.namespaces.any (fun n => n.ack)))), (531, le 1 3), (768, fit 256 x.subnqn),
     (2048, (powerDescs.map powerDesc).flatten)]

/-- The Identify Namespace structure (04 R106); NSATTR is 1 while writes to the namespace are refused (14 R394). -/
def identifyNs (s : State) (n : NsEntry) : List Byte :=
  layOut 4096
    [(0, le 8 n.size), (8, le 8 n.size), (16, le 8 (nsMapped s n)), (27, le 1 (if n.metaOn then 2 else 0)),
     (30, le 1 (b2n (dualPort s))), (31, le 1 0xFF), (33, le 1 9), (99, le 1 (b2n (s.safe.stopper || protectedNs s n))),
     (104, fit 16 n.nguid), (128, le 2 (if n.metaOn then 64 else 0)), (130, le 1 12)]

/-- Active namespace identifiers above a given one. -/
def nsList (s : State) (nsid : Nat) : List Byte :=
  fit 4096 ((sortBy id ((s.prm.namespaces.map (fun n => n.nsid)).filter (fun n => n > nsid))).flatMap (le 4))

/-- The namespace identification descriptor list: the NGUID, type 2, and the I/O command set, type 4. -/
def nsDescs (n : NsEntry) : List Byte := fit 4096 (le 1 2 ++ le 1 16 ++ le 2 0 ++ fit 16 n.nguid ++ le 1 4 ++ le 1 1 ++ le 2 0 ++ le 1 0)

/-- The controllers of the subsystem from an identifier on. -/
def ctrlList (s : State) (from_ : Nat) : List Byte :=
  let cs := (if dualPort s then [1, 2] else [1]).filter (fun c => c ≥ from_)
  fit 4096 (le 2 cs.length ++ cs.flatMap (le 2))

/-- A structure about one namespace: zeros for an identifier that names none here, 0h/0Bh beyond NN. -/
def aboutNs (s : State) (nsid : Nat) (f : NsEntry → List Byte) : Option (List Byte) :=
  if nsid = 0 ∨ nsid > 32 then none
  else match nsOf s nsid with
    | some n => some (f n)
    | none => some (zeros 4096)

/-- The structure that a CNS value asks for. -/
def identifyData (s : State) (p : Port) (cns nsid cntid : Nat) : Option (List Byte) :=
  match cns with
  | 0x00 => aboutNs s nsid (identifyNs s)
  | 0x01 => some (identifyCtrl s p)
  | 0x02 => if nsid ≥ 0xFFFFFFFE then none else some (nsList s nsid)
  | 0x03 => (nsOf s nsid).map nsDescs
  | 0x05 => aboutNs s nsid (fun _ => zeros 4096)
  | 0x06 => some (zeros 4096)
  | 0x11 => aboutNs s nsid (identifyNs s)
  | 0x12 => (nsOf s nsid).map (fun _ => ctrlList s cntid)
  | 0x13 => some (ctrlList s cntid)
  | _ => none

/-- IDENTIFY: the structures of CNS 00h, 01h, 02h, 03h, 05h, 06h, 11h, 12h and 13h (04 R102, R105, R106). -/
def execIdentify (h : Hdr) (cns nsid cntid : Nat) (s : State) : Host.Outcome State Fault Refusal :=
  adminAny h (fun s =>
    if !has [0, 1, 2, 3, 5, 6, 0x11, 0x12, 0x13] cns then answer h 0 0x02 0 s
    else match identifyData s h.port cns nsid cntid with
      | some bs => answer h 0 0 0 (emit (.bytes h.port h.sq h.cid bs) s)
      | none => answer h 0 0x0B 0 s) s

/-! ### Log pages (04, log pages; R107, R116, R117) -/

/-- n free bytes (log entry 7). -/
def anyBytes (n : Nat) (s : State) : List Byte × State :=
  let (v, s) := draw s
  (le n v, s)

/-- Log page 01h: up to 64 entries, newest first. What the spec leaves to NVMe is free. -/
def errorPage (s : State) (p : Port) : List Byte × State :=
  let c := s.ctl.get p
  let r := c.errLog.foldl (fun (acc : List Byte × Nat × State) e =>
    let (bs, n, s) := acc
    let (f, s) := anyBytes 50 s
    (bs ++ le 8 n ++ le 2 e.1 ++ le 2 e.2.1 ++ le 2 (2 * e.2.2.2 + 512 * e.2.2.1) ++ f, n - 1, s)) ([], c.errors, s)
  (fit 4096 r.1, r.2.2)

/-- A temperature in kelvin, from units of 0.0625 °C, rounded to the nearest. -/
def kelvin (t : Int) : Nat := ((t + 4378) / 16).toNat

/-- Log page 02h (04 R107). NVMe's counters, which the spec does not define, are free. -/
def smartPage (s : State) : List Byte × State :=
  let (f, s) := anyBytes 200 s
  (le 1 (criticalWarning s).toNat ++ le 2 (kelvin (composite s)) ++ le 1 (availableSpare s) ++ le 1 1 ++ le 1 (min 255 (percentUsed s)) ++
    zeros 26 ++ f ++ zeros 280, s)

/-- Log page 03h: the copy in use, and the generation of each copy (04 R105). A copy that holds no valid header shows zeros. -/
def firmwarePage (s : State) : List Byte :=
  let slot (i : Nat) : List Byte := hexGen (nth s.boot.genCopy i 0)
  layOut 512 [(0, le 1 (if s.boot.noImage then 0 else s.boot.copy + 1)), (8, slot 0), (16, slot 1)]

/-- Supported admin opcodes (04 R102). -/
def adminOpcodes : List Nat := [0x00, 0x01, 0x02, 0x04, 0x05, 0x06, 0x08, 0x09, 0x0A, 0x0C, 0x18, 0xC1, 0xC3, 0xC5, 0xC6, 0xC8, 0xCA, 0xCC]

/-- Supported I/O opcodes (04 R103). -/
def ioOpcodes : List Nat := [0x00, 0x01, 0x02, 0x05, 0x08, 0x09, 0x0C, 0x0D, 0x0E, 0x11, 0x15]

/-- Log page 05h: bit 0 of an opcode's dword says that it is supported; the effects of a supported one are free. -/
def effectsPage (s : State) : List Byte × State :=
  let dword (ops : List Nat) (acc : List (List Byte) × State) (i : Nat) : List (List Byte) × State :=
    if has ops i then
      let (v, s) := draw acc.2
      (le 4 (2 * v + 1) :: acc.1, s)
    else (zeros 4 :: acc.1, acc.2)
  let (a, s) := (List.range 256).foldl (dword adminOpcodes) ([], s)
  let (b, s) := (List.range 256).foldl (dword ioOpcodes) ([], s)
  (fit 4096 (a.reverse.flatten ++ b.reverse.flatten), s)

/-- Log page 80h: the oldest reservation notification; the page count is free. -/
def resvPage (s : State) (p : Port) : List Byte × State :=
  match (s.ctl.get p).resvLog with
  | [] => (zeros 64, s)
  | (t, n) :: rest =>
    let (c, s) := anyBytes 8 s
    (layOut 64 [(0, c), (8, le 1 t), (9, le 1 (min 255 rest.length)), (12, le 4 n)], s)

/-- Bit n − 1 for namespace n. -/
def nsBits (l : List Nat) : Nat := sumN (l.map (fun n => 2 ^ (n - 1)))

/-- Log page C1h (04 R117). -/
def deferredPage (c : Ctl) : List Byte :=
  le 2 c.c1.length ++ zeros 2 ++ le 4 (sat 32 c.dropped) ++ le 4 (nsBits c.pend) ++ zeros 20 ++
  c.c1.flatMap (fun e => le 4 e.nsid ++ le 1 e.cause ++ le 1 e.nlb ++ zeros 2 ++ le 8 e.slba ++ le 8 e.seq ++ le 6 e.seconds ++ zeros 2)

/-- A log page's bytes; none for a page the device does not have. -/
def logPage (s : State) (p : Port) (lid : Nat) : Option (List Byte × State) :=
  match lid with
  | 0x01 => some (errorPage s p)
  | 0x02 => some (smartPage s)
  | 0x03 => some (firmwarePage s, s)
  | 0x05 => some (effectsPage s)
  | 0x0C => some (zeros 4096, s)
  | 0x80 => some (resvPage s p)
  | 0xC1 => some (deferredPage (s.ctl.get p), s)
  | 0xC2 => some (logC2 s, s)
  | 0xC3 => some (logC3 s, s)
  | _ => none

/-- The log page of a masked asynchronous event (15 R413). -/
def maskPage (m : Nat × Nat) : Nat :=
  if m = (7, 0x81) then 0xC1 else if m.1 = 7 then 0xC3 else if m.1 = 6 then 0x80 else 0x02

/-- A read with RAE 0 ends the masking of the events of its page (15 R413, R420). -/
def unmask (p : Port) (lid : Nat) (s : State) : State :=
  setCtl p (fun c => { c with aenMask := c.aenMask.filter (fun m => maskPage m ≠ lid) }) s

/-- The record number below which a clearing takes every DEFERRED record: above the copies that carry-forward has in flight, and not above the first
new one, whose entry comes after the read (04 R116, 05 R137). -/
def clearTo (s : State) : Nat :=
  (ahead s).foldl (fun n r => match r.body with
    | .deferred .. => if r.carried then n else min n r.recno
    | _ => n) (s.jrnl.next + s.jrnl.waiting.length)

/-- The clearing of C1h on a controller (04 R116): its entries, DROPPED and pending marks, then the DEFERRED_STATE record, whose
durability completes the command (04, deferred-error sequence; 05 R130). A journal that is sealed or does not run takes no record, and the command
completes at once (05 R139, 14 R395; log entry 62). -/
def clearDeferred (h : Hdr) (s : State) : State :=
  let old := clearedUpTo s
  let s := setCtl h.port (fun c => { c with c1 := [], dropped := 0, pend := [] }) s
  let upTo := clearTo s
  let (a, b) := if h.port = .a then (upTo, old.2) else (old.1, upTo)
  if journalOpen s then
    recordFor h .clearLog 0 0 (.deferredState (BitVec.ofNat 32 (nsBits s.ctl.a.pend)) (BitVec.ofNat 32 (nsBits s.ctl.b.pend))
      s.ctl.a.dropped s.ctl.b.dropped a b) s
  else answer h 0 0 0 s

/-- Get Log Page on its accepted state; a transfer beyond MDTS is refused (04 R109). Bytes beyond the page are not returned (log entry 39). -/
def logPageCmd (h : Hdr) (lid lpo len : Nat) (rae : Bool) (s : State) : State :=
  match logPage s h.port lid with
  | none => answer h 1 0x09 0 s
  | some (bs, s) =>
    if s.prm.host.isSome ∧ len > 2 ^ mdts s * 4096 then answer h 0 0x02 0 s
    else if lid = 0xC3 ∧ lpo % 32 ≠ 0 then answer h 0 0x02 0 s
    else if lpo > bs.length then answer h 0 0x02 0 s
    else
      let s := emit (.bytes h.port h.sq h.cid (sub bs lpo len)) s
      let s := if rae then s else unmask h.port lid s
      if lid = 0xC1 ∧ ¬ rae ∧ lpo = 0 ∧ len ≥ 32 + 32 * (s.ctl.get h.port).c1.length then clearDeferred h s
      else if lid = 0x80 ∧ ¬ rae then answer h 0 0 0 (setCtl h.port (fun c => { c with resvLog := c.resvLog.drop 1 }) s)
      else answer h 0 0 0 s

/-- GET_LOG_PAGE (04 R116, R117; 15 R420). -/
def execGetLogPage (h : Hdr) (lid lpo len : Nat) (rae : Bool) (s : State) : Host.Outcome State Fault Refusal :=
  adminAny h (logPageCmd h lid lpo len rae) s

/-! ### Abort (04 R109) -/

/-- Whether a command has an intent record, a media operation, or another record it waits for. -/
def underWay (s : State) (c : HostCmd) : Bool :=
  c.waitRec.isSome || s.exts.any (fun e => ownerKey e = some c.key && e.recno.isSome) ||
  s.media.reads.any (fun r => r.wants.any (fun w => decide (w.reader = .cmd c.key))) ||
  (match c.kind with
   | .stageLast => true
   | _ => false)

/-- ABORT: a command with neither an intent record nor a media operation ends with Command Abort Requested, and its tokens are free; any
other is not aborted, bit 0 of Dword 0 (04 R109). -/
def execAbort (h : Hdr) (sqid cid : Nat) (s : State) : Host.Outcome State Fault Refusal :=
  admin h (fun s =>
    match s.cmds.find? (fun c => c.port = h.port && c.sq = sqid && c.cid = cid && c.live) with
    | some c =>
      if underWay s c then answer h 0 0 1 s
      else answer h 0 0 0 (settleReads (endAborted 0x07 c (dropCmds (fun d => d.key = c.key) s)))
    | none =>
      if sqid = 0 ∧ has (s.ctl.get h.port).aers cid then
        answer h 0 0 0 (post h.port 0 cid 0 0x07 0 (setCtl h.port (fun c => { c with aers := c.aers.filter (fun a => a ≠ cid) }) s))
      else answer h 0 0 1 s) s

/-! ### Asynchronous events and Keep Alive -/

/-- Outstanding Asynchronous Event Requests at most. -/
def aerLimit (s : State) : Nat := (hostView s).aerLimit

/-- The oldest waiting event that is not masked. -/
def waitingAen (c : Ctl) : Option Aen := c.aenWait.find? (fun a => !c.aenMask.any (sameAen a))

/-- ASYNCHRONOUS_EVENT_REQUEST: a waiting event completes it; else it stays outstanding (15 R413). -/
def execAsynchronousEventRequest (h : Hdr) (s : State) : Host.Outcome State Fault Refusal :=
  admin h (fun s =>
    let c := s.ctl.get h.port
    if c.aers.length ≥ aerLimit s then answer h 1 0x05 0 s
    else match waitingAen c with
      | some a =>
        answer h 0 0 (aenDw0 a) (setCtl h.port (fun c => { c with
          aenWait := dropFirst (fun w => decide (w = a)) c.aenWait, aenMask := (a.type, a.info) :: c.aenMask }) s)
      | none => setCtl h.port (fun c => { c with aers := c.aers ++ [h.cid] }) s) s

/-- KEEP_ALIVE: restarts the timer, whose expiry is a command of its own (log entry 3). -/
def execKeepAlive (h : Hdr) (s : State) : Host.Outcome State Fault Refusal := admin h (answer h 0 0 0) s

/-- KEEP_ALIVE_EXPIRY: CSTS.CFS is set, the queues stop, and R126 applies to the writes: ERROR 2.8 or 3.8 (04, coincidences; 15 R415). -/
def execKeepAliveExpiry (p : Port) (s : State) : Host.Outcome State Fault Refusal :=
  let c := s.ctl.get p
  if c.en && c.rdy && c.feat.kato ≠ 0 && !c.cfs then
    .next (raise (hostGroup p) 8 0 0 (settleReads (dropCmds (fun d => d.port = p) (setCtl p (fun c => { c with cfs := true }) s))))
  else .next s

/-- INVALID_COMMAND_OPCODE: 0h/01h (04 R102, R103; 03 R93). An opcode of the tables, sent on the queue of its table, is not this command. -/
def execInvalidCommandOpcode (h : Hdr) (opcode : Nat) (s : State) : Host.Outcome State Fault Refusal :=
  if h.sq = 0 then
    if !fetchAdmin s h || (has adminOpcodes opcode && (adminOk s || has [0x02, 0x06, 0xC1] opcode)) then .next s else .next (answer h 0 0x01 0 (acceptAdmin h s))
  else if !fetchIo s h || has ioOpcodes opcode then .next s
  else .next (answer h 0 0x01 0 (acceptIo h s))

end Sys2Proof.Machine
end

