-- ==== Sys2Proof/Machine/Events.lean ====
section
/-! DEFINITION. The commands on event status and routing, and the time mark (15 R407, R409, R422). -/

namespace Sys2Proof.Machine

open Sys2Proof

/-- Status bits cleared by a write of 1 (15 R407). -/
def clearStatus (g : Nat) (v : Word) (s : State) : State :=
  onEvt (fun e => { e with status := modVec e.status g (fun w => w &&& ~~~ v) }) s

/-- EVT_STATUS_CLEAR: a write of 1 clears the bit for every reader (15 R407); ALERT_N follows, since its level is computed
from the status (15 R410). -/
def execEvtStatusClear (g : Fin 16) (v : Word) (s : State) : Host.Outcome State Fault Refusal :=
  .next (clearStatus g.val v s)

/-- What a routing register takes of a write: reserved events stay 0, and the LOG bits of ERROR and DANGER events stay 1
(15 R409). -/
def routeValue (r : Route) (g : Nat) (v : Word) : Word :=
  if r = .log then (v &&& definedMask g) ||| severeMask g else v &&& definedMask g

/-- A routing register written (15 R409). -/
def setRoute (r : Route) (g : Nat) (v : Word) (s : State) : State :=
  let w := routeValue r g v
  onEvt (fun e => match r with
    | .log => { e with log := modVec e.log g (fun _ => w) }
    | .msix => { e with msix := modVec e.msix g (fun _ => w) }
    | .aen => { e with aen := modVec e.aen g (fun _ => w) }
    | .alert => { e with alert := modVec e.alert g (fun _ => w) }
    | .smbalert => { e with smb := modVec e.smb g (fun _ => w) }) s

/-- ROUTING_WRITE: a routing register takes a host's write (15 R409); ALERT_N follows at once. -/
def execRoutingWrite (r : Route) (g : Fin 16) (v : Word) (s : State) : Host.Outcome State Fault Refusal :=
  .next (setRoute r g.val v s)

/-- TIME_MARK: INFO 1.13 once no log entry has been written for 6 h since the last entry or the release of the gates
(15 R422); while a time mark waits in the queue no other is raised. -/
def execTimeMark (s : State) : Host.Outcome State Fault Refusal :=
  if s.boot.gates && s.dev.secs ≥ s.evt.quiet + 21600 && !s.evt.queue.any (fun e => e.g = 1 && e.bit = 13) then
    .next (raise 1 13 0 0 s)
  else .next s

/-- What the release of the gates does with events raised before it, in one group (15 R414). -/
def releaseGroup (s : State) (g : Nat) : State :=
  let st := vecAt s.evt.status g 0#32
  let s := if st &&& vecAt s.evt.smb g 0#32 ≠ 0#32 ∧ ¬ s.smb.off then onEvt (fun e => { e with smbAlert := true }) s else s
  let s := if st &&& vecAt s.evt.msix g 0#32 ≠ 0#32 then
      signal .b (groupVector .b g s) (signal .a (groupVector .a g s) s) else s
  (List.range 32).foldl (fun s b =>
    if (st &&& vecAt s.evt.aen g 0#32).getLsbD b then postAen .b (aenOf g b) (postAen .a (aenOf g b) s) else s) s

/-- The edge outputs at the release of the gates (15 R414). -/
def releaseEdges (s : State) : State := (List.range 16).foldl releaseGroup s

end Sys2Proof.Machine
end

