-- ==== Sys2Proof/Machine/Link.lean ====
section
/-! DEFINITION. The receiving side of the Yeldo link (09): acceptance, acknowledgement and replay (R248 to R252), the handshake
(R253 to R256), tie-off and the stale mark (R258 to R260), waking (R261 to R264) and tie-off notices (R265). -/

namespace Sys2Proof.Machine

open Sys2Proof

/-! ### Credits and acknowledgements -/

/-- Whether Yeldo frames flow: host ready reached, and the peer ports not stopped (09 R253, R261). -/
def framesFlow (s : State) : Bool := s.boot.hostReady && s.ps.state ≤ 1

/-- Whether a link carries sequenced frames. -/
def carries (k : Link) : Bool := match k.state with
  | .up => true
  | .notified => true
  | _ => false

/-- A received GRANT field added to the balances (09 R246). -/
def takeGrants (g : Vector (BitVec 12) 4) (k : Link) : Link :=
  { k with vcs := Vector.ofFn fun i =>
      let v := k.vcs[i]
      let d := (g[i] - v.lastGrant).toNat
      { v with balance := v.balance + d, granted := v.granted + d, lastGrant := g[i] } }

/-- Whether an ACK value lies in the window of unacknowledged frames (09 R256). -/
def ackInWindow (k : Link) (a : BitVec 24) : Bool := (a - (txOldest k - 1#24)).toNat ≤ k.sent.length

/-- The number of entries that an ACK value covers. -/
def ackCovers (k : Link) (a : BitVec 24) : Nat := (a - (txOldest k - 1#24)).toNat

/-- One round-trip sample, in ns, which the spec leaves to the wire: a free value (09 R251, log entry 7). -/
def sampleOne (p : Port) (l : Nat) (s : State) : State :=
  let (x, s) := draw s
  let x := x % 2 ^ 20
  setLink p l (fun k =>
    let srtt := if k.samples = 0 then x else (7 * k.srtt + x) / 8
    let n := min 16 (k.samples + 1)
    { k with srtt := srtt, samples := n, timeout := if n < 16 then 100 else max 20 (min 1000 (4 * srtt / 1000)) }) s

/-- Replay entries freed up to an ACK value (09 R250): credit consumed, round trips sampled, and the counts of replays without progress
at zero (R252). An acknowledged sleep notice is noted (R266). -/
def freeAcked (p : Port) (l : Nat) (a : BitVec 24) (s : State) : State :=
  match linkBy s p l with
  | none => s
  | some k =>
    let n := ackCovers k a
    if n = 0 then s
    else
      let done := k.sent.take n
      let s := setLink p l (fun k => { k with
        sent := k.sent.drop n, noGain := 0, resentTo := none,
        notice := if done.any (fun e => k.notice = some e.seq) then none else k.notice,
        vcs := done.foldl (fun vs e =>
          if e.due then vs else modVec vs e.vc (fun x => { x with consumed := x.consumed + e.credit })) k.vcs }) s
      (done.filter (fun e => !e.resent)).foldl (fun s _ => sampleOne p l s) s

/-- The ACK and GRANT fields of a received frame. An ACK outside the window is a protocol violation (09 R256): none. -/
def takeAck (f : Frm) (s : State) : Option State :=
  match linkBy s f.port f.link with
  | none => some s
  | some k =>
    if !ackInWindow k f.ack then none
    else some (pumpAll f.port f.link (freeAcked f.port f.link f.ack (setLink f.port f.link (takeGrants f.grant) s)))

/-- NOTICE of a port, at most once per second. -/
def portNotice (p : Port) (b a0 a1 : Nat) (s : State) : State := raiseEvery (evKey (peerGroup p) b) 1 (peerGroup p) b a0 a1 s

/-- Go-back-N replay from the oldest entry: NOTICE g.3, and after 8 replays without progress a full link reset (09 R250 to R252). -/
def goBack (p : Port) (l : Nat) (s : State) : State :=
  match linkBy s p l with
  | none => s
  | some k =>
    if k.sent.isEmpty ∨ k.stopTx ∨ k.state ≠ .up then s
    else if k.noGain ≥ 8 then resetLink p l false s
    else
      let s := setLink p l (fun k => { k with noGain := k.noGain + 1, replays := inc 32 k.replays, resentTo := some (txOldest k) }) s
      let s := (k.sent.filter (fun e => !e.due)).foldl (resendOne p l) s
      portNotice p 3 l (nodeLow s k.entry) s

/-- ACK: frees replay entries and adds granted credit (09 R246, R250). -/
def execAck (f : Frm) (s : State) : Host.Outcome State Fault Refusal :=
  match linkBy s f.port f.link with
  | none => .next s
  | some k =>
    if !framesFlow s || !carries k then .next s
    else match takeAck f s with
      | some s => .next (settle (dualCheck s))
      | none => .next (resetLink f.port f.link true s)

/-- NAK: frees entries as an ACK does, then every later entry is sent again, unless it has been since the last progress (09 R250). -/
def execNak (f : Frm) (s : State) : Host.Outcome State Fault Refusal :=
  match linkBy s f.port f.link with
  | none => .next s
  | some k =>
    if !framesFlow s || !carries k then .next s
    else match takeAck f s with
      | none => .next (resetLink f.port f.link true s)
      | some s => match linkBy s f.port f.link with
        | some k => if k.resentTo = some (f.ack + 1#24) then .next s else .next (goBack f.port f.link s)
        | none => .next s

/-- ACK_TIMEOUT: the oldest unacknowledged frame has waited too long; the sender resends from it as for a NAK (09 R251). -/
def execAckTimeout (p : Port) (link : Nat) (s : State) : Host.Outcome State Fault Refusal :=
  if framesFlow s then .next (goBack p link s) else .next s

/-- An ACK frame (09 R240, R249). -/
def sendAck (p : Port) (l : Nat) (s : State) : State := sendFrame p l .ack s

/-- ACK_DELAY_EXPIRY: 1 µs after an accepted DATA frame, an ACK frame unless some frame has carried it (09 R249). -/
def execAckDelayExpiry (p : Port) (link : Nat) (s : State) : Host.Outcome State Fault Refusal :=
  match linkBy s p link with
  | some k => if framesFlow s && carries k && k.unacked > 0 && !s.safe.stopper then .next (sendAck p link s) else .next s
  | none => .next s

/-- KEEPALIVE_TIMER: an ACK frame after 100 µs of silence (09, link timers), in the stopper state too (R267). -/
def execKeepaliveTimer (p : Port) (link : Nat) (s : State) : Host.Outcome State Fault Refusal :=
  match linkBy s p link with
  | some k => if framesFlow s && carries k then .next (sendAck p link s) else .next s
  | none => .next s

/-! ### Accepting DATA frames -/

/-- A frame ahead of the expected sequence, or with a bad trailer: one NAK for each value of the expected sequence (09 R248). -/
def nakOnce (p : Port) (l : Nat) (s : State) : State :=
  match linkBy s p l with
  | some k =>
    if k.nakFor = some k.expect then s
    else sendFrame p l .nak (setLink p l (fun k => { k with nakFor := some k.expect }) s)
  | none => s

/-- A DATA frame out of order: behind the expected sequence a duplicate, which an ACK follows; else ahead (09 R248). -/
def outOfOrder (f : Frm) (k : Link) (s : State) : State :=
  if (k.expect - f.seq).toNat ≤ 2 ^ 23 then sendAck f.port f.link s else nakOnce f.port f.link s

/-- A DATA frame accepted: the expected sequence, the buffer it occupies, and the acknowledgement it is owed (09 R246, R248, R249). -/
def accepted (v c : Nat) (k : Link) : Link :=
  { k with expect := k.expect + 1#24, rxSince := true, unacked := k.unacked + 1, nakFor := none,
           vcs := modVec k.vcs v (fun x => { x with held := x.held + c, room := x.room - c }) }

/-- An ACK frame once 16 DATA frames are owed one (09 R249). -/
def ackSixteen (p : Port) (l : Nat) (s : State) : State := match linkBy s p l with
  | some k => if k.unacked ≥ 16 then sendAck p l s else s
  | none => s

/-- A received DATA frame of a channel that occupies c credits: accepted in order, and within the credit of its channel, its message acts; the rest
is for R248. The stopper state discards it without acknowledgement (09 R267). -/
def onFrame (f : Frm) (v c : Nat) (act : State → State) (s : State) : State :=
  match linkBy s f.port f.link with
  | none => s
  | some k =>
    if !framesFlow s || !carries k || s.safe.stopper then s
    else if f.seq ≠ k.expect then outOfOrder f k s
    else match takeAck f s with
      | none => resetLink f.port f.link true s
      | some s =>
        if (vecAt k.vcs v { balance := 0, lastGrant := 0#12, granted := 0, consumed := 0, given := 0, held := 0, room := 0 }).room < c then
          resetLink f.port f.link true s
        else ackSixteen f.port f.link (act (setLink f.port f.link (accepted v c) s))

/-- A received DATA frame whose message acts on the credit that the frame occupies. -/
def onData (f : Frm) (m : Msg) (act : Nat → State → State) (s : State) : State :=
  let c := creditNeed (msgBytes (nsMeta s m.head.nsid) m)
  onFrame f (vcOf m.op) c (act c) s

/-- A message whose content leaves the receive buffer at once. -/
def onMsg (f : Frm) (m : Msg) (act : State → State) (s : State) : Host.Outcome State Fault Refusal :=
  .next (onData f m (fun c s => act (leaveBuffer f.port f.link (vcOf m.op) c s)) s)

/-- A message of an opcode with a head, an argument and a body. -/
def msgOf (op : Nat) (m : Head) (arg : Nat) (b : MBody) : Msg := { op := op, status := 0, head := m, arg := arg, body := b }

/-- Frames that R237 discards: counted, with NOTICE g.5 at most once per second. -/
def discardFrame (p : Port) (l : Nat) (s : State) : State :=
  portNotice p 5 l 0 (setPort p (fun q => { q with discard := inc 32 q.discard }) s)

/-- Whether a port hears frames at all: its PHY is up, and it is not stopped (09 R255, R261). -/
def hears (s : State) (p : Port) : Bool := (s.peer.get p).phy = 2 && s.ps.state ≤ 1

/-- A frame of a link that carries sequenced frames, outside the stopper state. -/
def onCarried (f : Frm) (act : State → State) (s : State) : State := match linkBy s f.port f.link with
  | some k => if framesFlow s && carries k && !s.safe.stopper then act s else s
  | none => s

/-- A received message that is discarded and counted; the frame that carried it was accepted (10 R288). -/
def discardMsg (f : Frm) (c : Nat) (s : State) : State :=
  setPort f.port (fun q => { q with discard := inc 32 q.discard }) (leaveBuffer f.port f.link 2 c s)

/-- FRAME_DISCARDED: what happens to a frame that is not accepted (09 R237, R240, R246, R248, 10 R288). The discards of R237 are counted on every port
that hears frames. A VC2 frame with an unknown opcode and LEN payload bytes is accepted on its link, and its message is discarded and counted. -/
def execFrameDiscarded (f : Frm) (why : Discard) (s : State) : Host.Outcome State Fault Refusal :=
  match why with
  | .unknownType => .next (if framesFlow s then setPort f.port (fun q => { q with discard := inc 32 q.discard }) s else s)
  | .unknownOp len => .next (onFrame f 2 (creditNeed len) (discardMsg f (creditNeed len)) s)
  | .trailer => .next (onCarried f (nakOnce f.port f.link) s)
  | .ahead => .next (onCarried f (nakOnce f.port f.link) s)
  | .behind => .next (onCarried f (sendAck f.port f.link) s)
  | .overrun => .next (onCarried f (resetLink f.port f.link true) s)
  | .ethertype => .next (if hears s f.port then discardFrame f.port f.link s else s)
  | .vlan => .next (if hears s f.port then discardFrame f.port f.link s else s)
  | .destination => .next (if hears s f.port then discardFrame f.port f.link s else s)
  | .source => .next (if hears s f.port then discardFrame f.port f.link s else s)
  | .tooLong => .next (if hears s f.port then discardFrame f.port f.link s else s)
  | .lenBeyond => .next (if hears s f.port then discardFrame f.port f.link s else s)
  | .version => .next (if hears s f.port then discardFrame f.port f.link s else s)

/-! ### Reads that a lost peer leaves unanswered (10 R282, R287) -/

/-- A READ_REQ whose answer will not come: the next source is tried. -/
def askFailed (a : Ask) (s : State) : State :=
  let s := onBraid (fun b => { b with asks := b.asks.filter (fun x => x ≠ a) }) s
  match a.solve with
  | some id => finishSolve id (solveGot id none none s)
  | none => match askPeer a.reader a.idx a.nsid a.lba a.part none a.rest s with
    | some s => s
    | none => if (nsLayout s a.nsid).cross = 5 then startSolve a.reader a.idx a.nsid a.lba s
      else giveUp a.reader a.idx a.nsid a.lba s

/-- Requests on links that are not UP, sent elsewhere. -/
def reroute (s : State) : State :=
  let lost := s.braid.asks.filter (fun a => !linkUp s (a.port, a.link))
  if lost.isEmpty then s else settleReads (lost.foldl (fun s a => askFailed a s) s)

/-! ### The handshake -/

/-- The resume point that a HELLO leads to (09 R254). -/
def resumeAt (k : Link) (h : Hello) : BitVec 24 :=
  let r := h.rxLast + 1#24
  if h.rxValid ∧ (r - txOldest k).toNat ≤ (k.txNext - txOldest k).toNat then r else txOldest k

/-- The link of a port to a node. -/
def linkOfNode (s : State) (p : Port) (node : Nat) : Option Nat :=
  (s.peer.get p).links.findIdx? (fun k => match peerEntry s k.entry with
    | some e => e.nodeId = node
    | none => false)

/-- The START_ID that a peer sends: another one voids what was accepted before (09 R254). -/
def hearStart (id : BitVec 32) (k : Link) : Link :=
  { k with peerStart := some id, rxSince := k.rxSince && (k.peerStart = none || k.peerStart = some id) }

/-- Credit counts restarted, with the opening grant: the whole credit of each channel less what the buffer still holds (09 R254). -/
def openCredit (n : Nat) (k : Link) : Link :=
  { k with vcs := Vector.ofFn fun i =>
      let v := k.vcs[i]
      let g := vcCredits n i.val - v.held
      { balance := 0, lastGrant := 0#12, granted := 0, consumed := 0, given := g, held := v.held, room := g } }

/-- A handshake complete: the link is UP, its opening grant is sent, and the replay share owes its frames again (09 R254). A change of
width resets the other member of the pair (R256). -/
def comeUp (p : Port) (l : Nat) (s : State) : State :=
  match linkBy s p l with
  | none => s
  | some k =>
    let n := (s.peer.get p).links.length
    let s := setLink p l (fun k => openCredit n { k with
      state := .up, ackSent := false, ackRcvd := false, late := false, tieMs := 0, lastBurst := none, slept := false,
      forWidth := false, everUp := true, noGain := 0, resentTo := none, nakFor := none, notice := none, wrr := (8, 4, 1),
      sent := k.sent.map (fun e => { e with due := true, resent := true }) }) s
    let s := raise (peerGroup p) 0 l (nodeLow s k.entry) (sendAck p l s)
    let s := if k.forWidth then s else widthChange p l s
    dualCheck (resumeSplices (moveHeld p l (pumpAll p l s)))

/-- UP once HELLO_ACK has been both sent and received. -/
def maybeUp (p : Port) (l : Nat) (s : State) : State := match linkBy s p l with
  | some k => if k.ackSent && k.ackRcvd && k.state = .handshake then comeUp p l s else s
  | none => s

/-- A link that hears a HELLO enters HANDSHAKE from UP and NOTIFIED (09 R255; from UP, since the peer has restarted: log entry 33). -/
def helloState (p : Port) (l : Nat) (s : State) : State := match linkBy s p l with
  | some k => (match k.state with
    | .up => linkDown p l toHandshake s
    | .notified => setLink p l toHandshake s
    | _ => s)
  | none => s

/-- A valid HELLO: entries before the resume point are freed, and HELLO_ACK is sent with it (09 R254). -/
def answerHello (p : Port) (l : Nat) (h : Hello) (s : State) : State :=
  match linkBy s p l with
  | none => s
  | some k =>
    if k.state ≠ .handshake then s
    else
      let r := resumeAt k h
      let n := (r - txOldest k).toNat
      let s := setLink p l (fun k => { hearStart h.startId k with sent := k.sent.drop n, ackSent := true }) s
      match linkBy s p l with
      | some k => maybeUp p l (emit (.frame p l 0#24 [0, 0, 0, 0] (.helloAck (helloOf s k r))) s)
      | none => s

/-- HELLO: from an unlisted node ignored, with NOTICE g.4 at most once per minute; otherwise answered (09 R254). -/
def execHello (p : Port) (link : Nat) (h : Hello) (s : State) : Host.Outcome State Fault Refusal :=
  if !framesFlow s || s.safe.stopper then .next s
  else match linkOfNode s p h.nodeId with
    | none => .next (raiseEvery (evKey (peerGroup p) 4) 60 (peerGroup p) 4 link (h.nodeId % 2 ^ 32) s)
    | some l => .next (reroute (answerHello p l h (helloState p l s)))

/-- HELLO_ACK: the expected sequence becomes the peer's RESUME (09 R254). -/
def execHelloAck (p : Port) (link : Nat) (h : Hello) (s : State) : Host.Outcome State Fault Refusal :=
  if !framesFlow s || s.safe.stopper then .next s
  else match linkOfNode s p h.nodeId with
    | none => .next (raiseEvery (evKey (peerGroup p) 4) 60 (peerGroup p) 4 link (h.nodeId % 2 ^ 32) s)
    | some l => match linkBy s p l with
      | none => .next s
      | some k =>
        if k.state ≠ .handshake then .next s
        else .next (reroute (maybeUp p l (setLink p l (fun k =>
          { hearStart h.startId k with expect := h.resume, ackRcvd := true, nakFor := none }) s)))

/-- HELLO_TIMER: a link in HANDSHAKE sends HELLO (09 R254, R255). -/
def execHelloTimer (p : Port) (link : Nat) (s : State) : Host.Outcome State Fault Refusal :=
  match linkBy s p link with
  | some k => if k.state = .handshake && framesFlow s && !s.safe.stopper then .next (sendHello p link s) else .next s
  | none => .next s

/-- HANDSHAKE_TIMEOUT: past 10 ms a port with one link goes back to TRAINING; otherwise the handshake continues at 10 ms (09 R255). -/
def execHandshakeTimeout (p : Port) (link : Nat) (s : State) : Host.Outcome State Fault Refusal :=
  match linkBy s p link with
  | some k =>
    if k.state ≠ .handshake then .next s
    else if (s.peer.get p).links.length = 1 then .next (lostPhy p 1 s)
    else .next (setLink p link (fun k => { k with late := true }) s)
  | none => .next s

/-- LIVENESS_LOST: an UP link that hears no valid frame for 1 ms enters HANDSHAKE and tie-off (09 R255, R258). -/
def execLivenessLost (p : Port) (link : Nat) (s : State) : Host.Outcome State Fault Refusal :=
  if linkUp s (p, link) then .next (reroute (linkDown p link toHandshake s)) else .next s

/-! ### PHY -/

/-- A link of a port whose PHY has come up: HANDSHAKE once host ready has been reached (09 R255); at another speed a full link reset, NOTICE
g.2, and the samples are discarded (R251, R256). -/
def phyLink (p : Port) (changed : Bool) (s : State) (l : Nat) : State :=
  match linkBy s p l with
  | none => s
  | some k =>
    if k.state = .disabled then s
    else
      let s := if changed then raise (peerGroup p) 2 l (nodeLow s k.entry)
          (setLink p l (fun k => { k with srtt := 0, samples := 0, timeout := 100 }) s)
        else s
      if s.boot.hostReady && !s.safe.stopper then setLink p l toHandshake s else s

/-- PHY_UP: auto-negotiation, training and RS-FEC lock succeed; 25 Gb/s only where SPEEDS allows it, with NOTICE g.6 (09 R234, R255,
R256). -/
def execPhyUp (p : Port) (slow : Bool) (s : State) : Host.Outcome State Fault Refusal :=
  let q := s.peer.get p
  let may : Bool := match s.prm.peer with
    | some x => x.slowOk
    | none => false
  if q.phy ≠ 1 ∨ ¬ portEnabled s p ∨ s.ps.state > 1 ∨ (slow ∧ ¬ may) then .next s
  else
    let changed := q.trains > 0 && q.slow ≠ slow
    let s := setPort p (fun q => { q with phy := 2, slow := slow, trains := inc 16 q.trains, energy := true }) s
    let s := (List.range q.links.length).foldl (phyLink p changed) s
    .next (if slow then raise (peerGroup p) 6 0 0 s else s)

/-- PHY_LOST: the port's links return to TRAINING, and training begins again (09 R255). -/
def execPhyLost (p : Port) (s : State) : Host.Outcome State Fault Refusal :=
  if (s.peer.get p).phy ≠ 2 then .next s
  else .next (reroute (lostPhy p 1 (setPort p (fun q => { q with energy := false }) s)))

/-! ### Wake -/

/-- Whether a link is a direct cable (09 R236). -/
def direct (s : State) (p : Port) (k : Link) : Bool := match peerEntry s k.entry with
  | some e => (match p with
    | .a => e.directA
    | .b => e.directB)
  | none => false

/-- The wake address of the peer behind a link: from its notice of cause 4 if one came, else its entry (09 R236, R265). -/
def wakeAddrOf (s : State) (k : Link) : Nat :=
  if k.cause = 4 then k.wakeAddr else match peerEntry s k.entry with
    | some e => e.wakeAddr
    | none => 0

/-- Whether a link holds traffic (09 R258). -/
def holdsTraffic (k : Link) : Bool := !k.held.isEmpty || !k.sent.isEmpty

/-- A wake burst is barred while the device sleeps, and in the stopper state (09 R264, R267). -/
def burstsOk (s : State) (p : Port) : Bool :=
  (s.peer.get p).phy ≠ 2 && portEnabled s p && s.ps.state ≤ 1 && !s.safe.stopper

/-- A wake burst for one tied-off link, at most every WAKE_S, INFO g.9 (09 R264). -/
def burstLink (p : Port) (s : State) (l : Nat) : State :=
  match linkBy s p l with
  | none => s
  | some k =>
    let wakeS := match s.prm.peer with
      | some x => x.wakeS
      | none => 1
    let due : Bool := match k.lastBurst with
      | some t => s.dev.secs ≥ t + wakeS
      | none => true
    if k.state = .training ∧ direct s p k ∧ holdsTraffic k ∧ due then
      raise (peerGroup p) 9 l (nodeLow s k.entry)
        (emit (.burst p (wakeAddrOf s k)) (setLink p l (fun k => { k with lastBurst := some s.dev.secs }) s))
    else s

/-- TRAINING_ATTEMPT_TIMEOUT: a 500 ms attempt ends without success; bursts go to sleeping peers (09 R264). -/
def execTrainingAttemptTimeout (p : Port) (s : State) : Host.Outcome State Fault Refusal :=
  if burstsOk s p then .next ((List.range (s.peer.get p).links.length).foldl (burstLink p) s) else .next s

/-- The tied-off links whose peer a burst of an address reaches: for R260 and for the WAKE_S of R264 a burst has been sent to that peer (log entry
67). -/
def burstSent (p : Port) (addr : Nat) (s : State) : State :=
  setPort p (fun q => { q with links := q.links.map (fun k =>
    if k.state = .training && direct s p k && (addr = wakeAddrOf s k || addr = 0xFF) then { k with lastBurst := some s.dev.secs } else k) }) s

/-- A write of WAKE_SEND: one burst where WAKE_GO is set and R264 allows it. -/
def wakeSend (v : Word) (s : State) : State :=
  let p := if v.getLsbD 8 then Port.b else Port.a
  if v.getLsbD 31 ∧ burstsOk s p ∧ (s.peer.get p).links.any (direct s p) then
    raise (peerGroup p) 9 0 0 (emit (.burst p (v.toNat % 256)) (burstSent p (v.toNat % 256) s))
  else s

/-- WAKE_SEND: a host's write of the register (09 R264). -/
def execWakeSend (p : Port) (v : Word) (s : State) : Host.Outcome State Fault Refusal :=
  if bar2Open s p then .next (wakeSend v s) else .next s

/-- This brick's wake address. -/
def myWakeAddr (s : State) : Nat := match s.prm.identity with
  | some i => i.wakeAddr
  | none => 0

/-- WAKE_PATTERN: in RUN and IDLE counted and ignored; in SLEEP, DEEP and PATROL a pattern with this brick's address or 0xFF and a
matching complement wakes the device, INFO g.10 (09 R263). -/
def execWakePattern (p : Port) (addr compl : Byte) (s : State) : Host.Outcome State Fault Refusal :=
  if !portEnabled s p || s.ps.state = 4 then .next s
  else if s.ps.state ≤ 1 then .next (setPort p (fun q => { q with wakeIgnored := inc 16 q.wakeIgnored }) s)
  else if (addr.toNat = myWakeAddr s ∨ addr = 0xFF#8) ∧ compl = ~~~ addr then
    .next (raise (peerGroup p) 10 0 0 (wakeUp 4 (onAon (fun a => { a with wakeSeen := a.wakeSeen.modify p (fun _ => true) }) s)))
  else .next s

/-- SIGNAL_ENERGY: energy present for 10 µs wakes the device from SLEEP, not from DEEP or PATROL (09 R261). -/
def execSignalEnergy (p : Port) (s : State) : Host.Outcome State Fault Refusal :=
  if !portEnabled s p || s.ps.state = 4 then .next s
  else
    let s := setPort p (fun q => { q with energy := true }) s
    if s.ps.state = 2 then .next (wakeUp 3 s) else .next s

/-! ### Tie-off notices and stale copies -/

/-- A received notice: NOTIFIED, NOTICE g.11, and for cause 4 the peer's wake address (09 R265). -/
def noticed (f : Frm) (cause wakeAddr : Nat) (s : State) : State :=
  match linkBy s f.port f.link with
  | none => s
  | some k =>
    let s := if k.state = .up then linkDown f.port f.link (fun k => { k with state := .notified }) s else s
    let s := setLink f.port f.link (fun k => { k with
      cause := cause, slept := cause = 3 || cause = 4, wakeAddr := if cause = 4 then wakeAddr else k.wakeAddr }) s
    raise (peerGroup f.port) 11 f.link (nodeLow s k.entry) s

/-- TIEOFF_NOTICE (09 R265). -/
def execTieoffNotice (f : Frm) (m : Head) (cause wakeAddr : Nat) (s : State) : Host.Outcome State Fault Refusal :=
  onMsg f (msgOf 0x03 m (cause + 256 * wakeAddr) .none) (fun s => reroute (noticed f cause wakeAddr s)) s

/-- A repair opened: a splice from the layout to itself with the stale peer as its only builder, in BUILD (10 R304). -/
def openRepair (nsid entry progress : Nat) (s : State) : State :=
  let l := nsLayout s nsid
  let id := freeId s 256 s.braid.nextId
  let p : Splice :=
    { id := id, phase := .build, left := .build, nsid := nsid, old := l.id, new := l.id, builders := [entry], reserved := [entry],
      progress := progress, dirty := [], verified := 0, diffs := 0, diffAt := [], folds := [], dual := false, auto := true,
      repair := true, lostBuilder := false, paused2 := false, refusal := 0, startSecs := s.dev.secs, localRun := false, reserve := 0,
      cmd := none, ready := false, told := [], phaseTags := [], again := [] }
  enterPhase id .build (onBraid (fun b => { b with splices := b.splices ++ [p], nextId := id + 1 }) s)

/-- Entries whose copy of a namespace is stale. -/
def staleEntries (s : State) (nsid : Nat) : List Nat :=
  ((List.range 16).filter (fun e => isStale s e nsid))

/-- Repairs that another splice of the namespace had put off, opened once it has ended; they copy every hank (log entry 35). -/
def lateRepairs (s : State) : State :=
  s.prm.namespaces.foldl (fun s n =>
    if (spliceOf s n.nsid).isSome ∨ ¬ isHome s n.nsid ∨ s.map.state ≠ 3 then s
    else match staleEntries s n.nsid with
      | e :: _ => openRepair n.nsid e 0 s
      | [] => s) s

/-- A peer's copy of a namespace marked stale: NOTICE g.8; extents wait for that peer no longer (09 R260); a repair opens, unless a
splice of the namespace is in progress. -/
def markStale (p : Port) (l nsid entry : Nat) (s : State) : State :=
  let s := (linksTo s entry).foldl (fun s q => setLink q.1 q.2 (fun k => { k with stale := insNat k.stale nsid }) s) s
  let s := raise (peerGroup p) 8 l (nodeLow s entry) s
  let s := onExts (fun es => es.map (fun e => if e.nsid = nsid then { e with waitOn := e.waitOn.filter (fun x => x ≠ entry) } else e)) s
  let s := if (spliceOf s nsid).isSome then s else openRepair nsid entry (hanksOf s nsid) s
  settle s

/-- From when DEGRADE_MS counts: after a sleep notice from the first wake burst, or on a link that is not DIRECT from the first held
work (09 R260). -/
def degradeCounts (s : State) (p : Port) (k : Link) : Bool :=
  !k.slept || (if direct s p k then k.lastBurst.isSome else holdsTraffic k)

/-- DEGRADE_TIMEOUT: a link of a namespace's mirror peer has been in tie-off for DEGRADE_MS (09 R260). -/
def execDegradeTimeout (p : Port) (link : Nat) (nsid : Nat) (s : State) : Host.Outcome State Fault Refusal :=
  match linkBy s p link, nsOf s nsid with
  | some k, some n =>
    let l := nsLayout s nsid
    if s.boot.hostReady && n.degrade && isMirror l && isHome s nsid && has (others s l) k.entry && !peerUp s k.entry &&
        !isStale s k.entry nsid && degradeCounts s p k then
      .next (markStale p link nsid k.entry s)
    else .next s
  | _, _ => .next s

end Sys2Proof.Machine
end

