-- ==== Sys2Proof/Machine/Resets.lean ====
section
/-! DEFINITION. Resets (00 R12, R13, 03 R62, 04 R126, 14 R398), the host ports (04 R100, R101, R127, 15 R416), and configuration requests (03
R83). -/

namespace Sys2Proof.Machine

open Sys2Proof

/-! ### The wide resets -/

/-- COLD_RESET: everything volatile is cleared, CLK_AON's state included, and the start timeline begins again (00 R12). -/
def execColdReset (s : State) : Host.Outcome State Fault Refusal :=
  .next (leaveOff none (coldReset (onFlush (fun _ => none) (unpower (goOff true s)))))

/-- Whether the ordered device reset may be made: step 9 of the stopper table has ended, or step 7 where no spill is made (14 R398). -/
def mayDeviceReset (s : State) : Bool := s.safe.order && s.safe.halted && (s.safe.sealed || s.safe.noSpill)

/-- DEVICE_RESET: the ordered reset from the stopper state (14 R398, R399, 03 R62). -/
def execDeviceReset (s : State) : Host.Outcome State Fault Refusal :=
  if mayDeviceReset s then
    .next (onAon (fun a => { a with stopped := true, stopResets := min 3 (a.stopResets + 1) }) (deviceReset s))
  else .next s

/-! ### The resets of one port (04 R126) -/

/-- A port that exists: port B only in dual-port mode (04 R101). -/
def activePort (s : State) (p : Port) : Bool := p = .a || dualPort s

/-- The code of a failure cause (03, table of failure causes). -/
def causeCode : Cause → Nat
  | .none => 0
  | .allZero => 1
  | .allOnes => 2
  | .magic => 3
  | .directory => 4
  | .keyAbsent => 5
  | .keyRejected => 6
  | .headerTag => 7
  | .blockTag => 8
  | .content => 9
  | .notTried => 10
  | .length => 11
  | .sequence => 12

/-- A staging abandoned: STAGE_STATE 5, STAGE_CAUSE SEQUENCE, ERROR 1.5 (04 R118). -/
def abandonStage (s : State) : State :=
  raise 1 5 s.boot.stageCopy (causeCode .sequence) (onBoot (fun b => { b with stageState := 5, stageCause := .sequence }) (onStage (fun _ => none) s))

/-- A staging of a controller that is reset, abandoned (04 R118). -/
def abandonOf (p : Port) (s : State) : State :=
  match s.stage with
  | some g => if g.owner = p then abandonStage s else s
  | none => s

/-- Commands of a port dropped with their writes, and its staging (04 R118, R126); a fused pair of the other port that stood behind one begins. -/
def dropPort (p : Port) (s : State) : State := settleReads (dropCmds (fun c => c.port = p) (abandonOf p s))

/-- The Cleat slots of a port freed (13 R379). -/
def freeSlots (p : Port) (s : State) : State :=
  onCleat (fun c => { c with ctx := c.ctx.map (fun x => match x with
    | some k => if k.owner = p then none else some k
    | none => none) }) s

/-- The host-facing state of a controller cleared; what the journal holds for it stays (04 R114, R126). -/
def clearCtl (p : Port) (s : State) : State :=
  setCtl p (fun c => { State.ctl0 with perstLow := c.perstLow, c1 := c.c1, dropped := c.dropped, pend := c.pend }) s

/-- The host-facing fields of other blocks that a warm reset clears (04 HOSTX, 13 RECF), and the port's order of a non-operational state. -/
def clearShared (p : Port) (s : State) : State :=
  onSmb (fun m => { m with off := false, fails := 0, wrIgnored := false })
    (onRf (fun r => { r with hold := false, wrIgnored := false })
      (onPs (fun x => { x with ordered := match x.ordered with
        | some (q, w) => if q = p then none else some (q, w)
        | none => none }) s))

/-- The INFO and NOTICE status bits of a port's group cleared (15 R407). -/
def clearGroup (p : Port) (s : State) : State :=
  onEvt (fun e => { e with status := modVec e.status (hostGroup p) (fun w => w &&& severeMask (hostGroup p)) }) s

/-- A link that was up goes down: NOTICE g.1. -/
def hostLinkDown (p : Port) (was : Bool) (s : State) : State := if was then raise (hostGroup p) 1 0 0 s else s

/-- A warm reset of one port (00 R12, 04 R126), with NOTICE g.4. -/
def warmPort (p : Port) (s : State) : State :=
  let was := (s.ctl.get p).link
  dropPort p s |> freeSlots p |> clearCtl p |> clearShared p |> clearGroup p |> hostLinkDown p was |> raise (hostGroup p) 4 0 0

/-- A cold or device reset is in progress: the core is held in it until the rails are good, and absorbs a narrower one (00 R13). -/
def resetRuns (s : State) : Bool := s.aon.coldHeld || s.boot.phase < 4

/-- WARM_RESET: a PCIe hot reset of a port (00 R12), absorbed into a wider reset in progress (00 R13). -/
def execWarmReset (p : Port) (s : State) : Host.Outcome State Fault Refusal :=
  if activePort s p && !resetRuns s then .next (warmPort p s) else .next s

/-- FUNCTION_LEVEL_RESET: acts as a warm reset of that port (04 R101, configuration table). -/
def execFunctionLevelReset (p : Port) (s : State) : Host.Outcome State Fault Refusal :=
  if activePort s p && (s.ctl.get p).link && !resetRuns s then .next (warmPort p s) else .next s

/-- The queues of a controller deleted with the requests they held (00 R12, 04 R126). -/
def clearQueues (p : Port) (s : State) : State :=
  setCtl p (fun c => { c with en := false, rdy := false, cfs := false, asqHead := 0, asqTail := 0, sqs := [], cqs := [], aers := [] }) s

/-- CONTROLLER_RESET: the host clears CC.EN (00 R12, 04 R126), NOTICE g.3. -/
def execControllerReset (p : Port) (s : State) : Host.Outcome State Fault Refusal :=
  if (s.ctl.get p).en then .next (raise (hostGroup p) 3 0 0 (clearQueues p (dropPort p s))) else .next s

/-- Whether CSTS.RDY follows CC.EN: host ready, or the no-image state (03 R60, R93). -/
def servesHosts (s : State) : Bool := s.boot.hostReady || s.boot.noImage

/-- CONTROLLER_ENABLE: the host sets CC.EN; CSTS.RDY becomes 1 at host ready (04 R105, coincidences), INFO g.2. The admin
queues have the entries that AQA gives, 0-based, at most 4096 (04 R108). -/
def execControllerEnable (e : Enable) (s : State) : Host.Outcome State Fault Refusal :=
  let p := e.port
  let c := s.ctl.get p
  if activePort s p && c.link && !c.en then
    .next (raise (hostGroup p) 2 0 0 (setCtl p (fun c => { c with
      en := true, rdy := servesHosts s, cfs := false, asqs := e.asqs, acqs := e.acqs, asqHead := 0, asqTail := 0 }) s))
  else .next s

/-- DOORBELL_WRITE: a tail doorbell starts the fetch of commands (01 R22), which wakes the device (11 R320). A tail that its queue does not have
is ignored (log entry 42). -/
def execDoorbellWrite (p : Port) (sq tail : Nat) (s : State) : Host.Outcome State Fault Refusal :=
  if !ctlRuns s p ∨ s.ps.state = 4 then .next s
  else
    let c := s.ctl.get p
    if sq = 0 ∧ tail ≤ c.asqs then .next (wakeFor p (setCtl p (fun c => { c with asqTail := tail }) s))
    else if c.sqs.any (fun q => q.qid = sq && tail < q.size) then
      .next (wakeFor p (setCtl p (fun c => { c with sqs := c.sqs.map (fun q => if q.qid = sq then { q with tail := tail } else q) }) s))
    else .next s

/-! ### PERST_N (04 R101, R127) -/

def setPerst (p : Port) (low : Bool) (s : State) : State := setCtl p (fun c => { c with perstLow := low }) s

/-- PERST_N_ASSERT: a warm reset of the port; PERST_N_B is ignored in single-port mode (04 R101). Within
a wider reset the pin's level is taken and the warm reset absorbed (00 R13). -/
def execPerstNAssert (p : Port) (s : State) : Host.Outcome State Fault Refusal :=
  let s := setPerst p true s
  if activePort s p && !resetRuns s then .next (warmPort p s) else .next s

/-- Whether PERST_N of every active port is low (04 R127). -/
def allPerst (s : State) : Bool := s.ctl.a.perstLow && (s.ctl.b.perstLow || !dualPort s)

/-- PERST_HELD_TIMEOUT: over 100 ms with every active port's PERST_N low: fetching stops, journal work ends, and DEEP is asked for (04 R127);
the stopper state is not led to DEEP (14 R395). -/
def execPerstHeldTimeout (s : State) : Host.Outcome State Fault Refusal :=
  if !allPerst s ∨ s.hx.perstHeld ∨ s.safe.stopper then .next s
  else
    let s := onHx (fun x => { x with perstHeld := true, perstTold := false }) s
    if servesHosts s ∧ s.flush.isNone then .next (askHeld s) else .next s

/-- PERST_N_RELEASE: the device wakes, and the rule of R127 ends (04 R127, 11 R320). -/
def execPerstNRelease (p : Port) (s : State) : Host.Outcome State Fault Refusal :=
  let s := setPerst p false s
  if activePort s p && s.ps.state ≠ 4 then
    .next (wakeUp 8 (onHx (fun x => { x with perstHeld := false, perstTold := false }) s))
  else .next s

/-! ### Links (04 R100, 15 R416) -/

/-- Lanes that the PCIE_MODE strap gives a port (03 R65). -/
def strappedWidth (s : State) : Nat := if dualPort s then 2 else 4

/-- Whether a port's link may train: the PLLs have locked, CLK_REF is present, PERST_N is high (03 R60, R63). -/
def mayTrain (s : State) (p : Port) : Bool :=
  s.boot.phase ≥ 5 && s.boot.clkRef && activePort s p && !(s.ctl.get p).perstLow && !(s.ctl.get p).link && s.ps.state ≠ 4

/-- A rate and a width that training can end with (04 HOSTX_STATUS). -/
def linkCodes (s : State) (speed width : Nat) : Bool := 1 ≤ speed && speed ≤ 5 && has [1, 2, 4] width && width ≤ strappedWidth s

/-- PCIE_LINK_UP: INFO g.0, and NOTICE g.9 below 32 GT/s or the strapped width (15 R416). -/
def execPcieLinkUp (p : Port) (speed width : Nat) (s : State) : Host.Outcome State Fault Refusal :=
  if mayTrain s p && linkCodes s speed width then
    let s := raise (hostGroup p) 0 0 0 (setCtl p (fun c => { c with link := true, speed := speed, width := width }) s)
    .next (if speed < 5 ∨ width < strappedWidth s then raise (hostGroup p) 9 0 0 s else s)
  else .next s

/-- PCIE_LINK_DOWN: NOTICE g.1 (15 R415). -/
def execPcieLinkDown (p : Port) (s : State) : Host.Outcome State Fault Refusal :=
  if (s.ctl.get p).link then
    .next (raise (hostGroup p) 1 0 0 (setCtl p (fun c => { c with link := false, speed := 0, width := 0 }) s))
  else .next s

/-- PCIE_UNCORRECTABLE_ERROR: Advanced Error Reporting records one: ERROR g.10 (15 R416). -/
def execPcieUncorrectableError (p : Port) (s : State) : Host.Outcome State Fault Refusal :=
  if activePort s p && s.boot.phase ≥ 5 then .next (raise (hostGroup p) 10 0 0 s) else .next s

/-! ### Configuration requests (03 R83, 04 R101) -/

/-- A register of the configuration space: which of its bits the spec gives a value, and that value. -/
structure CfgReg where
  mask  : Nat
  value : Nat
  deriving DecidableEq, Repr

/-- A register that the spec gives whole. -/
def cfgWhole (v : Nat) : CfgReg := { mask := 2 ^ 32 - 1, value := v }

/-- The capabilities of a function (04 R101), with the dwords of each that the spec gives a value: by identifier, 0x100 more for an extended one,
and dword. PCIe: Max Payload Size 512 bytes, Function Level Reset, 32 GT/s, the strapped width, ASPM L1 and not L0s. MSI-X: 64 entries. The Device
Serial Number is NODE_ID. The layouts within are those of PCIe (PRESUMED, log entry 43). -/
def cfgCaps (s : State) : List (Nat × Nat × CfgReg) :=
  let id := match s.prm.identity with
    | some i => i.nodeId
    | none => 0
  [(0x10, 0, { mask := 0xFF, value := 0x10 }), (0x10, 1, { mask := 0x10000007, value := 0x10000002 }),
   (0x10, 3, { mask := 0xFFF, value := pack [(0, 5), (4, strappedWidth s), (10, 2)] }),
   (0x11, 0, { mask := 0x7FF00FF, value := pack [(0, 0x11), (16, 63)] }),
   (0x01, 0, { mask := 0xFF, value := 0x01 }),
   (0x101, 0, { mask := 0xFFFF, value := 0x0001 }),
   (0x103, 0, { mask := 0xFFFF, value := 0x0003 }), (0x103, 1, cfgWhole (id % 2 ^ 32)), (0x103, 2, cfgWhole (id / 2 ^ 32 % 2 ^ 32))]

/-- What the spec gives of a register of the configuration space (04 R101): the identifiers, the sizes of BAR0 (16 KiB) and BAR2 (32 MiB), whose
address bits below the size read 0, and the capabilities where the device places them. -/
def cfgReg (s : State) (reg : Nat) : CfgReg :=
  if reg = 0x00 then cfgWhole (Config.vendorId + 2 ^ 16 * Config.deviceId)
  else if reg = 0x08 then cfgWhole (Config.revisionId + 2 ^ 8 * 0x010802)
  else if reg = 0x10 then { mask := 0x3FF0, value := 0 }
  else if reg = 0x18 then { mask := 0x1FFFFF0, value := 0 }
  else if reg = 0x2C then
    cfgWhole (match s.prm.host with
      | some x => x.ssvid + 2 ^ 16 * x.ssid
      | none => Config.vendorId + 2 ^ 16 * Config.deviceId)
  else match (cfgCaps s).find? (fun c => 4 * (Config.capabilityAt c.1 + c.2.1) = reg) with
    | some c => c.2.2
    | none => { mask := 0, value := 0 }

/-- A register as it reads: the bits the spec gives, and free bits elsewhere (log entry 43). -/
def cfgValue (s : State) (reg v : Nat) : Word :=
  let k := cfgReg s reg
  BitVec.ofNat 32 k.value ||| (BitVec.ofNat 32 v &&& ~~~ BitVec.ofNat 32 k.mask)

/-- CONFIGURATION_REQUEST: Request Retry Status until the HOST section has verified or the no-image state, then answered (03 R83). -/
def execConfigurationRequest (p : Port) (reg : Nat) (s : State) : Host.Outcome State Fault Refusal :=
  if !(s.ctl.get p).link then .next s
  else if !s.boot.hostOk && !s.boot.noImage then .next (emit (.crs p) s)
  else
    let (v, s) := draw s
    .next (emit (.cfg p (cfgValue s (reg / 4 * 4) v)) s)

end Sys2Proof.Machine
end

