-- ==== Sys2Proof/Machine/Format.lean ====
section
/-! DEFINITION. The configuration image: its header, directory and tags (03 R70 to R76), the content of every section and the ranges
that its chapter gives (03 R77 to R81; 06 R186; 07 R192 to R198, R212, R443; 09 R236; 10 R269, R270; 11 R332; 12 R358; 13 R375, R376;
14 R401). Offsets are from the start of a section's payload. -/

namespace Sys2Proof.Machine

open Sys2Proof

/-! ### Blocks, header and directory -/

/-- Bytes of an image block, and of its payload (03 R70). -/
def blockSize : Nat := 4096
def payloadSize : Nat := 4080

/-- An erased block. -/
def erasedBlock : List Byte := List.replicate blockSize 0xFF#8

/-- A directory entry (03 R74). -/
structure DirEnt where
  type  : Nat
  first : Nat
  count : Nat
  bytes : Nat
  deriving DecidableEq, Repr

/-- The directory entry at a place of the header. -/
def dirEnt (h : List Byte) (i : Nat) : DirEnt :=
  let o := 0x40 + 16 * i
  { type := rd h o 2, first := rd h (o + 4) 4, count := rd h (o + 8) 4, bytes := rd h (o + 12) 4 }

def hdrGen (h : List Byte) : Nat := rd h 0x08 4
def hdrLength (h : List Byte) : Nat := rd h 0x0C 2
def hdrKeySel (h : List Byte) : Nat := rd h 0x0E 1
def hdrKeySize (h : List Byte) : Nat := rd h 0x0F 1
def hdrSections (h : List Byte) : Nat := rd h 0x12 2

/-- The used entries of the directory. -/
def directory (h : List Byte) : List DirEnt := (List.range (min (hdrSections h) 16)).map (dirEnt h)

/-- Required section types (03 R77). -/
def requiredTypes : List Nat := [1, 2, 3, 4, 5, 6, 7, 8, 9, 0xB]

/-- Whether a type's section is gated (03 R77). -/
def gatedType (t : Nat) : Bool := 5 ≤ t && t ≤ 0xA

/-- Whether the sections lie in ascending order of type from a block on, without gaps, of types in the catalogue or informational (03 R75). -/
def inOrder : Nat → Nat → Nat → List DirEnt → Bool
  | length, _, next, [] => next = length
  | length, prev, next, e :: es =>
    e.type > prev && (e.type ≤ 0xF || 0x8000 ≤ e.type) && e.first = next && e.count ≥ 1 && e.bytes ≤ e.count * payloadSize &&
    inOrder length e.type (next + e.count) es

/-- The directory rules of 03 R74 and R75. -/
def directoryOk (h : List Byte) : Bool :=
  let n := hdrSections h
  10 ≤ n && n ≤ 15 &&
  (List.range 16).all (fun i => allZero (if i < n then sub h (0x42 + 16 * i) 2 else sub h (0x40 + 16 * i) 16)) &&
  inOrder (hdrLength h) 0 1 (directory h) &&
  requiredTypes.all (fun t => (directory h).any (fun e => e.type = t))

/-- What MAGIC, FORMAT, PART, KEY_SEL, KEY_SIZE, SPI_MODE, SPI_MHZ and the zero bytes must hold (03 R74). -/
def magicOk (h : List Byte) : Bool :=
  rd h 0 4 = 0x49565241 && rd h 4 2 = 1 && rd h 6 2 = Config.part && hdrKeySel h ≤ 7 && hdrKeySize h ≤ 1 && rd h 0x10 1 ≤ 2 &&
  1 ≤ rd h 0x11 1 && rd h 0x11 1 ≤ 50 && allZero (sub h 0x14 4) && allZero (sub h 0x140 3760)

/-- LENGTH within its range (03 R74). -/
def lengthOk (h : List Byte) : Bool := 11 ≤ hdrLength h && hdrLength h ≤ 2048

/-- The first checks on block 0, up to the directory (03 R85). -/
def headerCause (h : List Byte) : Cause :=
  if allZero h then .allZero
  else if h.all (fun b => b = 0xFF#8) then .allOnes
  else if !magicOk h then .magic
  else if !lengthOk h then .length
  else if !directoryOk h then .directory
  else .none

/-- The section that a block belongs to. -/
def sectionOf (h : List Byte) (b : Nat) : Option DirEnt := (directory h).find? (fun e => e.first ≤ b && b < e.first + e.count)

/-- TYPE and INDEX of a block in its prefix (03 R71). -/
def blockPlace (h : List Byte) (b : Nat) : Nat × Nat :=
  if b = 0 then (0, 0)
  else match sectionOf h b with
    | some e => (e.type, b - e.first)
    | none => (0, 0)

/-- The 16-byte prefix of a block (03 R71). -/
def blockPrefix (h : List Byte) (b : Nat) : List Byte :=
  le 4 (hdrGen h) ++ le 2 (blockPlace h b).1 ++ le 2 (blockPlace h b).2 ++ le 4 (hdrLength h) ++ le 1 (hdrKeySel h) ++ zeros 3

/-- The tag of a block (03 R71). -/
def blockTag (key h : List Byte) (b : Nat) (block : List Byte) : List Byte := cmac key (blockPrefix h b ++ block.take payloadSize)

/-- Whether a block's tag is right. -/
def tagOk (key h : List Byte) (b : Nat) (block : List Byte) : Bool := blockTag key h b block == sub block payloadSize 16

/-- A section's whole payload, from the blocks of its copy. -/
def wholePayload (blocks : List (List Byte)) (e : DirEnt) : List Byte :=
  ((blocks.drop e.first).take e.count).flatMap (fun b => b.take payloadSize)

/-- A section's payload of BYTES bytes. -/
def payloadOf (blocks : List (List Byte)) (e : DirEnt) : List Byte := (wholePayload blocks e).take e.bytes

/-- Payload bytes beyond BYTES are zero (03 R75). -/
def restZero (blocks : List (List Byte)) (e : DirEnt) : Bool := allZero ((wholePayload blocks e).drop e.bytes)

/-! ### Section heads (03 R76) -/

/-- Whether a number lies in a range. -/
def within (n lo hi : Nat) : Bool := lo ≤ n && n ≤ hi

/-- The part of a section head that every section shares. -/
def headOk (t : Nat) (p : List Byte) : Bool := 16 ≤ p.length && rd p 0 2 = t && rd p 2 2 = 1 && allZero (sub p 12 4)

/-- A head without a table, and a payload that reaches the end of the last field. -/
def plainHead (t ends : Nat) (p : List Byte) : Bool := headOk t p && rd p 4 4 = 0 && rd p 8 4 = 0 && ends ≤ p.length

/-- A head with a table of entries. -/
def tableHead (t size most : Nat) (p : List Byte) : Bool :=
  headOk t p && rd p 8 4 = size && rd p 4 4 ≤ most && p.length = 16 + rd p 4 4 * size

/-- The entries of a table. -/
def sectionEntries (size : Nat) (p : List Byte) : List (List Byte) := (List.range (rd p 4 4)).map (fun i => sub p (16 + i * size) size)

/-- A value where its test holds. -/
def when_ {α : Type} (b : Bool) (a : α) : Option α := if b then some a else none

/-! ### Sections -/

/-- IDENTITY (03). -/
def readIdentity (p : List Byte) : Option Identity :=
  when_ (plainHead 1 0xA8 p && allZero (sub p 0x5B 1) && allZero (sub p 0x65 3))
    { model := sub p 0x30 40, oui := sub p 0x58 3, nodeId := rd p 0x5C 8, wakeAddr := rd p 0x64 1 }

/-- The ranges of HOST (03). -/
def hostOkRange (x : HostSec) : Bool :=
  within x.mdts 1 8 && within x.msix 1 64 && within x.ioqPairs 1 128 && within x.ioqDepth 2 4096 && within x.aerLimit 1 16

/-- HOST (03). -/
def readHost (p : List Byte) : Option HostSec :=
  let x : HostSec := { ssvid := rd p 0x10 2, ssid := rd p 0x12 2, sn := sub p 0x14 20, mdts := rd p 0x28 1, msix := rd p 0x29 1,
                       ioqPairs := rd p 0x2A 2, ioqDepth := rd p 0x2C 2, aerLimit := rd p 0x2E 1, subnqn := sub p 0x30 256 }
  when_ (plainHead 2 0x130 p && hostOkRange x && allZero (sub p 0x2F 1)) x

/-- The ranges of SAFETY (14 R401). -/
def safetyOkRange (x : SafetySec) : Bool :=
  within x.hbUs 100 4000 && within x.selftestH 1 8 && within x.scrubH 1 8 && (x.stopHoldS = 0 || within x.stopHoldS 10 604800) &&
  within x.clkTolPct 2 10

/-- SAFETY (14 R401). -/
def readSafety (p : List Byte) : Option SafetySec :=
  let x : SafetySec := { hbUs := rd p 0x10 2, selftestH := rd p 0x12 1, scrubH := rd p 0x13 1, stopHoldS := rd p 0x14 4,
                         clkTolPct := rd p 0x18 1 }
  when_ (plainHead 3 0x19 p && safetyOkRange x) x

/-- Each of a list of three lies from 10 to 100, none above the one before. -/
def stepsFall : List Nat → Bool
  | [a, b, c] => within a 10 100 && within b 10 100 && within c 10 100 && b ≤ a && c ≤ b
  | _ => false

/-- The ranges of THERMAL that its RWS fields share (12 R358). -/
def thermalOkRange (x : ThermalSec) : Bool :=
  within x.stepMs 100 10000 && x.trendS ≤ 60 && stepsFall x.duty && stepsFall x.credit &&
    (!x.diode0 || within (nth x.ideal 0 0) 9900 10200) && (!x.diode1 || within (nth x.ideal 1 0) 9900 10200)

/-- Sixteen signed entries of two bytes. -/
def entries16 (p : List Byte) (off : Nat) : List Int := (List.range 16).map (fun i => signed 16 (rd p (off + 2 * i) 2))

/-- THERMAL (12 R358). -/
def readThermal (p : List Byte) : Option ThermalSec :=
  let d := rd p 0x10 1
  let comps := [0x40, 0x60, 0x80, 0xA0, 0xC0].map (entries16 p)
  let x : ThermalSec := { diode0 := bit d 0, diode1 := bit d 1, ideal := [rd p 0x12 2, rd p 0x14 2], stepMs := rd p 0x16 2, trendS := rd p 0x18 1,
                          duty := [rd p 0x1A 1, rd p 0x1C 1, rd p 0x1E 1], credit := [rd p 0x1B 1, rd p 0x1D 1, rd p 0x1F 1],
                          comp := comps }
  when_ (plainHead 4 0xE0 p && d ≤ 3 && thermalOkRange x &&
    comps.zipIdx.all (fun c => c.1.all (fun v => v.natAbs ≤ (if c.2 < 3 then 5000 else 500)))) x

/-- Dies that a geometry declares fitted. -/
def dieCount (g : Geometry) : Nat := g.dies * sumN (g.fitted.map (fun t => ((List.range 8).filter (bit t)).length))

/-- Raw NAND capacity in bytes, native mode (01 R21). -/
def rawBytes (g : Geometry) : Nat := dieCount g * g.units * g.pagesNative * g.s * 4096

/-- GEOMETRY (07 R198, 06 R153), within the headline maximum of 01 R21 (log entry 61). -/
def readGeometry (p : List Byte) : Option Geometry :=
  let g : Geometry := { fitted := (sub p 0x14 16).map BitVec.toNat, dies := rd p 0x12 1, planes := rd p 0x13 1, units := rd p 0x24 2,
                        pagesNative := rd p 0x26 2, pagesSlc := rd p 0x28 2, cell := rd p 0x2A 1, ldpcM := rd p 0x2B 1,
                        s := rd p 0x2C 1, spare := rd p 0x2E 2, peRated := rd p 0x30 2, peRatedSlc := rd p 0x32 2 }
  when_ (plainHead 5 0x35 p && rd p 0x10 2 = 0xFFFF && has [1, 2, 4] g.dies && has [1, 2, 4] g.planes && g.fitted.all (fun t => t ≠ 0) &&
    within g.units 2 16384 && within g.pagesNative 64 4096 && within g.cell 1 2 && has [6, 8, 10, 12] g.ldpcM && within g.s 1 8 &&
    g.spare ≥ g.s * (codewordBytes g.ldpcM - 4096) && g.pagesNative = nativeTypes g * g.pagesSlc && within g.peRated 100 60000 &&
    within g.peRatedSlc 1000 60000 && rd p 0x34 1 ≤ 1 && 15 * (g.pagesNative - 1) * g.s ≤ 131072 && rawBytes g ≤ Config.rawMax) g

/-- A template of 16 steps. -/
def template (p : List Byte) (off : Nat) : List (BitVec 16) := (List.range 16).map (fun i => BitVec.ofNat 16 (rd p (off + 2 * i) 2))

/-- A busy time of 07 R194. -/
def busyOk (p : List Byte) (off : Nat) : Bool := within (rd p off 4) 1 40000

/-- The highest rate of an interface mode (07 R188). -/
def modeMax (mode : Nat) : Nat := if mode = 1 then 1600 else 2400

/-- The ranges of READ_TIMING's RWS fields (07 R192). -/
def timingOkRange (x : ReadTiming) : Bool := within x.mts 200 (modeMax x.mode) && x.tparam.all (fun v => within v 1 1000000)

/-- READ_TIMING (07 R192, R194, R197). -/
def readReadTiming (p : List Byte) : Option ReadTiming :=
  let x : ReadTiming := { mode := rd p 0x10 1, mts := rd p 0x12 2, drive := rd p 0x14 1, odt := rd p 0x15 1,
                          tparam := (List.range 16).map (fun i => rd p (0x20 + 4 * i) 4),
                          tRead := template p 0x80, tLevels := template p 0xA0, tReset := template p 0xC0, tParam := template p 0xE0 }
  when_ (plainHead 6 0x100 p && within x.mode 1 2 && timingOkRange x && Config.onfiCode 0 x.mode x.drive &&
    Config.onfiCode 1 x.mode x.odt && busyOk p 0x60 && busyOk p 0x64 && busyOk p 0x68 && templateOk .read x.tRead &&
    templateOk .levels x.tLevels && templateOk .other x.tReset && templateOk .param x.tParam) x

/-- The ranges of READ_LEVELS' RWS fields (07 R212). -/
def levelsOkRange (x : ReadLevels) : Bool :=
  within x.delta1 1 64 && within x.delta2 (x.delta1 + 1) 64 && within x.delta3 (x.delta2 + 1) 96 && within x.sweep 4 32 &&
  within x.sweepStep 1 8 && x.sweep % max x.sweepStep 1 = 0 && within x.fidDays 1 90

/-- READ_LEVELS (07 R212); its cross-checks with GEOMETRY are in `crossOk`. -/
def readReadLevels (p : List Byte) : Option ReadLevels :=
  let dies := (p.length - 0x30) / 128
  let x : ReadLevels := { delta1 := rd p 0x10 1, delta2 := rd p 0x11 1, delta3 := rd p 0x12 1, sweep := rd p 0x13 1,
                          sweepStep := rd p 0x14 1, fidDays := rd p 0x15 1, levelPage := (sub p 0x16 16).map BitVec.toNat,
                          defaults := (List.range dies).map (fun d => (List.range 8).map (fun b =>
                            (sub p (0x30 + 128 * d + 16 * b) 16).map (fun v => v.toInt))) }
  when_ (plainHead 7 0x30 p && levelsOkRange x && (p.length - 0x30) % 128 = 0) x

/-- The ranges and relations of MAPPING (06 R186). -/
def mappingOkRange (m : Mapping) : Bool :=
  within m.promoteT 1 30 && m.demoteT < m.promoteT && within m.wearSpread 50 1000 && m.gcT1 ≤ 65536 && m.gcT2 < m.gcT1 &&
  m.gcT3 < m.gcT2 && 64 ≤ m.gcT3 && within m.opPermil 70 500 && within m.foldPct 25 90

/-- MAPPING (06 R186). -/
def readMapping (p : List Byte) : Option Mapping :=
  let m : Mapping := { promoteT := rd p 0x10 1, demoteT := rd p 0x11 1, wearSpread := rd p 0x12 2, gcT1 := rd p 0x14 4,
                       gcT2 := rd p 0x18 4, gcT3 := rd p 0x1C 4, opPermil := rd p 0x20 2, foldPct := rd p 0x22 1 }
  when_ (plainHead 8 0x23 p && mappingOkRange m) m

/-- Whether a list of numbers repeats none. -/
def noRepeat : List Nat → Bool
  | [] => true
  | a :: l => !has l a && noRepeat l

/-- A list of options, none where one of them is none. -/
def every {α : Type} : List (Option α) → Option (List α)
  | [] => some []
  | none :: _ => none
  | some a :: l => (every l).map (fun t => a :: t)

/-- A namespace entry (03 R80). -/
def readNsEntry (e : List Byte) : Option NsEntry :=
  let n : NsEntry := { nsid := rd e 0 4, size := rd e 4 8, metaOn := rd e 0x0C 1 = 1, ack := rd e 0x0D 1 = 1, layout := rd e 0x0E 2,
                       degrade := rd e 0x10 1 = 1, wp := rd e 0x11 1 = 1, degradeMs := rd e 0x12 2, nguid := sub e 0x14 16 }
  when_ (within n.nsid 1 32 && n.size ≥ 1 && rd e 0x0C 1 ≤ 1 && rd e 0x0D 1 ≤ 1 && rd e 0x10 1 ≤ 1 && rd e 0x11 1 ≤ 1 &&
    allZero (sub e 0x24 28)) n

/-- NAMESPACES (03 R80), in ascending NSID order. -/
def readNamespaces (p : List Byte) : Option (List NsEntry) :=
  if !tableHead 9 64 32 p then none
  else (every ((sectionEntries 64 p).map readNsEntry)).bind (fun l =>
    when_ (noRepeat (l.map (fun n => n.nsid))) (sortBy (fun n => n.nsid) l))

/-- K, M, POS and N of a layout entry, by CROSS (10 R269). -/
def crossShape (c k m pos n : Nat) : Bool :=
  if c = 0 then k = 0 && m = 0 && pos = 0 && n = 0
  else if c = 3 ∨ c = 4 then k = c - 1 && m = 0 && n = k && pos < n
  else c = 5 && within k 2 12 && within m 1 3 && n = k + m && pos < n

/-- A layout entry (10 R269, R270). -/
def readLayout (e : List Byte) : Option Layout :=
  let n := rd e 7 1
  let l : Layout := { id := rd e 0 2, loc := rd e 2 1, cross := rd e 3 1, k := rd e 4 1, m := rd e 5 1, pos := rd e 6 1,
                      rebuildMbs := rd e 8 2, spliceMbs := rd e 0x0A 2, verifyMbs := rd e 0x0C 2,
                      nodes := (List.range (min n 15)).map (fun i => rd e (0x10 + 8 * i) 8) }
  when_ (within l.id 1 1023 && within l.loc 1 4 && crossShape l.cross l.k l.m l.pos n && (l.cross = 0 || l.loc ≤ 2) &&
    within l.rebuildMbs 10 10000 && within l.spliceMbs 10 12000 && within l.verifyMbs 10 14000 && allZero (sub e 0x0E 2) &&
    allZero ((sub e 0x10 120).drop (8 * n)) && allZero (sub e 0x88 24)) l

/-- LAYOUTS (10 R269). -/
def readLayouts (p : List Byte) : Option (List Layout) :=
  if !tableHead 0xA 160 64 p then none
  else (every ((sectionEntries 160 p).map readLayout)).bind (fun l => when_ (noRepeat (l.map (fun x => x.id))) l)

/-- WRITE_TIMING (07 R193, R194, R197); VREFQ is judged with READ_TIMING's mode in `crossOk`. -/
def readWriteTiming (p : List Byte) : Option WriteTiming :=
  let x : WriteTiming := { ersMinUs := rd p 0x1C 2, ersSuspMax := rd p 0x1E 1, pgmSuspMax := rd p 0x1F 1, pgmMinUs := rd p 0x20 2,
                           vrefq := rd p 0x22 1, zq := rd p 0x23 1 = 1, tProgSlc := template p 0x40, tProgNative := template p 0x60,
                           tEraseSlc := template p 0x80, tEraseNative := template p 0xA0, tPsusp := template p 0xC0,
                           tPres := template p 0xE0, tEsusp := template p 0x100, tEres := template p 0x120 }
  when_ (plainHead 0xB 0x140 p && busyOk p 0x10 && busyOk p 0x14 && busyOk p 0x18 && within x.ersMinUs 100 10000 &&
    x.ersSuspMax ≤ 16 && x.pgmSuspMax ≤ 4 && within x.pgmMinUs 50 5000 && rd p 0x23 1 ≤ 1 && templateOk .program x.tProgSlc &&
    templateOk .program x.tProgNative && templateOk .other x.tEraseSlc && templateOk .other x.tEraseNative &&
    templateOk .other x.tPsusp && templateOk .other x.tPres && templateOk .other x.tEsusp && templateOk .other x.tEres) x

/-- A peer entry (09 R236); a MAC is the number of its bytes in order of transmission. -/
def readPeerEntry (e : List Byte) : Option PeerEntry :=
  let ports := rd e 0x14 1
  let d := rd e 0x15 1
  let x : PeerEntry := { nodeId := rd e 0 8, mac := beVal (sub e 8 6), mac2 := beVal (sub e 0x0E 6), portA := bit ports 0, portB := bit ports 1,
                         directA := bit d 0, directB := bit d 1, wakeAddr := rd e 0x16 1, orders := rd e 0x17 1 }
  when_ (within ports 1 3 && d ≤ 3 && x.orders ≤ 15 && decide ((ports = 3) = (x.mac2 ≠ 0)) && allZero (sub e 0x18 8)) x

/-- The EtherTypes that PEER may name (09 R236). -/
def etherOk (t : Nat) : Bool := within t 0x600 0xFFFF && !has [0x8100, 0x88A8, 0x8808] t

/-- PEER (09 R236). -/
def readPeer (p : List Byte) : Option PeerSec :=
  let n := rd p 0x16 1
  let en := rd p 0x12 1
  let md := rd p 0x13 1
  let sp := rd p 0x14 1
  (every ((List.range (min n 15)).map (fun i => readPeerEntry (sub p (0x40 + 32 * i) 32)))).bind (fun es =>
    let x : PeerSec := { ethertype := rd p 0x10 2, enableA := bit en 0, enableB := bit en 1, crA := bit md 0, crB := bit md 1,
                         slowOk := bit sp 1, wakeS := rd p 0x15 1, macA := beVal (sub p 0x18 6), macB := beVal (sub p 0x1E 6), entries := es }
    when_ (plainHead 0xC (0x40 + 32 * n) p && within n 1 15 && etherOk x.ethertype && en ≤ 3 && md ≤ 3 && (sp = 1 || sp = 3) &&
      within x.wakeS 1 60 && !bit (rd p 0x18 1) 0 && !bit (rd p 0x1E 1) 0 && noRepeat (es.map (fun e => e.nodeId)) &&
      (es.filter (fun e => e.portA)).length ≤ 8 && (es.filter (fun e => e.portB)).length ≤ 8) x)

/-- The ranges and relations of POWER_STATES (11 R332). -/
def powerOkRange (x : PowerSec) : Bool :=
  (x.idleUs = 0 || within x.idleUs 10 1000000) && (x.sleepMs = 0 || within x.sleepMs 1 3600000) &&
  (x.deepS = 0 || within x.deepS 1 604800) && (x.sleepMs = 0 || x.deepS = 0 || x.deepS * 1000 > x.sleepMs) && x.ceil ≤ 3 &&
  within x.patrolDays 1 180 && within x.rows 1 64 && within x.patrolPages 16 4096

/-- POWER_STATES (11 R332). -/
def readPower (p : List Byte) : Option PowerSec :=
  let x : PowerSec := { idleUs := rd p 0x10 4, sleepMs := rd p 0x14 4, deepS := rd p 0x18 4, ceil := rd p 0x1C 1, patrolDays := rd p 0x1E 2,
                        rows := rd p 0x20 1, patrolPages := rd p 0x22 2 }
  when_ (plainHead 0xD 0x24 p && powerOkRange x) x

/-- The ranges of RECORD_FLASH (13 R376). -/
def recOkRange (x : RecSec) : Bool := within x.refreshDays 30 365 && x.infoPerMin ≤ 6000 && x.noticePerMin ≤ 6000

/-- RECORD_FLASH (13 R376). -/
def readRec (p : List Byte) : Option RecSec :=
  let x : RecSec := { dual := rd p 0x10 1 = 1, refreshDays := rd p 0x12 2, infoPerMin := rd p 0x14 2, noticePerMin := rd p 0x16 2 }
  when_ (plainHead 0xE 0x18 p && rd p 0x10 1 ≤ 1 && recOkRange x) x

/-- WRAPPED_KEYS (13 R375): the contents of its entries fail no copy. -/
def readKeys (p : List Byte) : Option (List WrappedKey) :=
  if !tableHead 0xF 64 (2 ^ 32) p then none
  else some ((sectionEntries 64 p).map (fun e =>
    let size := rd e 2 1
    let act := rd e 1 1
    let used := if act = 2 then 0 else if size = 0 then 24 else 40
    { slot := rd e 0 1, action := act, keySize := size,
      zeros := allZero (sub e 3 13) && allZero ((sub e 0x10 40).drop used) && allZero (sub e 0x38 8), wrapped := (sub e 0x10 40).take used }))

/-! ### Handing a section over (03 R77, R84) -/

/-- Parameters with a section's fields; none where its head or a field breaks its chapter's rules. -/
def handOver (t : Nat) (p : List Byte) (x : Params) : Option Params :=
  match t with
  | 1 => (readIdentity p).map (fun v => { x with identity := some v })
  | 2 => (readHost p).map (fun v => { x with host := some v })
  | 3 => (readSafety p).map (fun v => { x with safety := v })
  | 4 => (readThermal p).map (fun v => { x with thermal := some v })
  | 5 => (readGeometry p).map (fun v => { x with geometry := some v })
  | 6 => (readReadTiming p).map (fun v => { x with readTiming := some v })
  | 7 => (readReadLevels p).map (fun v => { x with readLevels := some v })
  | 8 => (readMapping p).map (fun v => { x with mapping := some v })
  | 9 => (readNamespaces p).map (fun v => { x with namespaces := v })
  | 0xA => (readLayouts p).map (fun v => { x with layouts := v })
  | 0xB => (readWriteTiming p).map (fun v => { x with writeTiming := some v })
  | 0xC => (readPeer p).map (fun v => { x with peer := some v })
  | 0xD => (readPower p).map (fun v => { x with power := v, hasPower := true })
  | 0xE => (readRec p).map (fun v => { x with recf := v })
  | 0xF => (readKeys p).map (fun v => { x with wrappedKeys := v })
  | _ => some x

/-! ### Checks between sections -/

/-- User capacity in hanks (06 R169). -/
def capHanks (g : Geometry) (m : Mapping) : Nat :=
  (dieCount g * g.units * (g.pagesNative - 1) * g.s * 4096 * 15 / 16) * (1000 - m.opPermil) / 1000 / 131072

/-- READ_LEVELS against GEOMETRY (07 R443). -/
def levelsFit (g : Geometry) (r : ReadLevels) : Bool :=
  let used := if g.cell = 2 then 15 else 7
  r.defaults.length = dieCount g &&
  r.levelPage.zipIdx.all (fun x => if x.2 < used then x.1 < nativeTypes g else x.1 = 0) &&
  r.defaults.all (fun d => d.all (fun b => b.zipIdx.all (fun v => v.2 < used || v.2 = 15 || v.1 = 0)))

/-- NODES of a layout against this brick and its peers (10 R270). -/
def nodesFit (own : Nat) (peers : List Nat) (l : Layout) : Bool :=
  l.nodes.zipIdx.all (fun n => if n.2 = l.pos then n.1 = own else has peers n.1)

/-- What holds between the sections of an image that may be used (03 R80; 07 R193, R443; 09 R236; 10 R270). -/
def crossOk (x : Params) (vrefq : Nat) : Bool :=
  let own := match x.identity with
    | some i => i.nodeId
    | none => 0
  let peers := match x.peer with
    | some p => p.entries.map (fun e => e.nodeId)
    | none => []
  (match x.geometry, x.readLevels, x.mapping, x.readTiming with
   | some g, some r, some m, some t =>
     levelsFit g r && sumN (x.namespaces.map (fun n => n.size)) ≤ 32 * capHanks g m && Config.onfiCode 2 t.mode vrefq
   | _, _, _, _ => false) &&
  x.namespaces.all (fun n => n.layout = 0 || x.layouts.any (fun l => l.id = n.layout)) &&
  !has peers own && x.layouts.all (nodesFit own peers)

/-- Every section of a verified copy taken, or the cause that fails it: payload beyond BYTES (03 R75), heads and contents (03 R76, R81). -/
def takeSections (blocks : List (List Byte)) (x0 : Params) : Cause ⊕ Params :=
  let es := directory (nth blocks 0 [])
  if !es.all (restZero blocks) then .inl .directory
  else
    let r := es.foldl (fun (x : Option Params) e => x.bind (handOver e.type (payloadOf blocks e))) (some x0)
    let vrefq := match es.find? (fun e => e.type = 0xB) with
      | some e => rd (payloadOf blocks e) 0x22 1
      | none => 0
    match r with
    | some x => if crossOk x vrefq then .inr x else .inl .content
    | none => .inl .content

end Sys2Proof.Machine
end

