-- ==== Sys2Proof/Machine/Rws.lean ====
section
/-! DEFINITION. The RWS fields that a host may write before the seal: the section each register mirrors and the tests a value must meet (03
R98). -/

namespace Sys2Proof.Machine

open Sys2Proof

/-- HOST's fields in HOSTX. -/
def hostFields (h : HostSec) (o v : Nat) : HostSec :=
  if o = 0x50 then { h with mdts := field v 3 0, aerLimit := field v 11 8 + 1, msix := field v 22 16 }
  else { h with ioqPairs := if field v 7 0 = 0 then 128 else field v 7 0, ioqDepth := field v 28 16 }

/-- MAPPING's fields in MAP. -/
def mappingFields (m : Mapping) (o v : Nat) : Mapping :=
  match o with
  | 0x80 => { m with promoteT := field v 4 0, demoteT := field v 12 8, foldPct := field v 22 16 }
  | 0x84 => { m with wearSpread := field v 9 0, opPermil := field v 25 16 }
  | 0x88 => { m with gcT1 := field v 16 0 }
  | 0x8C => { m with gcT2 := field v 16 0 }
  | _ => { m with gcT3 := field v 16 0 }

/-- READ_LEVELS' fields in ECC. -/
def levelFields (r : ReadLevels) (o v : Nat) : ReadLevels :=
  if o = 0x48 then { r with delta1 := field v 7 0, delta2 := field v 15 8, delta3 := field v 23 16 }
  else { r with sweep := field v 5 0, sweepStep := field v 11 8, fidDays := field v 22 16 }

/-- POWER_STATES' fields in PSTATE. -/
def powerFields (x : PowerSec) (o v : Nat) : PowerSec :=
  match o with
  | 0x80 => { x with idleUs := field v 19 0 }
  | 0x84 => { x with sleepMs := field v 21 0 }
  | 0x88 => { x with deepS := field v 19 0 }
  | _ => { x with patrolDays := field v 7 0, rows := field v 14 8, patrolPages := field v 28 16 }

/-- THERMAL's fields in THERM. -/
def thermalFields (t : ThermalSec) (o v : Nat) : ThermalSec :=
  if o = 0x80 then { t with diode0 := bit v 0, diode1 := bit v 1, stepMs := field v 29 16 }
  else if o = 0x84 then { t with trendS := field v 5 0 }
  else
    let k := (o - 0x8C) / 4
    { t with duty := modAt t.duty k (fun _ => field v 6 0), credit := modAt t.credit k (fun _ => field v 22 16) }

/-- SAFETY's fields in SAFE. -/
def safetyFields (x : SafetySec) (o v : Nat) : SafetySec :=
  match o with
  | 0x40 => { x with hbUs := field v 11 0, selftestH := field v 19 16, scrubH := field v 27 24 }
  | 0x44 => { x with stopHoldS := field v 19 0 }
  | _ => { x with clkTolPct := field v 3 0 }

/-- RECORD_FLASH's fields in RECF. -/
def recFields (x : RecSec) (o v : Nat) : RecSec :=
  if o = 0x40 then { x with dual := bit v 0, refreshDays := field v 24 16 }
  else { x with infoPerMin := field v 12 0, noticePerMin := field v 28 16 }

/-- PEER's fields in PEER. -/
def peerFields (x : PeerSec) (v : Nat) : PeerSec :=
  { x with ethertype := field v 15 0, enableA := bit v 16, enableB := bit v 17, slowOk := bit v 19 }

/-- The capacity that the namespaces take is still there (06 R169, 03 R80). -/
def capacityHolds (x : Params) (m : Mapping) : Bool := match x.geometry with
  | some g => sumN (x.namespaces.map (fun n => n.size)) ≤ 32 * capHanks g m
  | none => true

/-- MEDIA's fields of one channel: TPARAM and MTS (07 R192). -/
def mediaTake (x : Params) (o v : Nat) : Option Params := match x.readTiming with
  | some r =>
    let a := o % 0x1000
    if a = 0x140 then when_ (timingOkRange { r with mts := field v 11 0 }) { x with mediaRws := kvPut x.mediaRws o (field v 11 0) }
    else when_ (timingOkRange { r with tparam := [field v 19 0] }) { x with mediaRws := kvPut x.mediaRws o (field v 19 0) }
  | none => none

/-- The section that an RWS register mirrors, by its BAR2 offset; 0 where it mirrors none. -/
def rwsSection (off : Nat) : Option Nat :=
  let o := off % 0x10000
  match off / 0x10000 with
  | 0x3 => if has [0x50, 0x54] o then some 2 else none
  | 0x5 => if has [0x80, 0x84, 0x88, 0x8C, 0x90] o then some 8 else none
  | 0x6 => if (0x100 ≤ o % 0x1000 ∧ o % 0x1000 ≤ 0x140) then some 6 else none
  | 0x7 => if has [0x48, 0x4C] o then some 7 else none
  | 0x8 => if o = 0 then some 0xC else none
  | 0x9 => if o = 0x18 then some 0 else none
  | 0xA => if has [0x80, 0x84, 0x88, 0x8C] o then some 0xD else none
  | 0xB => if has [0x80, 0x84, 0x8C, 0x90, 0x94] o then some 4 else none
  | 0xC => if has [0x40, 0x44] o then some 0xE else none
  | 0xE => if has [0x40, 0x44, 0x48] o then some 3 else none
  | _ => none

/-- The parameters with a host's value in an RWS register; none where a field breaks its range or a relation (03 R98). -/
def rwsTake (x : Params) (off v : Nat) : Option Params :=
  let o := off % 0x10000
  match off / 0x10000 with
  | 0x3 => x.host.bind (fun h => let n := hostFields h o v
      when_ (hostOkRange n) { x with host := some n })
  | 0x5 => x.mapping.bind (fun m => let n := mappingFields m o v
      when_ (mappingOkRange n && capacityHolds x n) { x with mapping := some n })
  | 0x6 => mediaTake x o v
  | 0x7 => x.readLevels.bind (fun r => let n := levelFields r o v
      when_ (levelsOkRange n) { x with readLevels := some n })
  | 0x8 => x.peer.bind (fun q => when_ (etherOk (field v 15 0) && bit v 18) { x with peer := some (peerFields q v) })
  | 0x9 => when_ (within (field v 13 0) 10 10000) { x with rebuild0 := field v 13 0 }
  | 0xA => let n := powerFields x.power o v
    when_ (powerOkRange n) { x with power := n }
  | 0xB => x.thermal.bind (fun t => let n := thermalFields t o v
      when_ (thermalOkRange n) { x with thermal := some n })
  | 0xC => let n := recFields x.recf o v
    when_ (recOkRange n) { x with recf := n }
  | _ => let n := safetyFields x.safety o v
    when_ (safetyOkRange n) { x with safety := n }

/-- Parameters with the values that a host has had taken since the reset put in force again, oldest first: they outlast what a copy brings (03 R98). -/
def keepTaken (l : List (Nat × Nat)) (x : Params) : Params := l.foldl (fun x w => (rwsTake x w.1 w.2).getD x) x

end Sys2Proof.Machine
end

