-- ==== Sys2Proof/Machine/Startup.lean ====
section
/-! DEFINITION. Chapter 03: the start timeline (R60 to R66), loading and verifying a copy (R67 to R92), the no-image state (R93, R94), host
ready, and channel start (07 R190), which R86 waits for. -/

namespace Sys2Proof.Machine

open Sys2Proof

/-! ### Steps 4 and 5 -/

/-- SECONDS of the records of 15 R421. -/
def recordSecs (s : State) : List Nat :=
  (logEntries s).map (fun e => e.secs) ++
  s.rf.banks.toList.flatMap (fun b =>
    b.level.map (fun r => r.secs) ++ b.pins.map (fun r => r.secs) ++
    b.heat.map (fun h => match h.2 with
      | .thermal _ _ _ _ _ _ t => t
      | .stopper _ _ _ _ _ _ t _ => t))

/-- POWER_ON of those records that carry one (15 R423). -/
def recordPowerOns (s : State) : List Nat :=
  (logEntries s).map (fun e => e.powerOn) ++
  s.rf.banks.toList.flatMap (fun b => b.heat.map (fun h => match h.2 with
    | .thermal _ _ _ _ _ p _ => p
    | .stopper _ _ _ _ _ p _ _ => p))

/-- The two counters restored after a loss of VDD_AON (15 R421, R423); entries that wait take them (log entry 1). -/
def restoreCounters (s : State) : State :=
  if !s.dev.lostAon then s
  else
    let ts := recordSecs s
    let secs := if ts.isEmpty then 0 else (ts.foldl max 0 + 1) % 2 ^ 48
    let on := ((recordPowerOns s).foldl max 0 + 1) % 2 ^ 32
    s |> onDev (fun d => { d with secs := secs, powerOn := on, lostAon := false })
      |> onAon (fun a => { a with restored := true, noHistory := ts.isEmpty })
      |> onEvt (fun e => { e with queue := e.queue.map (fun q => { q with secs := secs, powerOn := on, subsec := 0 }) })

/-- The newest header and pin record shown in BOOT, and the log's end found (03 BOOT, 15 R419). -/
def readRecords (s : State) : State :=
  let g := match standingHeader s with
    | some h => headerGen h
    | none => 0
  let s := onBoot (fun b => match pinInForce s with
    | some r => { b with genGood := g, pinValid := true, pinCopy := r.arg, pinGenReg := r.gen }
    | none => { b with genGood := g, pinValid := false, pinCopy := 0, pinGenReg := 0 }) s
  loadLog s

/-- A suspended erase of the thermal-record area made again, and room kept there in both banks; the gates of R82 do not hold this back (12 R345,
R346). -/
def heatAtStart (s : State) : State :=
  let s := match s.rf.suspended with
    | some j => (match j.what with
      | .eraseSector n => if 7 ≤ n ∧ n < 15 then flashUrgent j (onRf (fun r => { r with suspended := none }) s) else s
      | _ => s)
    | none => s
  heatRoom 1 (heatRoom 0 s)

/-- RAILS_GOOD: step 4. The core leaves its reset; DRAM, MRAM and record flash are powered (03 R60, 02 R49). -/
def execRailsGood (s : State) : Host.Outcome State Fault Refusal :=
  if feeds s.hly.breaker ∧ s.pwr.voutOk ∧ ¬ s.pwr.railsOk ∧ s.flush.isNone then
    .next (s |> onPwr (fun p => { p with railsOk := true }) |> onPins (fun p => { p with dramPwrEn := true })
      |> onAon (fun a => { a with coldHeld := false }) |> reach 4 |> restoreCounters |> readRecords |> heatAtStart)
  else .next s

/-- IMG_SEL: the higher level is the more conservative (03 R66). -/
def imgSelLevel (mv : Nat) : Nat := match strapRead mv with
  | .level l => l
  | .above l => l + 1

/-- PCIE_MODE: one ×4 port is the more conservative (03 R66). -/
def pcieModeLevel (mv : Nat) : Nat := match strapRead mv with
  | .level l => l
  | .above l => if l = 0 then 0 else 2

/-- The start-up straps sampled (03 R65, 04 R122). -/
def bootStraps (x : BootStraps) (s : State) : State :=
  onBoot (fun b => { b with imgSel := imgSelLevel x.imgSel, pcieMode := pcieModeLevel x.pcieMode, smbAddr := lowLevel x.smbAddr }) s

/-- A start refused because a zone is still at or above throttle off: the gate goes low again and the latch stays (12 R348). -/
def latchRefuses (s : State) : State :=
  let a := { s.aon with latchRefusals := s.aon.latchRefusals + 1, refusalsTold := s.aon.refusalsTold + 1 }
  gateLow .thermal (coreReset a s)

/-- PLL_LOCK: step 5. The straps are sampled; with the thermal latch set, the die zones decide whether the start goes on (03 R60, 12 R348). -/
def execPllLock (clkRef : Bool) (straps : BootStraps) (dieHot : Bool) (s : State) : Host.Outcome State Fault Refusal :=
  if s.boot.phase ≠ 4 then .next s
  else if s.aon.thermLatch ∧ dieHot then .next (latchRefuses s)
  else .next (reach 5 (bootStraps straps (onBoot (fun b => { b with clkRef := clkRef }) s)))

/-- CRYSTAL_SWITCH: CLK_AON runs from the crystal; once it has been left, only a cold reset tries it again (03 R64). -/
def execCrystalSwitch (s : State) : Host.Outcome State Fault Refusal :=
  if s.hly.vinGood ∧ ¬ s.aon.xtalLost then .next (onAon (fun a => { a with xtal := true }) s) else .next s

/-- CRYSTAL_LOST: back to the RC, NOTICE 13.13 (03 R64). -/
def execCrystalLost (s : State) : Host.Outcome State Fault Refusal :=
  if s.aon.xtal then .next (raise 13 13 0 0 (onAon (fun a => { a with xtal := false, xtalLost := true }) s)) else .next s

/-- CLK_REF_ABSENT_TIMEOUT: 100 ms after step 5 without CLK_REF: NOTICE 1.8 (03 R63). -/
def execClkRefAbsentTimeout (s : State) : Host.Outcome State Fault Refusal :=
  if s.boot.phase ≥ 5 ∧ ¬ s.boot.clkRef then .next (raise 1 8 0 0 s) else .next s

/-- CLK_REF_APPEAR: the PCIe link may train (03 R63). -/
def execClkRefAppear (s : State) : Host.Outcome State Fault Refusal :=
  if s.boot.phase ≥ 5 then .next (onBoot (fun b => { b with clkRef := true }) s) else .next s

/-! ### Reading the configuration flash -/

/-- The base address of a copy (03 R67). -/
def copyBase (c : Nat) : Nat := 0x800000 * c

/-- The period of SPI_CLK in ns, which keeps the rate at or below `mhz` (16 R439). -/
def spiPeriod (mhz : Nat) : Nat := 2 * ((500 + mhz - 1) / mhz)

/-- The read of a block of a copy: a header in single I/O at 10 MHz; the rest as the header asks, in dual or quad I/O only where SFDP declares that
fast read, at most at 50 MHz; without SFDP with Read (03h) in single I/O at 20 MHz (03 R67, R68). -/
def readBlockAt (c b : Nat) (s : State) : State :=
  let h := nth (vecAt s.cfg c []) 0 erasedBlock
  let addr := copyBase c + blockSize * b
  match s.boot.sfdp with
  | none => emit (.spi .read (some 1) (some (spiPeriod (if b = 0 then 10 else 20))) addr []) s
  | some x =>
    if b = 0 then emit (.spi .read (some 1) (some (spiPeriod 10)) addr []) s
    else
      let lanes := if rd h 0x10 1 = 2 && x.quad then 4 else if rd h 0x10 1 = 1 && x.dual then 2 else 1
      emit (.spi (if lanes = 1 then .read else .fastRead) (some lanes) (some (spiPeriod (min 50 (rd h 0x11 1)))) addr []) s

/-- A block of a copy as the SPI lines carry it (03 R67; R94 text). -/
def flashBlock (s : State) (copy b : Nat) (line : SpiLine) : List Byte := match line with
  | .clean => nth (vecAt s.cfg copy []) b erasedBlock
  | .stuckLow => List.replicate blockSize 0#8
  | .stuckHigh => erasedBlock

/-- The copies that IMG_SEL permits (03 R89). -/
def permitted (s : State) : List Nat := if s.boot.imgSel ≤ 1 then [s.boot.imgSel] else [0, 1]

/-- The first permitted copy whose header has not been read. -/
def nextHeader (s : State) : Option Nat := (permitted s).find? (fun c => decide (nth s.boot.hdrOk c none = none))

/-- The order of R89: good headers by descending generation, copy 0 first on equal ones, a failing header last. Where both fail, copy 0 comes first:
DESIGN CHOICE, the spec does not say (log entry 60). -/
def copyOrder (s : State) : List Nat :=
  let good (c : Nat) : Bool := decide (nth s.boot.hdrOk c none = some true)
  let gen (c : Nat) : Nat := nth s.boot.genCopy c 0
  match permitted s with
  | [a, b] =>
    if good b && (!good a || gen b > gen a) then [b, a] else [a, b]
  | l => l

/-- The candidates ordered; at IMG_SEL level 3 a pin record's copy comes first (03 R89, R90). -/
def orderCopies (s : State) : State :=
  let l := copyOrder s
  match (if s.boot.imgSel = 3 then pinInForce s else none) with
  | some r => onBoot (fun b => { b with headers := true, candidates := r.arg :: l.filter (fun c => c ≠ r.arg), pinGen := some r.gen }) s
  | none => onBoot (fun b => { b with headers := true, candidates := l, pinGen := none }) s

/-- A header read for the order of R89. -/
def readHeader (c : Nat) (h : List Byte) (s : State) : State :=
  let s := onBoot (fun b => { b with
    hdrOk := modAt b.hdrOk c (fun _ => some (decide (headerCause h = .none))),
    genCopy := if magicOk h then modAt b.genCopy c (fun _ => hdrGen h) else b.genCopy }) s
  if (nextHeader s).isNone then orderCopies s else s

/-- The SFDP table read at step 6a; without its signature NOTICE 1.3 (03 R67, R68). -/
def readSfdp (x : Option Sfdp) (s : State) : State :=
  if s.boot.phase ≥ 6 then s
  else
    let s := reach 6 (onBoot (fun b => { b with sfdp := x }) (emit (.spi .sfdp (some 1) (some (spiPeriod 10)) 0 []) s))
    if x.isNone then raise 1 3 0 0 s else s

/-! ### What the release of the gates does -/

/-- Zones of a thermal record's source (12 R333, R349). -/
def sourceZone (source : Nat) : Nat := if source < 6 then source / 2 else if source < 8 then source - 3 else 2

/-- ERROR 13.4 with the first entries that can be written after a thermal shutdown (12 R344). Where a power cycle has cleared CLK_AON, a thermal
record newer than every log entry tells of it (log entry 44). -/
def tellShutdown (s : State) : State :=
  match s.aon.thermAt with
  | some (src, t) => raise 13 4 src (t % 2 ^ 32).toNat (onAon (fun a => { a with thermAt := none }) s)
  | none =>
    let recs := (thermals s).filterMap (fun h => match h with
      | .thermal src _ _ zs _ _ at_ => some (src, nth zs (sourceZone src) none, at_)
      | _ => none)
    match argMax (fun r => r.2.2) recs with
    | some (src, z, at_) =>
      if (logEntries s).all (fun e => e.secs ≤ at_) then raise 13 4 src ((z.getD 0) % 2 ^ 32).toNat s else s
    | none => s

/-- An erase that a thermal shutdown suspended, made again (12 R346); a lowering and a refresh begin again by their own records. -/
def eraseAgain (s : State) : State :=
  match s.rf.suspended with
  | none => s
  | some j =>
    let s := onRf (fun r => { r with suspended := none }) s
    match j.what with
    | .eraseSector _ => flashJob j s
    | .eraseLog _ => flashJob j s
    | _ => s

/-- The gates that reach hosts and record flash released: edges, the time mark's start, what record flash owes, and the operations that waited
for them (03 R82, R93). -/
def openGates (s : State) : State :=
  startJobs 2 <| tellShutdown (recAtGates (eraseAgain (onEvt (fun e => { e with quiet := s.dev.secs }) (releaseEdges s))))

/-! ### A copy that fails, and the no-image state -/

/-- The gates of R93 released: READY, the seal, ERROR 1.2, and what record flash does once it may be written (03 R93). -/
def enterNoImage (s : State) : State :=
  let s := onBoot (fun b => { b with phase := 15, noImage := true, ready := true, sealed := true, loading := none }) s
  let s := setCtl .b (fun c => { c with rdy := c.en }) (setCtl .a (fun c => { c with rdy := c.en }) s)
  raise 1 2 0 0 (openGates s)

/-- The parameters and the work of a failed copy discarded: the map, the replay plan, the read levels, the channels and the ports (03 R87).
What the journal scan found is kept, and so are the RWS values taken from a host (R98). -/
def discardCopy (s : State) : State :=
  let m := State.media0
  s |> onPrm (fun _ => keepTaken s.boot.rwsTaken State.prm0)
    |> onBoot (fun b => { b with hostOk := false, thermalOk := false, excluded := 0, loading := none, key := [], firstStart := false })
    |> onMap (fun _ => State.map0) |> onBraid (fun _ => State.braid0)
    |> onMedia (fun x => { x with
        channels := m.channels, erases := [], reads := [], progs := [], levels := [], set := [], fidAt := [], fidWant := [], fidBar := [] })
    |> onJrnl (fun j => { j with state := min j.state 1, surveyed := false, index := [] })
    |> setPort .a (fun _ => State.port0) |> setPort .b (fun _ => State.port0)
    |> onTherm (fun t => { t with
        zones := t.zones.take 3 ++ [none, none], runs := t.runs.take 3 ++ [0, 0], means := t.means.take 3 ++ [[], []],
        acc := t.acc.take 3 ++ [(0, 0), (0, 0)], step := t.step.take 1 ++ [0, 0] })

/-- The next candidate, or the no-image state (03 R85, R93). -/
def nextCandidate (s : State) : State :=
  let s := onBoot (fun b => { b with candidates := b.candidates.drop 1, pinGen := none }) s
  if s.boot.candidates.isEmpty then enterNoImage s else s

/-- A copy fails: its cause and block recorded, its work discarded, NOTICE 1.1, and NOTICE 1.7 where the pin record named it (03 R87, R90). -/
def copyFailed (c : Nat) (cause : Cause) (blk : Nat) (s : State) : State :=
  let pinned := s.boot.pinGen.isSome
  let s := onBoot (fun b => { b with cause := modAt b.cause c (fun _ => cause), failBlock := modAt b.failBlock c (fun _ => blk) }) (discardCopy s)
  let s := raise 1 1 c (causeCode cause) s
  nextCandidate (if pinned then raise 1 7 0 0 s else s)

/-! ### A copy that passes (03 R82, R88; 13 R375) -/

/-- A WRAPPED_KEYS entry whose fields hold what R375 allows. -/
def wrappedOk (w : WrappedKey) : Bool :=
  w.slot ≤ 15 && (w.action = 1 || w.action = 2) && w.keySize ≤ 1 && w.zeros

/-- The newest entry of a slot, those just made included. -/
def latestKey (s : State) (made : List KeyRec) (slot : Nat) : Option KeyRec :=
  match argMax (fun k => k.seq) (made.filter (fun k => k.slot = slot)) with
  | some k => some k
  | none => keyEntry s slot

/-- SEQ of the next key-store entry (13 R361). -/
def nextKeySeq (s : State) (made : List KeyRec) : Nat := match argMax (fun k => k.seq) (allKeys s ++ made) with
  | some k => k.seq + 1
  | none => 1

/-- A key-store entry written into both banks, INFO 14.7 (13 R375). -/
def writeKey (k : KeyRec) (x : State × List KeyRec) : State × List KeyRec := (raise 14 7 0 0 (flashBoth (.key k) x.1), x.2 ++ [k])

/-- An entry skipped: NOTICE 14.8 (13 R375). -/
def skipKey (x : State × List KeyRec) : State × List KeyRec :=
  (raise 14 8 0 0 (onCleat (fun c => { c with keysSkipped := inc 16 c.keysSkipped }) x.1), x.2)

/-- One WRAPPED_KEYS entry taken (13 R375). -/
def takeKey (transport : List Byte) (x : State × List KeyRec) (w : WrappedKey) : State × List KeyRec :=
  let s := x.1
  if !wrappedOk w then skipKey x
  else
    let k : KeyRec := { slot := w.slot, k256 := w.keySize = 1, state := 2, seq := nextKeySeq s x.2, gen := s.boot.genUsed, key := [] }
    if w.action = 2 then writeKey k x
    else match keyUnwrap transport w.wrapped with
      | none => skipKey x
      | some key =>
        if (match latestKey s x.2 w.slot with
            | some old => decide (old.state = 1 ∧ old.key = key)
            | none => false) then x
        else writeKey { k with state := 1, key := key } x

/-- The entries taken in order under the transport key in force before the first: slot 0's, else the device key (13 R375). -/
def takeKeys (s : State) : State :=
  let transport := (slotKey s 0).getD Config.deviceKey
  (s.prm.wrappedKeys.foldl (takeKey transport) (s, [])).1

/-- A whole copy has passed: the gates are released, and the start-up queue goes to the log before the header is stored and replay begins (03 R82,
R88). The time it took is a free value (log entry 7). -/
def copyPassed (l : Loading) (s : State) : State :=
  let h := nth l.blocks 0 []
  let (ms, s) := draw s
  let s := onBoot (fun b => { b with
    gates := true, copy := l.copy, genUsed := hdrGen h, cause := modAt b.cause l.copy (fun _ => .none),
    imageMs := ms % 65536, loading := none, candidates := [], key := [], release := some (h, s.evt.queue.length),
    pinnedBy := if b.imgSel ≤ 1 then 1 else if l.pinned.isSome then 2 else 0 }) s
  afterQueue (takeKeys (openGates s))

/-- Targets that GEOMETRY declares fitted, as channel and target. -/
def fittedTargets (s : State) : List (Nat × Nat) :=
  (List.range 16).flatMap (fun ch => ((List.range 8).filter (bit (nth (geo s).fitted ch 0))).map (fun t => (ch, t)))

/-- Whether the parameter page of every fitted target has been read, or the target has failed (03 R86). -/
def targetsKnown (s : State) : Bool := (fittedTargets s).all (fun x => decide ((tgtOf s x.1 x.2).state ≠ .uninit))

/-- R86 settled for a copy whose blocks have all verified: it passes, or more than half of its targets differ. BLOCK is then 0: DESIGN CHOICE, the
spec names no failing block there (log entry 60). -/
def tryPass (s : State) : State :=
  match s.boot.loading with
  | some l =>
    if l.ended && targetsKnown s then
      if 2 * s.boot.excluded > (fittedTargets s).length then copyFailed l.copy .content 0 s else copyPassed l s
    else s
  | none => s

/-! ### The loader (03 R85) -/

/-- The key that a header selects, or the cause that refuses it (03 R72, R73). -/
def selectKey (s : State) (h : List Byte) : Cause ⊕ List Byte :=
  if hdrKeySel h = 0 then
    if level s = 2 ∨ hdrKeySize h ≠ 0 then .inl .keyRejected else .inr Config.deviceKey
  else match slotKey s (hdrKeySel h) with
    | none => .inl .keyAbsent
    | some k => if (if hdrKeySize h = 0 then 16 else 32) = k.length then .inr k else .inl .keyRejected

/-- The next candidate's block 0 read: its first checks and its key; a pinned copy of another generation is passed over (03 R85, R90). Its CAUSE stays
as it was, NOT_TRIED: DESIGN CHOICE, the spec names no cause for it (log entry 60). -/
def startCopy (c : Nat) (h : List Byte) (s : State) : State :=
  match headerCause h with
  | .none =>
    if s.boot.pinGen.any (fun g => g ≠ hdrGen h) then nextCandidate (raise 1 7 0 0 s)
    else (match selectKey s h with
      | .inl cause => copyFailed c cause 0 s
      | .inr key => onBoot (fun b => { b with
          key := key, loading := some { copy := c, pinned := b.pinGen, blocks := [h], waiting := true, bad := none, ended := false,
                                                 handed := [] } }) s)
  | cause => copyFailed c cause 0 s

/-- What follows a section's hand-over: HOST answers configuration requests, THERMAL opens the diodes, PEER starts the ports (03 R78, R83,
R84). -/
def sectionTaken (t : Nat) (s : State) : State :=
  if t = 2 then onBoot (fun b => { b with hostOk := true }) s
  else if t = 4 then onBoot (fun b => { b with thermalOk := true }) s
  else if t = 0xC then
    portsTrain (setPort .a (fun q => { q with links := portLinks s .a }) (setPort .b (fun q => { q with links := portLinks s .b }) s))
  else s

/-- A section put in force in its consumer once every block of it has been handed over (03 R77). One whose contents break its chapter's rules
reaches nobody. RWS values that a host has had taken stand above those of the image (03 R98). -/
def handSection (blocks : List (List Byte)) (e : DirEnt) (s : State) : State :=
  match handOver e.type (payloadOf blocks e) s.prm with
  | some x => sectionTaken e.type (onPrm (fun _ => keepTaken s.boot.rwsTaken x) s)
  | none => s

/-- A block handed to the consumer of its section, where its class is as asked (03 R77, R85): a gated one as it is read, an overlapped one once it has
verified. A tag that fails stops neither: the loop of R85 goes on to the last block. -/
def handBlock (l : Loading) (b : Nat) (gated : Bool) (s : State) : State :=
  match sectionOf (nth l.blocks 0 []) b with
  | none => s
  | some e =>
    if decide (gatedType e.type ≠ gated) then s
    else
      let handed := b :: l.handed
      let s := onBoot (fun x => { x with loading := some { l with handed := handed } }) s
      if (List.range e.count).all (fun i => has handed (e.first + i)) then handSection l.blocks e s else s

/-- Whether the loader runs: from step 5 on, until a copy passes or none is left. -/
def mayLoadImage (s : State) : Bool :=
  s.boot.phase ≥ 5 && !s.boot.gates && !s.boot.noImage && !s.safe.stopper && s.flush.isNone && s.therm.shut.isNone

/-- A further block of the copy being loaded. -/
def nextBlock (l : Loading) (blk : List Byte) (s : State) : State :=
  let b := l.blocks.length
  let l := { l with blocks := l.blocks ++ [blk], waiting := true }
  handBlock l b true (onBoot (fun x => { x with loading := some l }) s)

/-- IMAGE_BLOCK_READ: the next block that the loader wants has been read: a header for the order of R89, block 0 of the next candidate, or the
next block of the copy being loaded (03 R85). -/
def execImageBlockRead (line : SpiLine) (sfdp : Option Sfdp) (s : State) : Host.Outcome State Fault Refusal :=
  if !mayLoadImage s then .next s
  else
    let s := readSfdp sfdp s
    if !s.boot.headers then
      (match nextHeader s with
       | some c => .next (readHeader c (flashBlock s c 0 line) (readBlockAt c 0 s))
       | none => .next (orderCopies s))
    else match s.boot.loading with
      | none => (match s.boot.candidates with
        | c :: _ => .next (startCopy c (flashBlock s c 0 line) (readBlockAt c 0 s))
        | [] => .next s)
      | some l =>
        if l.waiting ∨ l.ended then .next s
        else .next (nextBlock l (flashBlock s l.copy l.blocks.length line) (readBlockAt l.copy l.blocks.length s))

/-- Every block is there: the sections are checked, then the targets (03 R75, R76, R81, R86). Where a section check fails, the failing block
is a free value (log entry 7). -/
def endCopy (l : Loading) (s : State) : State :=
  match l.bad with
  | some b => copyFailed l.copy .blockTag b s
  | none => match takeSections l.blocks State.prm0 with
    | .inl cause =>
      let (b, s) := draw s
      copyFailed l.copy cause (b % 2048) s
    | .inr _ => tryPass (onBoot (fun x => { x with loading := x.loading.map (fun l => { l with ended := true }) }) s)

/-- Cleat's count of the blocks of verification (13, CLEAT): 256 AES operations for each image block (03 R68). -/
def countVerify (n : Nat) (s : State) : State := onCleat (fun c => { c with verifyBlocks := sat 32 (c.verifyBlocks + 256 * n) }) s

/-- IMAGE_BLOCK_VERIFIED: the tag of the newest block is right or wrong (03 R71, R85). -/
def execImageBlockVerified (s : State) : Host.Outcome State Fault Refusal :=
  match s.boot.loading with
  | none => .next s
  | some l =>
    if !l.waiting ∨ !mayLoadImage s then .next s
    else
      let h := nth l.blocks 0 []
      let b := l.blocks.length - 1
      let s := countVerify 1 s
      let ok := tagOk s.boot.key h b (nth l.blocks b [])
      if b = 0 && !ok then .next (copyFailed l.copy .headerTag 0 s)
      else
        let l := { l with waiting := false, bad := if ok then l.bad else some (l.bad.getD b) }
        let s := onBoot (fun x => { x with loading := some l }) s
        let s := if ok then handBlock l b false s else s
        if l.blocks.length ≥ hdrLength h then .next (endCopy l s) else .next s

/-! ### Channel start (07 R190), which a copy waits for (03 R86) -/

/-- CHANNEL_START: the sequence of 07 R190 on a channel that is off or has not come to its end. -/
def execChannelStart (ch : Nat) (targets : List TargetStart) (trainFails : Nat) (s : State) : Host.Outcome State Fault Refusal :=
  if ch ≥ 16 ∨ (chan s ch).state > 1 ∨ s.prm.geometry.isNone ∨ ¬ s.pwr.railsOk ∨ s.ps.state ≥ 3 then .next s
  else .next (tryPass (chanStart ch targets trainFails s))

/-- RESET_READY_TIMEOUT: a target not ready 50 ms after the reset of channel start (07 R208). -/
def execResetReadyTimeout (ch tgt : Nat) (s : State) : Host.Outcome State Fault Refusal :=
  if (tgtOf s ch tgt).state = .uninit ∧ (chan s ch).state = 1 then .next (tryPass (failTarget ch tgt 3 [] s)) else .next s

/-! ### Host ready (03 R60, R61) -/

/-- The fault word shown, logged and cleared (02 R48). -/
def tellFault (s : State) : State :=
  let c := s.hly.faultClass
  let n := s.hly.trips
  let s := onHly (fun h => { h with faultClass := 0, trips := 0 }) (onPwr (fun p => { p with lastClass := c, tripsShown := n }) s)
  match c with
  | 1 => raise 0 7 0 0 s
  | 2 => raise 0 7 0 0 s
  | 3 => raise 0 5 c n s
  | 4 => raise 0 5 c n s
  | 5 => raise 0 5 c n s
  | 6 => raise 0 8 0 0 s
  | 7 => raise 0 4 0 0 s
  | 8 => raise 0 6 0 0 s
  | _ => s

/-- Whether the last session ended with a SHUTDOWN record for an input loss (02 R57). -/
def lastLoss (s : State) : Bool :=
  match newestOf s (fun b => match b with
    | .shutdown .. => true
    | _ => false) with
  | some r => (match r.body with
    | .shutdown c .. => decide (c = 1)
    | _ => false)
  | none => false

/-- What earlier sessions left to tell: an input loss (INFO 0.0), the fault word, a device reset from the stopper state (NOTICE 15.11), and
starts that the thermal latch refused (NOTICE 13.7). -/
def tellLast (s : State) : State :=
  let s := if lastLoss s then raise 0 0 0 0 s else s
  let s := tellFault s
  let s := if s.aon.stopped then raise 15 11 0 0 s else s
  let s := if s.aon.refusalsTold > 0 then raise 13 7 s.aon.latchRefusals 0 s else s
  onAon (fun a => { a with stopped := false, stopResets := 0, refusalsTold := 0 }) s

/-- The links of ports whose PHY is up enter their handshakes (09 R255). -/
def linksStart (p : Port) (s : State) : State :=
  if (s.peer.get p).phy = 2 then (List.range (s.peer.get p).links.length).foldl (phyLink p false) s else s

/-- What step 9 needs: the gates are released, the journal and Motur run, and nothing stops the device (03 R60). -/
def mayBeReady (s : State) : Bool :=
  s.boot.gates && s.jrnl.state = 4 && s.map.state = 3 && !s.safe.stopper && s.flush.isNone && s.therm.shut.isNone && !s.boot.hostReady

/-- HOST_READY: step 9 (03 R60). READY_MS is a free value (log entry 7). -/
def execHostReady (s : State) : Host.Outcome State Fault Refusal :=
  if !mayBeReady s then .next s
  else
    let (ms, s) := draw s
    let s := onBoot (fun b => { b with phase := 9, hostReady := true, ready := true, sealed := true, readyMs := ms % 65536 }) s
    let s := setCtl .b (fun c => { c with rdy := c.en }) (setCtl .a (fun c => { c with rdy := c.en }) s)
    let s := tellLast (raise 1 0 0 0 (linksStart .b (linksStart .a s)))
    .next (if s.hx.perstHeld then askHeld s else s)

/-- HOST_READY_LATE: 20 s without host ready: NOTICE 1.11, and start-up continues (03 R61). In the no-image state nothing is raised: DESIGN CHOICE, the
spec does not say whether the limit still runs there (log entry 60). -/
def execHostReadyLate (s : State) : Host.Outcome State Fault Refusal :=
  if s.boot.hostReady ∨ s.boot.noImage ∨ s.boot.phase = 0 then .next s else .next (raise 1 11 0 0 s)

end Sys2Proof.Machine
end

