-- ==== Sys2Proof/Machine/Stage.lean ====
section
/-! DEFINITION. Image Stage (03 R95 to R97, 04 R118): the inactive copy erased, programmed piece by piece, and verified. -/

namespace Sys2Proof.Machine

open Sys2Proof

/-- The copy that a staging writes: the one not in use, or the one the host names in the no-image state (03 R95). -/
def stageTarget (s : State) (copy : Nat) : Nat := if s.boot.noImage then copy else 1 - s.boot.copy

/-- Dword 0 of Image Rejected (04, statuses): the cause, and bit 31 where the flash lacks SFDP. -/
def rejectedDw0 (cause : Cause) (noSfdp : Bool) : Nat := causeCode cause + 2 ^ 31 * b2n noSfdp

/-- A staging refused: STAGE_STATE 5, the cause, ERROR 1.5 (03 R96). -/
def refuseStage (cause : Cause) (s : State) : State :=
  raise 1 5 s.boot.stageCopy (causeCode cause)
    (onBoot (fun b => { b with stageState := 5, stageCause := cause }) (onStage (fun _ => none) s))

/-- Blocks that one piece may carry: 256, and the MDTS limit where the image sets one. -/
def pieceMax (s : State) : Nat := match s.prm.host with
  | some x => min 256 (2 ^ x.mdts)
  | none => 256

/-- One copy of the configuration flash changed. -/
def setCopy (c : Nat) (f : List (List Byte) → List (List Byte)) (s : State) : State := onCfg (fun v => modVec v c f) s

/-- The blocks of a piece's data. -/
def pieceBlocks (count : Nat) (data : List Byte) : List (List Byte) := chunks blockSize count data

/-- Every sector of a copy erased, with SFDP's 4 KiB sector erase (03 R69, 04 R118). -/
def eraseCopy (c : Nat) (s : State) : State :=
  setCopy c (fun _ => []) ((List.range 2048).foldl (fun s b => emit (.spi .sectorErase none none (copyBase c + blockSize * b) []) s) s)

/-- One block of a copy programmed in 256-byte pages, with SFDP's page program (03 R69). -/
def programBlock (c : Nat) (s : State) (x : List Byte × Nat) : State :=
  (chunks 256 16 x.1).zipIdx.foldl (fun s k =>
    emit (.spi .pageProgram none none (copyBase c + blockSize * x.2 + 256 * k.2) k.1) s) s

/-- What follows a piece in order: it is programmed, unless it runs past the image; LAST starts the verification (04 R118). -/
def takePiece (h : Hdr) (g : Staging) (count : Nat) (last : Bool) (data : List Byte) (s : State) : State :=
  let ends := g.next + count
  if ends > 2048 then answer h 7 0x83 (rejectedDw0 .length false) (refuseStage .length s)
  else if ends > g.length ∨ (last ∧ ends ≠ g.length) then answer h 0 0x02 0 (abandonStage s)
  else
    let s := ((pieceBlocks count data).zipIdx.map (fun x => (x.1, g.next + x.2))).foldl (programBlock s.boot.stageCopy) s
    let s := setCopy s.boot.stageCopy (fun l => l ++ pieceBlocks count data) s
    let s := onBoot (fun b => { b with stageState := 2, stageBytes := b.stageBytes + count * blockSize }) s
    if last then
      let (key, s) := newKey s
      addCmd (newCmd key h .stageLast 0 0 0 s.hx.gseq s)
        (onBoot (fun b => { b with stageState := 3 }) (onStage (fun _ => some { g with next := ends, last := some (h.sq, h.cid) }) s))
    else answer h 0 0 0 (onStage (fun _ => some { g with next := ends }) s)

/-- FIRST: SFDP is read again, the header checked, the inactive copy erased, and the piece taken (03 R69, R96). -/
def firstPiece (h : Hdr) (count : Nat) (last : Bool) (copy : Nat) (data : List Byte) (sfdp : Option Sfdp) (s : State) : State :=
  let c := stageTarget s copy
  let hdr := data.take blockSize
  let s := onBoot (fun b => { b with
    stageState := 1, stageCopy := c, stageCause := .none, stageBytes := 0, stageGen := hdrGen hdr }) (emit (.spi .sfdp (some 1) (some (spiPeriod 10)) 0 []) s)
  if sfdp.isNone then answer h 7 0x83 (rejectedDw0 .none true) (refuseStage .none s)
  else match headerCause hdr with
    | .none =>
      let g : Staging := { owner := h.port, next := 0, length := hdrLength hdr, last := none }
      takePiece h g count last data (eraseCopy c (onStage (fun _ => some g) s))
    | cause => answer h 7 0x83 (rejectedDw0 cause false) (refuseStage cause s)

/-- A piece in its place: FIRST with none running, or the next block of the staging that this controller owns (03 R97, 04 R118). -/
def stagePiece (h : Hdr) (block count : Nat) (first last : Bool) (copy : Nat) (data : List Byte) (sfdp : Option Sfdp) (s : State) : State :=
  match s.stage with
  | some g =>
    if first ∨ g.owner ≠ h.port ∨ g.last.isSome ∨ block ≠ g.next then answer h 0 0x0C 0 s
    else takePiece h g count last data s
  | none => if first ∧ block = 0 then firstPiece h count last copy data sfdp s else answer h 0 0x0C 0 s

/-- IMAGE_STAGE (04 R118). The SFDP operand is what the flash shows when it is read again before a staging (03 R69). -/
def execImageStage (h : Hdr) (block count : Nat) (first last : Bool) (copy : Nat) (data : List Byte) (sfdp : Option Sfdp) (s : State) :
    Host.Outcome State Fault Refusal :=
  if data.length ≠ count * blockSize then .fault .illFormed
  else adminAny h (fun s =>
    if count = 0 ∨ count > pieceMax s ∨ block > 2047 ∨ (s.boot.noImage ∧ copy > 1) then answer h 0 0x02 0 s
    else stagePiece h block count first last copy data sfdp s) s

/-- What the read-back verification of a whole copy finds (03 R96): header, key, tags, contents. -/
def verifyCopy (s : State) (blocks : List (List Byte)) : Cause :=
  let h := nth blocks 0 []
  match headerCause h with
  | .none =>
    (match selectKey s h with
     | .inl cause => cause
     | .inr key =>
       if !tagOk key h 0 h then .headerTag
       else if (blocks.zipIdx.drop 1).any (fun x => !tagOk key h x.2 x.1) then .blockTag
       else match takeSections blocks State.prm0 with
         | .inl cause => cause
         | .inr _ => .none)
  | cause => cause

/-- The LAST piece's command. -/
def stageCmd (s : State) (g : Staging) : Option HostCmd :=
  s.cmds.find? (fun c => c.kind = .stageLast && c.port = g.owner)

/-- STAGING_COMPLETE: the read-back verification ends; the LAST piece completes as passed, INFO 1.4, or rejected, ERROR 1.5 (03 R96). -/
def execStagingComplete (s : State) : Host.Outcome State Fault Refusal :=
  match s.stage with
  | none => .next s
  | some g =>
    if g.last.isNone then .next s
    else
      let blocks := vecAt s.cfg s.boot.stageCopy []
      let s := countVerify blocks.length s
      let cause := verifyCopy s blocks
      let done (sct sc dw0 : Nat) (t : State) : State := match stageCmd s g with
        | some c => finish c sct sc dw0 t
        | none => t
      match cause with
      | .none => .next (done 0 0 0 (raise 1 4 0 0 (onBoot (fun b => { b with stageState := 4, stageCause := .none }) (onStage (fun _ => none) s))))
      | c => .next (done 7 0x83 (rejectedDw0 c false) (refuseStage c s))

end Sys2Proof.Machine
end

