-- ==== Sys2Proof/Machine/Thermal.lean ====
section
/-! DEFINITION. Chapter 12: sensors and zones (R333 to R337), thresholds and throttling (R338 to R343), thermal shutdown and its latch (R344 to
R349), compensation and calibration (R351, R352). Temperatures are in units of 0.0625 °C. -/

namespace Sys2Proof.Machine

open Sys2Proof

/-! ### Inputs and zones (12 R333, R335, R337) -/

/-- Whether THERMAL, once verified, declares a NAND zone's diode fitted. -/
def diodeFitted (s : State) (n : Nat) : Bool :=
  s.boot.thermalOk && (match s.prm.thermal with
    | some t => if n = 0 then t.diode0 else t.diode1
    | none => false)

/-- Whether an input is read: a die sensor always, a diode once THERMAL has verified and declares it fitted (12 R335, 03 R84). -/
def inputRead (s : State) (i : Nat) : Bool := i < 6 || diodeFitted s (i - 6)

/-- What a broken input reads as: its zone's shutdown threshold plus 1 °C (12 R337). -/
def brokenReading (i : Nat) : Int := if i < 6 then Config.dieShut + 16 else Config.nandShut + 16

/-- One conversion taken into an input (12 R337). -/
def takeReading (i : Nat) (r : Reading) (x : Input) : Input :=
  let same := if x.same > 0 ∧ r.raw = x.raw then x.same + 1 else 1
  let broken := x.broken || decide (r.value < -640) || decide (r.value > 2400) || decide (same ≥ 60) || (decide (i ≥ 6) && r.fault)
  { reading := if broken then brokenReading i else r.value, raw := r.raw, same := min same 60, broken := broken }

/-- The input at a SOURCE code. -/
def inputAt (s : State) (i : Nat) : Input := nth s.therm.inputs i State.input0

/-- An input sampled; one found broken raises ERROR 13.5 once (12 R337). -/
def sampleInput (rs : Vector Reading 8) (s : State) (i : Nat) : State :=
  if !inputRead s i then s
  else
    let old := inputAt s i
    let new := takeReading i (vecAt rs i { value := 0, raw := 0, fault := false }) old
    let s := onTherm (fun t => { t with inputs := modAt t.inputs i (fun _ => new) }) s
    if new.broken && !old.broken then raise 13 5 i (new.reading % 2 ^ 32).toNat s else s

/-- Whether a DRAM stack reports a code above the high temperature limit (12 R336). -/
def dramHot (s : State) : Bool := s.therm.dram.any Config.dramTooHot

/-- A zone's value: the highest reading of its inputs; NAND zones only where fitted (12 R335, R336). -/
def zoneValue (s : State) (z : Nat) : Option Int :=
  if z < 3 then
    let t := max (inputAt s (2 * z)).reading (inputAt s (2 * z + 1)).reading
    some (if z = 2 ∧ dramHot s then max t Config.dieCrit else t)
  else if diodeFitted s (z - 3) then some (inputAt s (z + 3)).reading else none

/-- The input that gives a zone its value. -/
def zoneSource (s : State) (z : Nat) : Nat :=
  if z < 3 then (if (inputAt s (2 * z + 1)).reading > (inputAt s (2 * z)).reading then 2 * z + 1 else 2 * z) else z + 3

/-- A zone's shutdown, throttle-on and throttle-off thresholds (12 R338). -/
def shutAt (z : Nat) : Int := if z < 3 then Config.dieShut else Config.nandShut
def onAt (z : Nat) : Int := if z < 3 then Config.dieOn else Config.nandOn
def offAt (z : Nat) : Int := if z < 3 then Config.dieOff else Config.nandOff

/-! ### Throttle steps (12 R340 to R343) -/

def stepIdx : StepId → Nat
  | .die => 0
  | .nand0 => 1
  | .nand1 => 2

/-- The zones that count toward a step. -/
def stepZones : StepId → List Nat
  | .die => [0, 1, 2]
  | .nand0 => [3]
  | .nand1 => [4]

/-- The value of a zone as last evaluated. -/
def zoneNow (s : State) (z : Nat) : Option Int := nth s.therm.zones z none

/-- Some zone of a step is at or above throttle on. -/
def stepHot (s : State) (i : StepId) : Bool := (stepZones i).any (fun z => hot (onAt z) (zoneNow s z))

/-- Every zone of a step is below throttle off. -/
def stepCool (s : State) (i : StepId) : Bool := (stepZones i).all (fun z => !hot (offAt z) (zoneNow s z))

def stepNow (s : State) (i : StepId) : Nat := nth s.therm.step (stepIdx i) 0

/-- DUTY or CREDIT of a step: THERMAL's, or 75, 50 and 25 before it has verified (12 R341). -/
def dutyOf (s : State) (k : Nat) : Nat :=
  if k = 0 then 100
  else match s.prm.thermal with
    | some t => nth t.duty (k - 1) 100
    | none => nth [75, 50, 25] (k - 1) 100

/-- A channel's duty: the lower of what the die step and its NAND step set (12 R341). -/
def channelDuty (s : State) (ch : Nat) : Nat :=
  min (dutyOf s (stepNow s .die)) (dutyOf s (stepNow s (if ch < 8 then .nand0 else .nand1)))

/-- Every channel's duty set as the steps say. -/
def applyDuty (s : State) : State :=
  (List.range 16).foldl (fun t ch => setChan ch (fun c => { c with duty := channelDuty s ch }) t) s

/-- A step put at a value, and counted (THERM STEP_CHANGES). -/
def putStep (i : StepId) (k : Nat) (s : State) : State :=
  if stepNow s i = k then s
  else applyDuty (onTherm (fun t => { t with step := modAt t.step (stepIdx i) (fun _ => k), stepChanges := inc 32 t.stepChanges }) s)

/-- A rise: NOTICE 13.1 (12 R340). -/
def riseTo (i : StepId) (k : Nat) (s : State) : State := if stepNow s i < k then raise 13 1 0 0 (putStep i k s) else s

/-- A fall: INFO 13.2 (12 R340). -/
def fallOne (i : StepId) (s : State) : State := raise 13 2 0 0 (putStep i (stepNow s i - 1) s)

/-- STEP_TIMER_EXPIRY: STEP_MS has passed hot, and the step rises; or cool, and it falls (12 R340). -/
def execStepTimerExpiry (i : StepId) (s : State) : Host.Outcome State Fault Refusal :=
  let k := stepNow s i
  if k = 0 then .next s
  else if stepHot s i then .next (riseTo i (min (k + 1) 3) s)
  else if stepCool s i then .next (fallOne i s)
  else .next s

/-- A step started throttled: STEP_1 and NOTICE 13.6 (12 R342). -/
def startThrottled (i : StepId) (s : State) : State :=
  let s := onTherm (fun t => { t with startedThrottled := true }) s
  raise 13 6 0 0 (if stepNow s i = 0 then putStep i 1 s else s)

/-- Some zone of a step lies between throttle off and throttle on. -/
def stepBand (s : State) (i : StepId) : Bool := (stepZones i).any (fun z => match zoneNow s z with
  | some t => decide (offAt z ≤ t) && decide (t < onAt z)
  | none => false)

/-- The line through the last eight one-second means of a zone, each held as a sum of 100 samples, TREND_S seconds on: at throttle on or
above (12 R343; log entry 45). -/
def trendHot (s : State) (trendS : Nat) (z : Nat) : Bool :=
  let ys := (nth s.therm.means z []).reverse
  let sum := ys.foldl (· + ·) 0
  let slope := (ys.zipIdx.map (fun y => (2 * (y.2 : Int) - 7) * y.1)).foldl (· + ·) 0
  decide (ys.length = 8) && decide (21 * sum + slope * (7 + 2 * (trendS : Int)) ≥ 16800 * onAt z)

/-- Whether eight means exist (THERM TREND_VALID). -/
def trendValid (s : State) : Bool := decide ((nth s.therm.means 0 []).length = 8)

/-- A zone's mean ended: 100 samples in RUN and IDLE, the one sample of a second elsewhere (12 R334, R343). -/
def endMean (s : State) (z : Nat) : State :=
  let (sum, n) := nth s.therm.acc z (0, 0)
  let full := if s.ps.state ≤ 1 then n ≥ 100 else n ≥ 1
  if full then
    let y := if s.ps.state ≤ 1 then sum else sum * 100 / (max n 1 : Nat)
    onTherm (fun t => { t with means := modAt t.means z (fun l => (y :: l).take 8), acc := modAt t.acc z (fun _ => (0, 0)) }) s
  else s

/-- One sample taken into the running second of every zone. -/
def takeMeans (s : State) : State :=
  let s := (List.range 5).foldl (fun s z => match zoneNow s z with
    | some t => onTherm (fun x => { x with acc := modAt x.acc z (fun a => (a.1 + t, a.2 + 1)) }) s
    | none => s) s
  (List.range 5).foldl endMean s

/-- TREND_S in force. -/
def trendS (s : State) : Nat := match s.prm.thermal with
  | some t => t.trendS
  | none => 0

/-- Whether the trend of one of a step's zones raises it from STEP_0 (12 R343). -/
def stepTrend (s : State) (i : StepId) : Bool := trendS s ≠ 0 && (stepZones i).any (trendHot s (trendS s))

/-- What one sample does to a step: hot, or the trend, raises it from STEP_0 at once (12 R340, R343). -/
def sampleStep (s : State) (i : StepId) : State :=
  if stepNow s i ≠ 0 then s
  else if stepHot s i then riseTo i 1 s
  else if stepTrend s i then raise 13 8 0 0 (riseTo i 1 s)
  else s

/-! ### Warn, critical, and asynchronous events (12 R339) -/

/-- A zone that has come to a threshold with this sample. -/
def crossed (old new : State) (t : Int) (z : Nat) : Bool := hot t (zoneNow new z) && !hot t (zoneNow old z)

/-- WARN and CRIT, NOTICE 13.0 at most once a minute, ERROR 13.3 and the die step at 3 (12 R339). -/
def warnCrit (old s : State) : State :=
  let s := onTherm (fun t => { t with
    warn := [0, 1, 2].any (fun z => hot Config.dieWarn (zoneNow s z)), crit := [0, 1, 2].any (fun z => hot Config.dieCrit (zoneNow s z)) }) s
  let s := if [0, 1, 2].any (crossed old s Config.dieWarn) then raiseEvery (evKey 13 0) 60 13 0 0 0 s else s
  let s := if [0, 1, 2].any (crossed old s Config.dieCrit) then raise 13 3 0 0 s else s
  if s.therm.crit then riseTo .die 3 s else s

/-- The composite temperature crossing a controller's thresholds (PRESUMED from the NVMe base specification, log entry 14). -/
def tempAen (old s : State) (p : Port) : State :=
  let f := (s.ctl.get p).feat
  let t := kelvin (composite s)
  let u := kelvin (composite old)
  let above := decide (t ≥ f.tempOver) && !(old.therm.sampled && decide (u ≥ f.tempOver))
  let below := decide (t ≤ f.tempUnder) && !(old.therm.sampled && decide (u ≤ f.tempUnder))
  if above || below then postAen p { type := 1, info := 0x01, log := 0x02 } s else s

/-- A wake by temperature (11 R320). -/
def wakeHot (s : State) : State := if (2 ≤ s.ps.state && s.ps.state ≠ 4) && tooHot s then wakeUp 7 s else s

/-! ### Thermal shutdown (12 R344 to R347, R349) -/

/-- Erases of record flash suspended, and those that wait put off (12 R346). -/
def suspendErases (s : State) : State :=
  let j := (s.rf.busy.toList.filterMap id).find? (fun j => isErase j.what)
  onRf (fun r => { r with
    suspended := match j with
      | some j => some j
      | none => r.suspended,
    busy := r.busy.map (fun b => match b with
      | some j => if isErase j.what then none else some j
      | none => none),
    queue := r.queue.filter (fun j => !isErase j.what) }) s

/-- The thermal record (12 R349). -/
def heatRecord (source : Nat) (waited susp : Bool) (s : State) : HeatRec :=
  .thermal source
    (b2n (inputAt s source).broken + 2 * b2n (!s.boot.hostReady) + 4 * b2n waited + 8 * b2n susp)
    (stepNow s .die + 4 * stepNow s .nand0 + 16 * stepNow s .nand1) s.therm.zones
    (nth s.therm.dram 0 0 + 16 * nth s.therm.dram 1 0) s.dev.powerOn s.dev.secs

/-- Steps 2 and 3 of the shutdown: an erase is suspended, and the record goes to the bank that was not erasing, after a program there (12
R346). -/
def writeHeat (source : Nat) (s : State) : State :=
  let b := heatBank s
  let susp := bankErasing s 0 || bankErasing s 1
  let s := suspendErases s
  let waited := bankBusy s b
  let s := onTherm (fun t => { t with shut := some { source := source, grace := true, waited := waited, susp := susp } }) s
  if heatFull s b then s else flashUrgent { bank := b, what := .heat (heatRecord source waited susp s), other := false } s

/-- The spill of step 4; a flush that runs is bounded by the grace from now on (12 R347). -/
def heatSpill (s : State) : State :=
  match s.flush with
  | some f => if f.sealing then s else onFlush (fun _ => some { f with cause := 3 }) s
  | none => beginFlush 3 s

/-- Thermal shutdown begins (12 R344, R347, steps 1 to 4): the latch is set, the notices with cause 2 go out. -/
def beginShutdown (z : Nat) (s : State) : State :=
  let src := zoneSource s z
  let t := (zoneNow s z).getD 0
  s |> onAon (fun a => { a with thermLatch := true, thermAt := some (src, t), latchRefusals := 0, refusalsTold := 0 })
    |> notifyAll 2 true |> writeHeat src |> heatSpill

/-- THERMAL_RECORD_WAIT_TIMEOUT: the program that the record waits for is abandoned (12 R346). -/
def execThermalRecordWaitTimeout (s : State) : Host.Outcome State Fault Refusal :=
  match s.therm.shut with
  | none => .next s
  | some x =>
    let heat (j : FlashJob) : Bool := match j.what with
      | .heat _ => true
      | _ => false
    match s.rf.queue.find? heat with
    | some j => if x.waited then .next (startJobs 2 (onRf (fun r => { r with busy := modVec r.busy j.bank (fun _ => none) }) s)) else .next s
    | none => .next s

/-- THERMAL_GRACE_EXPIRY: the spill stops, the journal is sealed with CAUSE 3, and the core is held in reset with the gate low; CLK_AON keeps
the latch (12 R347, steps 6 to 8). Where the input has failed as well, HOLDUP ends (02 R59). -/
def execThermalGraceExpiry (s : State) : Host.Outcome State Fault Refusal :=
  match s.therm.shut with
  | none => .next s
  | some _ =>
    let s := stopSpill s
    let f : Flush := s.flush.getD { toSpill := [], lastSpilled := 0, spilled := 0, unspilled := 0, cause := 3, sealing := false }
    let s := if s.boot.gates then writeOut (sealFlush 3 f s) else s
    match s.hly.breaker with
    | .holdup _ => .next (endPowerFlush s)
    | _ => .next (gateLow .thermal (coreReset s.aon s))

/-! ### The sample (12 R334) -/

/-- Zones evaluated, with their runs at or above shutdown and the highest value since reset. -/
def takeZones (s : State) : State :=
  let zs := (List.range 5).map (zoneValue s)
  onTherm (fun t => { t with
    zones := zs,
    runs := t.runs.zipIdx.map (fun r => if hot (shutAt r.2) (nth zs r.2 none) then min (r.1 + 1) 2 else 0),
    peak := (zs.filterMap id).foldl (fun m v => some (match m with
      | some p => max p v
      | none => v)) t.peak }) s

/-- A first sample of a step's zones starts it throttled inside the band, or after a thermal shutdown (12 R342). -/
def firstSample (old s : State) (i : StepId) : State :=
  let new := match i with
    | .die => !old.therm.sampled
    | _ => (stepZones i).any (fun z => (zoneNow s z).isSome && (zoneNow old z).isNone)
  if new && stepBand s i then startThrottled i s else s

/-- The second check of a latch release, after THERMAL has verified (in the no-image state, which verifies none, at once): a NAND zone at or
above throttle off refuses it, else the latch clears and every step starts at STEP_1 (12 R348). None: the start is refused. -/
def checkLatch (s : State) : Option State :=
  if !s.aon.thermLatch ∨ !(s.boot.thermalOk || s.boot.noImage) then some s
  else if [0, 1, 2, 3, 4].any (fun z => hot (offAt z) (zoneNow s z)) then none
  else some ([StepId.die, .nand0, .nand1].foldl (fun s i => startThrottled i s)
    (onAon (fun a => { a with thermLatch := false, afterShutdown := true }) s))

/-- SENSOR_SAMPLE: one sample of every input (12 R334 to R344). In OFF nothing is sampled. -/
def execSensorSample (rs : Vector Reading 8) (s : State) : Host.Outcome State Fault Refusal :=
  if s.boot.phase < 5 ∨ s.ps.state = 4 ∨ s.therm.shut.isSome then .next s
  else
    let t := takeMeans (takeZones ((List.range 8).foldl (sampleInput rs) s))
    match (List.range 5).find? (fun z => nth t.therm.runs z 0 ≥ 2) with
    | some z => .next (beginShutdown z t)
    | none =>
      match checkLatch t with
      | none => .next (latchRefuses t)
      | some t =>
        let t := [StepId.die, .nand0, .nand1].foldl (fun t i => sampleStep (firstSample s t i) i) t
        let t := warnCrit s t
        let t := tempAen s (tempAen s t .a) .b
        .next (wakeHot (onTherm (fun x => { x with sampled := true }) t))

/-- DRAM_TEMPERATURE_READ: mode register 4 of each stack; INFO 13.9 for a stack whose refresh rate changes (12 R336). -/
def execDramTemperatureRead (code0 code1 : Nat) (s : State) : Host.Outcome State Fault Refusal :=
  if s.boot.phase < 5 ∨ s.ps.state > 1 then .next s
  else
    let new := [code0 % 16, code1 % 16]
    let changed (i : Nat) : Bool := Config.dramRate (nth new i 0) ≠ Config.dramRate (nth s.therm.dram i 0)
    let t := onTherm (fun x => { x with dram := new }) s
    let t := if changed 0 then raise 13 9 0 0 t else t
    .next (if changed 1 then raise 13 9 0 0 t else t)

/-! ### Compensation and calibration (12 R351, R352) -/

/-- A quotient rounded to the nearest integer, halves away from zero. -/
def roundAway (n : Int) (d : Nat) : Int :=
  let q : Int := ((2 * n.natAbs + d) / (2 * d) : Nat)
  if n < 0 then -q else q

/-- A table's value at a temperature: linear between entries 10 °C apart from −20 °C, the end entries beyond (12 R351). -/
def interpolate (tbl : List Int) (t : Int) : Int :=
  let p := (min (max (t + 320) 0) 2400).toNat
  let i := p / 160
  let f : Int := (p % 160 : Nat)
  roundAway (nth tbl i 0 * (160 - f) + nth tbl (i + 1) 0 * f) 160

/-- The sensor of a compensated item; the other takes the place of a broken one (12 R351). -/
def itemSensor (s : State) (i : Nat) : Nat :=
  let n := if i = 1 ∨ i = 3 then 3 else 2
  if (inputAt s n).broken && !(inputAt s (5 - n)).broken then 5 - n else n

/-- The calibration offset of an item (12 R352). -/
def calOffset (s : State) (i : Nat) : Int :=
  if i = 0 then s.aon.calAon.getD 0 else if i = 2 then s.aon.calRefint.getD 0 else 0

/-- One item compensated: the trim is the fused one plus the correction, within the trim's reach; saturation raises NOTICE 13.10 (12 R351). -/
def compensate (tables : List (List Int)) (s : State) (i : Nat) : State :=
  let c := interpolate (nth tables i []) (inputAt s (itemSensor s i)).reading + calOffset s i
  let fused := Config.fusedTrim i
  let reach : Int := (Config.trimReach i : Nat)
  let total := min (max (fused + c) (-reach)) reach
  let s := onTherm (fun t => { t with trims := modAt t.trims i (fun _ => total - fused) }) s
  if total ≠ fused + c then raise 13 10 0 0 s else s

/-- COMPENSATION: every item, from 100 ms after host ready on (12 R351, 03 R99). -/
def execCompensation (s : State) : Host.Outcome State Fault Refusal :=
  if !s.boot.hostReady ∨ s.ps.state = 4 then .next s
  else match s.prm.thermal with
    | some t => .next ((List.range 5).foldl (compensate t.comp) s)
    | none => .next s

/-- An offset stored within ±2000 ppm (12 R352). -/
def clampPpm (x : Int) : Int := min (max x (-2000)) 2000

/-- An aborted calibration: NOTICE 13.12 at most once per hour (12 R352). -/
def calAborts (code : Nat) (s : State) : State :=
  raiseEvery (evKey 13 12) 3600 13 12 0 0 (onTherm (fun t => { t with calState := code }) s)

/-- CALIBRATION: the offsets of the RC, while CLK_AON runs from it, and of REF_INT against CLK_REF (12 R352). -/
def execCalibration (aonPpm refIntPpm clkRefPpm : Int) (s : State) : Host.Outcome State Fault Refusal :=
  if !s.boot.hostReady ∨ s.ps.state = 4 then .next s
  else if !s.boot.clkRef then .next (calAborts 2 s)
  else
    let s := onTherm (fun t => { t with refPpm := clkRefPpm }) s
    if clkRefPpm.natAbs > 300 then .next (calAborts 3 s)
    else
      let s := onAon (fun a => { a with
        calAon := if a.xtal then a.calAon else some (clampPpm aonPpm), calRefint := some (clampPpm refIntPpm) }) s
      .next (raise 13 11 0 0 (onTherm (fun t => { t with calState := 1 }) s))

/-! ### WAKE_IN_N (11 R325, 12 R348) -/

/-- The gate released by an edge of WAKE_IN_N, with the power-on count one higher (12 R348, 15 R423). -/
def releaseGate (o : GateOrder) (s : State) : State := endOrder o (countPowerOn s)

/-- WAKE_IN_N_FALL: a wake from SLEEP, DEEP, PATROL and OFF, or the release of the thermal latch (11 R325, 12 R348). -/
def execWakeInNFall (s : State) : Host.Outcome State Fault Refusal :=
  let s := onPs (fun p => { p with wakeLow := true, wakeTold := false }) s
  if s.aon.thermLatch ∧ s.hly.held = some .thermal then .next (releaseGate .thermal s)
  else if s.ps.state = 4 then .next (releaseGate .powerOff (onPs (fun p => { p with state := 0, lastWake := 5 }) s))
  else .next (wakeUp 5 s)

end Sys2Proof.Machine
end

