-- ==== Sys2Proof/Machine/Lanyard.lean ====
section
/-! DEFINITION. Chapter 14: the diagnostics of Lanyard (R386 to R393), the halt of the media and the order of a device reset (R394 to R399). -/

namespace Sys2Proof.Machine

open Sys2Proof

/-! ### What is watched -/

/-- Lanyard watches a core that is out of reset, in every power state but OFF (14 R385, R400). -/
def lanyardRuns (s : State) : Bool := s.pwr.railsOk && s.ps.state ≠ 4

/-- Whether a participant's heartbeats are masked: from its agreement to stop until it restarts (14 R388); in PATROL the media path, the ECC path
and the journal run (11 R329; log entry 46). -/
def hbMasked (s : State) (p : Nat) : Bool :=
  (match s.ps.hs with
   | some h => has h.stopped p
   | none => false) ||
  (match s.ps.state with
   | 1 => has [1, 3, 4] p
   | 2 => true
   | 3 => true
   | 5 => !has [6, 7, 8] p
   | _ => false)

/-- HB_MASK (SAFE). -/
def hbMask (s : State) : Nat := sumN (((List.range 13).filter (fun p => p ≥ 1 && hbMasked s p)).map (fun p => 2 ^ p))

/-- The participant whose state machine is a heartbeat source (14, heartbeat sources; 11 R315; log entry 46); the power-state controller is none. -/
def sourcePart (n : Nat) : Option Nat :=
  if n < 16 then some 7
  else match n with
    | 16 => some 1
    | 17 => some 1
    | 18 => some 2
    | 19 => some 2
    | 20 => some 1
    | 21 => some 4
    | 22 => some 8
    | 23 => some 3
    | 25 => some 5
    | 26 => some 9
    | 27 => some 12
    | 28 => some 6
    | 29 => some 11
    | _ => none

/-- Whether a heartbeat source emits no pulse now: its participant is masked, or CLK_CORE is gated under the power-state controller. -/
def sourceMasked (s : State) (n : Nat) : Bool := match sourcePart n with
  | some p => hbMasked s p
  | none => 1 ≤ s.ps.state && s.ps.state ≤ 3

/-- Whether a clock of 00 R11 is gated by the power state (11 R308), or has no source: CLK_HOST without CLK_REF (03 R63). -/
def clockMasked (s : State) (d : Nat) : Bool :=
  (d = 0 && !s.boot.clkRef) ||
  (match s.ps.state with
   | 1 => d = 3
   | 2 => !has [10, 11, 13] d
   | 3 => !has [10, 11] d
   | 5 => !has [4, 5, 8, 10, 11] d
   | _ => false)

/-! ### Diagnostics (14 R388 to R393) -/

/-- HEARTBEAT_MISSED: no pulse for 2 × HB_US: DANGER 15.2 with the source number (14 R388). -/
def execHeartbeatMissed (source : Nat) (s : State) : Host.Outcome State Fault Refusal :=
  if lanyardRuns s ∧ source < 30 ∧ ¬ sourceMasked s source then .next (danger 15 2 source s) else .next s

/-- LOCKSTEP_MISMATCH: DANGER 15.1 with the pair (14 R389). -/
def execLockstepMismatch (pair : Nat) (s : State) : Host.Outcome State Fault Refusal :=
  if lanyardRuns s ∧ pair < 4 then .next (danger 15 1 pair s) else .next s

/-- A corrected word counted, NOTICE 15.10 at most once per minute (14 R390). -/
def countCorrected (mem : Nat) (s : State) : State :=
  raiseEvery (evKey 15 10) 60 15 10 0 0 (onSafe (fun f =>
    if mem = 0 then { f with corrDram := inc 32 f.corrDram }
    else if mem = 1 then { f with corrSram := inc 32 f.corrSram }
    else { f with corrMram := inc 32 f.corrMram }) s)

/-- An uncorrectable word: DANGER 15.5 in DRAM or SRAM with the memory and the word address divided by 8; in the MRAM the slot's record is one
that cannot be read, which outside the records in flight is DANGER 4.21 (14 R390, 05 R143). -/
def badWord (mem addr : Nat) (s : State) : State :=
  if mem ≤ 1 then danger 15 5 ((mem + 4 * (addr / 8)) % 2 ^ 32) s
  else if (inFlight s).any (fun r => slotOf r.recno = addr / 64) then s
  else danger 4 21 0 s

def scrubWord (s : State) : MemWord → State
  | .corrected m => if m < 3 then countCorrected m s else s
  | .uncorrectable m a => if m < 3 then badWord m a s else s

/-- SCRUB: the words that the scrub or an access found (14 R390). -/
def execScrub (found : List MemWord) (s : State) : Host.Outcome State Fault Refusal :=
  if lanyardRuns s then .next (found.foldl scrubWord s) else .next s

/-- A domain shown in CLK_FAULT, and DANGER 15.3 (14 R391). -/
def clockFault (d : Nat) (freq : Bool) (s : State) : State :=
  danger 15 3 (d + 256 * b2n freq) (onSafe (fun f => { f with clkFault := if bit f.clkFault d then f.clkFault else f.clkFault + 2 ^ d }) s)

/-- Whether the clock monitors watch a domain: they arm at step 5 (03 R60). -/
def clockWatched (s : State) (d : Nat) : Bool := lanyardRuns s && s.boot.phase ≥ 5 && d < 14 && !clockMasked s d

/-- CLOCK_LOST: a missing-edge detector trips (14 R391). -/
def execClockLost (domain : Nat) (s : State) : Host.Outcome State Fault Refusal :=
  if clockWatched s domain then .next (clockFault domain false s) else .next s

/-- Whether a window's count lies outside ±CLK_TOL_PCT of nominal. -/
def offTolerance (s : State) (count nominal : Nat) : Bool :=
  ((count : Int) - (nominal : Int)).natAbs * 100 > s.prm.safety.clkTolPct * nominal

/-- FREQUENCY_CHECK_WINDOW: the second bad window in a row is a frequency fault; CLK_AON is not counted (14 R391). -/
def execFrequencyCheckWindow (domain count nominal : Nat) (s : State) : Host.Outcome State Fault Refusal :=
  if clockWatched s domain ∧ domain ≠ 11 then
    let bad := offTolerance s count nominal
    let n := if bad then nth s.safe.windows domain 0 + 1 else 0
    let s := onSafe (fun f => { f with windows := modAt f.windows domain (fun _ => min n 2) }) s
    .next (if n ≥ 2 then clockFault domain true s else s)
  else .next s

/-- SUPPLY_DISAGREE: Lanyard's monitor of VDD_CORE, VDD_SRAM or VDD_IO disagrees for 100 µs: DANGER 15.6 with the rail's index (14 R391). -/
def execSupplyDisagree (rail : Nat) (s : State) : Host.Outcome State Fault Refusal :=
  if lanyardRuns s ∧ rail < 3 then .next (danger 15 6 rail s) else .next s

/-- FAULT_N_READBACK: the pad must read high while FAULT_N is released and low while it is asserted; a wrong reading that lasts 1 ms is DANGER
15.7, only recorded where FAULT_N is asserted already (14 R392). -/
def execFaultNReadback (padHigh lastedMs : Bool) (s : State) : Host.Outcome State Fault Refusal :=
  let s := onSafe (fun f => { f with padHigh := padHigh }) s
  if lanyardRuns s ∧ lastedMs ∧ padHigh = s.safe.stopper then .next (danger 15 7 0 s) else .next s

/-- A diagnostic class that fails its test: DANGER 15.9 with the class (14 R393). -/
def failClass (s : State) (c : Nat) : State :=
  danger 15 9 c (onSafe (fun f => { f with stFail := if bit f.stFail c then f.stFail else f.stFail + 2 ^ c }) s)

/-- SELF_TEST: every class tested; a pass of all raises INFO 15.0 (14 R393). -/
def execSelfTest (failing : List Nat) (s : State) : Host.Outcome State Fault Refusal :=
  if !lanyardRuns s then .next s
  else
    let s := onSafe (fun f => { f with stAge := 0 }) s
    match (List.range 8).filter (has failing) with
    | [] => .next (raise 15 0 0 0 (onSafe (fun f => { f with selftests := inc 32 f.selftests }) s))
    | cs => .next (cs.foldl failClass s)

/-- LIVE_TOGGLE_LOST: a domain latches its own stopper state; DANGER 15.8 where Lanyard has raised no DANGER event (14 R386). -/
def execLiveToggleLost (s : State) : Host.Outcome State Fault Refusal :=
  if lanyardRuns s ∧ ¬ s.safe.stopper then .next (dangerT 15 8 0 true s) else .next s

/-! ### The stopper state (14 R394 to R399) -/

/-- STOPPER_MEDIA_HALT: step 7, once the NAND work in flight has ended. The spill of R396 begins, unless none is made or a flush that runs is
the spill (14 R394, R396, coincidences). -/
def execStopperMediaHalt (s : State) : Host.Outcome State Fault Refusal :=
  if !s.safe.stopper ∨ s.safe.halted ∨ s.media.progs.any (fun p => p.run.issued) ∨ s.media.erases.any (fun e => e.run.issued) then .next s
  else
    let s := onSafe (fun f => { f with halted := true }) s
    if s.safe.noSpill then .next (onSafe (fun f => { f with spilled := true }) s)
    else if s.flush.isSome ∨ s.therm.shut.isSome then .next s
    else .next (beginFlush 4 s)

/-- A device reset ordered: it waits for step 9, or step 7 (14 R398); after three in a row without host ready none is made (14 R399). -/
def orderReset (s : State) : State :=
  if s.safe.stopper ∧ s.aon.stopResets < 3 then onSafe (fun f => { f with order := true }) s else s

/-- The value that orders the device reset, in the low 16 bits of its register (14 R398). -/
def stopCode (v : Word) : Bool := v.toNat % 65536 = 0xA5C3

/-- STOP_RESET written (14 R398). -/
def stopWrite (v : Word) (s : State) : State := if stopCode v then orderReset s else s

/-- STOP_RESET: a host writes it (14 R398). -/
def execStopReset (p : Port) (v : Word) (s : State) : Host.Outcome State Fault Refusal :=
  if bar2Open s p then .next (stopWrite v s) else .next s

/-- STOP_HOLD_EXPIRY: STOP_HOLD_S seconds since step 3, where it is not 0 (14 R398). -/
def execStopHoldExpiry (s : State) : Host.Outcome State Fault Refusal :=
  if s.prm.safety.stopHoldS ≠ 0 then .next (orderReset s) else .next s

end Sys2Proof.Machine
end

