-- ==== Sys2Proof/Machine/Messages.lean ====
section
/-! DEFINITION. The messages of the Yeldo link: orders (09 R243, R244), mirror copies (R245, 10 R281), long braids (10 R283 to R287),
reads between bricks (10 R282, R287, R288), and a builder's and a member's part of a splice (10 R291 to R304). -/

namespace Sys2Proof.Machine

open Sys2Proof

/-! ### Orders -/

/-- Whether a peer entry's ORDERS bit permits a kind of order (09 R236). -/
def permits (s : State) (p : Port) (l kind : Nat) : Bool := match (linkBy s p l).bind (fun k => peerEntry s k.entry) with
  | some e => 1 ≤ kind && kind ≤ 4 && bit e.orders (kind - 1)
  | none => false

/-- The answer kept for a TAG (09 R244). -/
def answeredTag (s : State) (p : Port) (l tag : Nat) : Option Answered :=
  (linkBy s p l).bind (fun k => k.tags.find? (fun a => a.tag = tag))

/-- A losing order of a peer. -/
def peerLoses (p : Port) (l tag : Nat) (s : State) : State := refusePeer p l tag 1 (countConflict s)

/-- A RESPONSE sent once a record is durable (05 R132). -/
def answerLater (recno : Nat) (p : Port) (l tag : Nat) (s : State) : State :=
  let msg : Msg := { op := 2, status := 0, head := { head0 with tag := tag }, arg := 0, body := .none }
  onBraid (fun b => { b with owed := b.owed ++ [{ recno := recno, port := p, link := l, msg := msg }] }) s

/-- A peer's order on write protection (kind 2): argument byte 0 is the state, as in NS_STATE (log entry 32). -/
def peerProtect (p : Port) (l tag nsid v : Nat) (s : State) : State :=
  if (nsOf s nsid).isNone then refusePeer p l tag 3 s
  else if v > 2 then refusePeer p l tag 2 s
  else if protectLoses s nsid v then peerLoses p l tag s
  else
    let s := noteOrder (.protect nsid) (peerMaster p) v (protectBeats nsid v s)
    let (n, s) := journal (jrec s.hx.gseq (.nsState nsid v)) s
    answerLater n p l tag s

/-- A peer's order on a splice (kind 3): only ABORT, argument byte 0 = 3, by a brick of either layout (log entry 32). -/
def peerSplice (p : Port) (l tag nsid v : Nat) (s : State) : State :=
  match spliceOf s nsid with
  | none => refusePeer p l tag 3 s
  | some sp =>
    let entry := match linkBy s p l with
      | some k => k.entry
      | none => 99
    let old := (layoutBy s sp.old).getD (layout0 s)
    if v ≠ 3 ∨ ¬ (has sp.builders entry ∨ has (others s old) entry) then refusePeer p l tag 2 s
    else if sp.phase = .release ∨ sp.phase = .switch ∨ sp.phase = .aborted then peerLoses p l tag s
    else
      let (n, s) := abortSplice sp (noteOrder (.splice nsid) (peerMaster p) 3 s)
      answerLater n p l tag s

/-- A peer's order on a feature (kind 4): argument byte 0 is the feature, byte 1 the controller, bytes 4 to 7 the value (log entry 32). -/
def peerFeature (p : Port) (l tag nsid : Nat) (args : List Byte) (s : State) : State :=
  let fid := rd args 0 1
  let q := if rd args 1 1 = 2 then Port.b else Port.a
  let v := rd args 4 4
  if !knownFeature fid || fid = 0x02 || nsFeature fid then refusePeer p l tag 2 s
  else if featureLoses s (featObj q fid) (peerMaster p) then peerLoses p l tag s
  else if (refuseValue s q fid v).isSome then refusePeer p l tag 2 s
  else answerOrder p l tag 0 (setPlain q fid nsid v 0#128 (noteOrder (featObj q fid) (peerMaster p) v s))

/-- Whether the handshake under way is for a peer's order of that TAG, which is answered as the handshake ends. -/
def shakesFor (s : State) (p : Port) (l tag : Nat) : Bool := match s.ps.hs with
  | some h => decide (h.asker = .peer p l tag) || h.also.contains (p, l, tag)
  | none => false

/-- A peer's order acted on: at most once, and only where its entry permits the kind (09 R236, R244, 11 R314). -/
def takeOrder (p : Port) (l : Nat) (m : Head) (kind : Nat) (args : List Byte) (s : State) : State :=
  match answeredTag s p l m.tag with
  | some a => sendMsg p l { op := 2, status := a.status, head := { head0 with tag := a.tag }, arg := 0, body := .none } s
  | none =>
    if s.braid.owed.any (fun o => o.port = p && o.link = l && o.msg.op = 2 && o.msg.head.tag = m.tag) || shakesFor s p l m.tag then s
    else if !permits s p l kind then refusePeer p l m.tag 2 s
    else match kind with
      | 1 => (match codePwr (rd args 0 1) with
        | some st => orderPower (.peer p l m.tag) st s
        | none => refusePeer p l m.tag 2 s)
      | 2 => peerProtect p l m.tag m.nsid (rd args 0 1) s
      | 3 => peerSplice p l m.tag m.nsid (rd args 0 1) s
      | _ => peerFeature p l m.tag m.nsid args s

/-- ORDER (09 R243, R244). -/
def execOrder (f : Frm) (m : Head) (kind : Nat) (args : List Byte) (s : State) : Host.Outcome State Fault Refusal :=
  onMsg f (msgOf 0x01 m kind (.args args)) (takeOrder f.port f.link m kind args) s

/-- RESPONSE: a peer's answer to an order of this brick; the spec gives it no further effect (09 R243). -/
def execResponse (f : Frm) (m : Head) (status : Nat) (s : State) : Host.Outcome State Fault Refusal :=
  onMsg f { msgOf 0x02 m 0 .none with status := status } (fun s => s) s

/-! ### Status -/

/-- The content of STATUS: power state, stopper flag, image generation, critical warning (09 R243; log entry 32 for the places). -/
def statusArgs (s : State) : List Byte :=
  le 1 s.ps.state ++ le 1 (b2n s.safe.stopper) ++ zeros 2 ++ le 4 s.boot.genUsed ++ [criticalWarning s]

/-- STATUS_REQ: answered by STATUS under the request's TAG (09 R243). -/
def execStatusReq (f : Frm) (m : Head) (s : State) : Host.Outcome State Fault Refusal :=
  onMsg f (msgOf 0x30 m 0 .none) (fun s =>
    sendMsg f.port f.link { op := 0x31, status := 0, head := { head0 with tag := m.tag }, arg := 0, body := .args (statusArgs s) } s) s

/-- STATUS: kept for its link (09 R243). -/
def execStatus (f : Frm) (m : Head) (pstate : Nat) (stopper : Bool) (imageGen : Nat) (critical : Byte) (s : State) :
    Host.Outcome State Fault Refusal :=
  onMsg f (msgOf 0x31 m 0 (.args (zeros 9)))
    (setLink f.port f.link (fun k => { k with status := some (pstate, stopper, imageGen, critical) })) s

/-! ### Extents received -/

/-- The highest write sequence received, for R272. -/
def sawGseq (g : Nat) (s : State) : State := onBraid (fun b => { b with rxGseq := max b.rxGseq g }) s

/-- A block's check as it came, verified (01 R24, 09 R245). -/
def checkOk (s : State) (nsid lba : Nat) (b : CheckedBlk) : Bool := b.check = blockCheck nsid lba (nsMeta s nsid) b.blk

/-- The block as it is kept: zero metadata where the namespace carries none (07 R203). -/
def keptBlk (s : State) (nsid : Nat) (b : Blk) : Blk := if nsMeta s nsid then b else { b with hm := zeros 64 }

/-- An acknowledgement at once. -/
def ackNow (op : Nat) (p : Port) (l : Nat) (m : Head) (status : Nat) (s : State) : State :=
  sendMsg p l { op := op, status := status, head := m, arg := 0, body := .none } s

/-- A received extent, with nothing of it yet. Its tokens are filling, or waiting while too few are free: then its data stays in the
receive buffer (09 R246). -/
def rxExtent (o : Origin) (p : Port) (m : Head) (slba nlb1 : Nat) (dealloc : Bool) (id : Nat) (s : State) : Extent :=
  let tok := if nlb1 + 1 ≤ tokensFree s then Tok.filling else Tok.waiting
  { id := id, origin := o, port := p, nsid := m.nsid, slba := slba, nlb1 := nlb1, ext := m.ext, gseq := m.gseq, stamp := s.hx.stamp,
    mode := { buffered := false, fua := false, dealloc := dealloc, mirrored := false, dual := false }, layout := m.layout,
    blks := if dealloc then [] else List.replicate (nlb1 + 1) { emptyBlk with tok := tok }, recno := none, durable := false,
    stopped := false, waitOn := [], acked := 0, builders := [], resent := [], compRec := none, zero := false, rxHeld := 0 }

/-- Blocks put into a received extent from an offset. -/
def putBlks (s : State) (off : Nat) (bs : List CheckedBlk) (e : Extent) : Extent :=
  { e with blks := (bs.zipIdx).foldl (fun l b => modAt l (off + b.2) (fun x =>
      { x with blk := some (keptBlk s e.nsid b.1.blk), check := b.1.check })) e.blks }

/-- The credit of a frame whose data an extent has taken: granted again at once, unless its tokens wait (09 R246). -/
def takeCredit (p : Port) (l v c id : Nat) (s : State) : State :=
  match extBy s id with
  | some e => if e.blks.any (fun b => b.tok = .waiting) then setExt id (fun e => { e with rxHeld := e.rxHeld + c }) s
    else leaveBuffer p l v c s
  | none => leaveBuffer p l v c s

/-- Whether an origin is a mirrored or long-braid write received. -/
def sameKind (a b : Origin) : Bool := match a, b with
  | .mirror .., .mirror .. => true
  | .longData .., .longData .. => true
  | .longParity .., .longParity .. => true
  | _, _ => false

/-- The received extent that a frame belongs to. -/
def rxFind (s : State) (o : Origin) (m : Head) (slba : Nat) : Option Extent :=
  s.exts.find? (fun e => sameKind e.origin o && e.nsid = m.nsid && e.gseq = m.gseq && e.ext = m.ext && e.slba = slba)

/-- Whether every block of an extent is held already under its sequence or a newer one (09 R244). -/
def heldAlready (s : State) (nsid slba nlb1 gseq : Nat) : Bool :=
  (List.range (nlb1 + 1)).all (fun i => gseqAt s nsid (slba + i) ≥ gseq)

/-- Whether the frames of an extent are being discarded, since a check of it has failed and it has not started again (09 R245). -/
def rxFailing (s : State) (m : Head) (slba : Nat) : Bool := s.braid.rxFailed.any (fun x => decide (x = (m.nsid, m.gseq, m.ext, slba)))

/-- A check of an extent has failed: the frames that are still to come of it are discarded. -/
def rxFails (m : Head) (slba : Nat) (more : Bool) (s : State) : State :=
  if more then onBraid (fun b => { b with rxFailed := b.rxFailed ++ [(m.nsid, m.gseq, m.ext, slba)] }) s else s

/-- The first frame of an extent starts it again. -/
def rxStarts (m : Head) (slba extOff : Nat) (s : State) : State :=
  if extOff = 0 then onBraid (fun b => { b with rxFailed := b.rxFailed.filter (fun x => x ≠ (m.nsid, m.gseq, m.ext, slba)) }) s else s

/-- Whether the checks of the blocks of a frame are right (01 R24, 09 R245). -/
def checksOk (s : State) (m : Head) (bs : List CheckedBlk) : Bool := (bs.zipIdx).all (fun b => checkOk s m.nsid (m.slba + b.2) b.1)

/-- A frame of an extent received (09 R244, R245, 10 R281, R285). `ackOp` is the opcode of its acknowledgement. -/
def rxBlocks (o : Origin) (ackOp : Nat) (f : Frm) (m : Head) (extNlb1 extOff : Nat) (bs : List CheckedBlk) (c : Nat) (s : State) : State :=
  let v := if ackOp = 0x11 then 1 else 2
  let slba := m.slba - extOff
  let done (s : State) : State := leaveBuffer f.port f.link v c s
  let whole : Head := { m with slba := slba, nlb1 := extNlb1 }
  let s := rxStarts m slba extOff (sawGseq m.gseq s)
  if rxFailing s m slba then done s
  else if !checksOk s m bs then
    let s := rxFails m slba (extOff + bs.length ≤ extNlb1) s
    let s := match rxFind s o m slba with
      | some e => if e.recno.isNone then onExts (fun es => es.filter (fun x => x.id ≠ e.id)) (leaveBuffer f.port f.link v e.rxHeld s) else s
      | none => s
    ackNow ackOp f.port f.link whole 5 (done s)
  else match rxFind s o m slba with
    | some e =>
      if e.recno.isSome then done (setExt e.id (fun e => { e with origin := o }) s)
      else takeCredit f.port f.link v c e.id (setExt e.id (fun e => { putBlks s extOff bs e with origin := o }) s)
    | none =>
      if heldAlready s m.nsid slba extNlb1 m.gseq && s.map.state = 3 then
        done (if extOff + bs.length > extNlb1 then ackNow ackOp f.port f.link whole 0 s else s)
      else
        let (id, s) := newKey s
        let e := rxExtent o f.port m slba extNlb1 false id s
        takeCredit f.port f.link v c id (onExts (fun es => es ++ [putBlks s extOff bs e]) s)

/-- Why a received write is refused: no matching namespace or layout, or write protection (09, status codes). -/
def rxRefusal (s : State) (m : Head) (ok : Layout → Bool) : Option Nat :=
  match nsOf s m.nsid with
  | none => some 3
  | some n =>
    let l := (layoutBy s m.layout).getD (layout0 s)
    let known := (nsLayout s m.nsid).id = m.layout || s.braid.reserves.any (fun r => r.nsid = m.nsid && r.new = m.layout)
    if !known || l.pos = 0 || !ok l then some 3
    else if nsWp s n || s.map.capWp then some 4
    else none

/-- A block record as a dual-written block gives it. -/
def asRecord (gseq : Nat) (b : CheckedBlk) : BlockRec := { check := b.check, gseq := gseq, unmapped := false, lost := false, blk := b.blk }

/-- The reservation of a builder whose copy is built in the splice run. -/
def runReserve (s : State) (nsid layout : Nat) : Option Reserve :=
  s.braid.reserves.find? (fun r => r.nsid = nsid && r.run && r.new = layout)

/-- The blocks of a received extent that are no older than the run's, written into it (09 R244). -/
def newerRun (r : Reserve) (slba gseq : Nat) (bs : List CheckedBlk) (s : State) : State :=
  (bs.zipIdx).foldl (fun s b =>
    if (runRec s r.nsid r.new (slba + b.2)).gseq ≤ gseq then intoRun r.nsid r.new (slba + b.2) [asRecord gseq b.1] s else s) s

/-- A frame of an extent for the splice run: the extent is written once it is whole, and nothing of it is kept where a check fails (09 R244, R245,
10 R294). -/
def takeRunPart (r : Reserve) (f : Frm) (m : Head) (extNlb1 extOff : Nat) (blks : List CheckedBlk) (s : State) : State :=
  let slba := m.slba - extOff
  let whole : Head := { m with slba := slba, nlb1 := extNlb1 }
  let mine (x : RunPart) : Bool := x.nsid = m.nsid && x.gseq = m.gseq && x.ext = m.ext && x.slba = slba
  let had := if extOff = 0 then [] else ((s.braid.runParts.filter mine).flatMap (fun x => x.blks))
  let s := rxStarts m slba extOff (onBraid (fun b => { b with runParts := b.runParts.filter (fun x => !mine x) }) s)
  let last := extOff + blks.length > extNlb1
  if rxFailing s m slba then s
  else if !checksOk s m blks then ackNow 0x11 f.port f.link whole 5 (rxFails m slba (!last) s)
  else if last then ackNow 0x11 f.port f.link whole 0 (newerRun r slba m.gseq (had ++ blks) s)
  else onBraid (fun b => { b with runParts := b.runParts ++
    [{ nsid := m.nsid, gseq := m.gseq, ext := m.ext, slba := slba, blks := had ++ blks }] }) s

/-- A MIRROR_WRITE taken. -/
def takeMirror (f : Frm) (m : Head) (extNlb1 extOff : Nat) (blks : List CheckedBlk) (c : Nat) (s : State) : State :=
  match rxRefusal s m isMirror with
  | some st => ackNow 0x11 f.port f.link { m with slba := m.slba - extOff, nlb1 := extNlb1 } st (leaveBuffer f.port f.link 1 c s)
  | none => match runReserve s m.nsid m.layout with
    | some r => takeRunPart r f m extNlb1 extOff blks (sawGseq m.gseq (leaveBuffer f.port f.link 1 c s))
    | none => rxBlocks (.mirror f.port f.link m.tag) 0x11 f m extNlb1 extOff blks c s

/-- MIRROR_WRITE: a member keeps the blocks of an extent, which it places like a write of its own and acknowledges once its COMPLETION
record is durable (10 R281). -/
def execMirrorWrite (f : Frm) (m : Head) (extNlb1 extOff : Nat) (blks : List CheckedBlk) (s : State) :
    Host.Outcome State Fault Refusal :=
  .next (onData f (msgOf 0x10 m (extNlb1 + 256 * extOff) (.blocks blks)) (takeMirror f m extNlb1 extOff blks) s)

/-! ### Acknowledgements received -/

/-- The peer entry of a link. -/
def entryOn (s : State) (p : Port) (l : Nat) : Nat := match linkBy s p l with
  | some k => k.entry
  | none => 99

/-- The bit of PEERS for a peer: the n-th mirror peer of the layout (05 R130). -/
def peersBit (s : State) (e : Extent) (entry : Nat) : Nat :=
  let l := (layoutBy s e.layout).getD (layout0 s)
  match (others s l).findIdx? (fun x => x = entry) with
  | some i => 2 ^ i
  | none => 0

/-- The first occurrence of a number dropped. -/
def dropNat (n : Nat) (l : List Nat) : List Nat := dropFirst (fun x => x = n) l

/-- A replayed extent whose copies are all acknowledged, its COMPLETION durable, has ended (05 R146). -/
def dropOwed (s : State) : State :=
  onExts (fun es => es.filter (fun e => !(decide (e.origin = .replay) && e.waitOn.isEmpty && (match e.compRec with
    | some n => n ≤ s.jrnl.horizon
    | none => false)))) s

/-- A peer has its part of an extent (01 R27, 10 R281, R285). -/
def peerHas (id entry : Nat) (s : State) : State :=
  settle (dropOwed (setExt id (fun e => { e with
    acked := if has e.waitOn entry then e.acked ||| peersBit s e entry else e.acked, waitOn := dropNat entry e.waitOn,
    builders := e.builders.filter (fun x => x ≠ entry) }) s))

/-- A peer answered CHECK_FAILED: the DRAM copy is verified again, and where it is right the extent is sent once more; the second time ERROR g.7, and
a mismatch at the DRAM-to-peer hand-off, the fifth of 01 R29, which a DRAM copy that fails its check is too (09 R245). `again` sends the extent. -/
def peerCheckFailed (f : Frm) (e : Extent) (entry : Nat) (dramOk : Bool) (again : State → State) (s : State) : State :=
  if has e.resent entry then
    settle (mediaCheckFailed 4 e (raise (peerGroup f.port) 7 f.link (nodeLow s entry) s))
  else if !dramOk then settle (mediaCheckFailed 4 e s)
  else again (setExt e.id (fun e => { e with resent := entry :: e.resent }) s)

/-- A dual-write that fails at a builder: the hank is dirty, and the extent waits for that builder no longer (10 R294). -/
def builderFailed (e : Extent) (entry : Nat) (s : State) : State :=
  let s := match spliceOf s e.nsid with
    | some p => markDirty p.id (e.slba / 32) s
    | none => s
  settle (setExt e.id (fun e => { e with builders := e.builders.filter (fun x => x ≠ entry) }) s)

/-- The extent that an acknowledgement of a peer is for. -/
def ackedExt (s : State) (m : Head) (entry : Nat) : Option Extent :=
  s.exts.find? (fun e => e.nsid = m.nsid && e.gseq = m.gseq && e.ext = m.ext && (has e.waitOn entry || has e.builders entry))

/-- What a MIRROR_ACK does. Any other status leaves the extent waiting for that peer (09 R259; log entry 33). -/
def takeMirrorAck (f : Frm) (m : Head) (status : Nat) (dramOk : Bool) (s : State) : State :=
  let entry := entryOn s f.port f.link
  match ackedExt s m entry with
  | none => s
  | some e =>
    if status = 0 then dualCheck (trySwitches (peerHas e.id entry s))
    else if has e.builders entry then builderFailed e entry s
    else if status = 5 then peerCheckFailed f e entry dramOk (fun s => sendCopy e s entry) s
    else s

/-- MIRROR_ACK (10 R281, 09 R245). -/
def execMirrorAck (f : Frm) (m : Head) (a : AckStatus) (s : State) : Host.Outcome State Fault Refusal :=
  onMsg f { msgOf 0x11 m 0 .none with status := a.status } (takeMirrorAck f m a.status a.dramOk) s

/-! ### Long braids -/

/-- Whether a layout is a long braid. -/
def isLong (l : Layout) : Bool := l.cross = 5

/-- An LB_WRITE taken by the data holder (10 R285, step 3). -/
def takeLbWrite (f : Frm) (m : Head) (dealloc : Bool) (extNlb1 extOff : Nat) (blks : List CheckedBlk) (c : Nat) (s : State) : State :=
  let whole : Head := { m with slba := m.slba - extOff, nlb1 := extNlb1 }
  let o : Origin := .longData f.port f.link m.tag
  let l := (layoutBy s m.layout).getD (layout0 s)
  match (nsOf s m.nsid), (isLong l && (nsLayout s m.nsid).id = m.layout && holderPos l m.slba = l.pos) with
  | none, _ => ackNow 0x22 f.port f.link whole 3 (leaveBuffer f.port f.link 2 c s)
  | _, false => ackNow 0x22 f.port f.link whole 3 (leaveBuffer f.port f.link 2 c s)
  | some n, true =>
    if nsWp s n || s.map.capWp then ackNow 0x22 f.port f.link whole 4 (leaveBuffer f.port f.link 2 c s)
    else if dealloc then
      let s := sawGseq m.gseq (leaveBuffer f.port f.link 2 c s)
      (match rxFind s o m whole.slba with
       | some e => setExt e.id (fun e => { e with origin := o }) s
       | none =>
         let (id, s) := newKey s
         onExts (fun es => es ++ [rxExtent o f.port m whole.slba extNlb1 true id s]) s)
    else rxBlocks o 0x22 f m extNlb1 extOff blks c s

/-- LB_WRITE (10 R285). -/
def execLbWrite (f : Frm) (m : Head) (dealloc : Bool) (extNlb1 extOff : Nat) (blks : List CheckedBlk) (s : State) :
    Host.Outcome State Fault Refusal :=
  .next (onData f (msgOf 0x20 m (extNlb1 + 256 * extOff) (.blocks blks)) (takeLbWrite f m dealloc extNlb1 extOff blks) s)

/-- The parity index of this brick for a block's stripe (10 R283). -/
def myParity (l : Layout) (lba : Nat) : Option Nat :=
  ((List.range l.m).filter (fun i => (stripeOf l lba + l.k + i) % max (l.k + l.m) 1 = l.pos)).head?

/-- The parity block as this brick holds it: the newest extent in DRAM, else the medium (10 R284, R285). -/
def parityNow (s : State) (nsid lba : Nat) : Blk × Nat := match dramBlock s nsid lba with
  | some x => x
  | none => (contentAt s nsid lba, gseqAt s nsid lba)

/-- The new parity blocks of a delta frame, none where the delta is not newer. -/
def newParity (s : State) (l : Layout) (i j : Nat) (m : Head) (blks : List CheckedBlk) : List (Option Blk) :=
  blks.zipIdx.map (fun b =>
    let (old, g) := parityNow s m.nsid (parityLba l (m.slba + b.2) i)
    if m.gseq > g then some (xorBlk old (gfBlk (i * j) (keptBlk s m.nsid b.1.blk))) else none)

/-- An LB_DELTA taken by a parity holder: the scaled delta is applied if its GSEQ is higher, and in either case acknowledged (10 R285,
step 4). -/
def takeLbDelta (f : Frm) (m : Head) (j : Nat) (blks : List CheckedBlk) (c : Nat) (s : State) : State :=
  let l := (layoutBy s m.layout).getD (layout0 s)
  let o : Origin := .longParity f.port f.link m.tag
  let refuse (st : Nat) (s : State) : State := ackNow 0x22 f.port f.link m st (leaveBuffer f.port f.link 2 c s)
  match (nsOf s m.nsid).bind (fun _ => if isLong l && (nsLayout s m.nsid).id = m.layout then myParity l m.slba else none) with
  | none => refuse 3 s
  | some i =>
    let s := sawGseq m.gseq s
    if !((blks.zipIdx).all (fun b => checkOk s m.nsid (m.slba + b.2) b.1)) then refuse 5 s
    else match rxFind s o m (parityLba l m.slba i) with
      | some e => leaveBuffer f.port f.link 2 c (setExt e.id (fun e => { e with origin := o }) s)
      | none =>
        let news := (newParity s l i j m blks).filterMap id
        if news.isEmpty then refuse 0 s
        else
          let lba := parityLba l m.slba i
          let (id, s) := newKey s
          let e := rxExtent o f.port m lba (news.length - 1) false id s
          let bs := news.zipIdx.map (fun b => ({ blk := b.1, check := blockCheck m.nsid (lba + b.2) (nsMeta s m.nsid) b.1 } : CheckedBlk))
          takeCredit f.port f.link 2 c id (onExts (fun es => es ++ [putBlks s 0 bs e]) s)

/-- LB_DELTA (10 R285). -/
def execLbDelta (f : Frm) (m : Head) (j : Nat) (blks : List CheckedBlk) (s : State) : Host.Outcome State Fault Refusal :=
  .next (onData f (msgOf 0x21 m j (.blocks blks)) (takeLbDelta f m j blks) s)

/-- The deltas or the write of a long-braid extent sent again to one peer (09 R245 read for long braids, log entry 33). -/
def resendLong (e : Extent) (entry : Nat) (s : State) : State :=
  let l := (layoutBy s e.layout).getD (layout0 s)
  let ms := if holderPos l e.slba = l.pos then
      (extMsgs 0x21 0 e (deltas s e)).map (fun m => { m with arg := dataPos l e.slba })
    else lbMsgs s e
  let n := if holderPos l e.slba = l.pos then ms.length else 1
  let waits := e.waitOn.filter (fun x => x ≠ entry) ++ List.replicate n entry
  ms.foldl (fun s m => sendTo entry (hankOf s e.nsid e.slba) m s) (setExt e.id (fun e => { e with waitOn := waits }) s)

/-- What an LB_ACK does: it closes a delta at the data holder, or an extent at the home (10 R285, steps 5 and 6). -/
def takeLbAck (f : Frm) (m : Head) (status : Nat) (dramOk : Bool) (s : State) : State :=
  let entry := entryOn s f.port f.link
  match ackedExt s m entry with
  | none => s
  | some e =>
    if status = 0 then trySwitches (peerHas e.id entry s)
    else if status = 5 then peerCheckFailed f e entry dramOk (resendLong e entry) s
    else s

/-- LB_ACK (10 R285). -/
def execLbAck (f : Frm) (m : Head) (a : AckStatus) (s : State) : Host.Outcome State Fault Refusal :=
  onMsg f { msgOf 0x22 m 0 .none with status := a.status } (takeLbAck f m a.status a.dramOk) s

/-! ### Reads between bricks -/

/-- A READ_REQ served: data blocks, or blocks of a parity hank named by the data block's LBA or by their own (10 R284, R287, R288). A
namespace that is not held is answered with no records (log entry 33). -/
def takeReadReq (f : Frm) (m : Head) (parity : Nat) (s : State) : State :=
  match nsOf s m.nsid with
  | none => sendMsg f.port f.link { op := 0x24, status := 3, head := m, arg := parity, body := .recs [] } s
  | some _ =>
    let l := nsLayout s m.nsid
    let slba := if parity > 0 ∧ m.slba < 2 ^ 39 then parityLba l m.slba (parity - 1) else m.slba
    let n := m.nlb1 + 1
    let v : Serve := { port := f.port, link := f.link, tag := m.tag, nsid := m.nsid, slba := slba, arg := parity, recs := List.replicate n none }
    let s := onBraid (fun b => { b with serves := b.serves.filter (fun w => !(w.port = f.port ∧ w.link = f.link ∧ w.tag = m.tag)) ++ [v] }) s
    startRead (.peer f.port f.link m.tag) m.nsid slba n s

/-- READ_REQ (10 R287). -/
def execReadReq (f : Frm) (m : Head) (parity : Nat) (s : State) : Host.Outcome State Fault Refusal :=
  onMsg f (msgOf 0x23 m parity .none) (takeReadReq f m parity) s

/-- Whether a block record gives its block: neither lost nor failing its CHECK (10 R445). -/
def recordGood (s : State) (a : Ask) (r : BlockRec) : Bool :=
  !r.lost && decide (r.check = blockCheck a.nsid a.lba (nsMeta s a.nsid) (if r.unmapped then zeroBlk else r.blk))

/-- A block obtained from a peer: counted, with NOTICE 11.12 at most once per second (10 R282). -/
def fromPeer (s : State) : State :=
  raiseEvery (evKey 11 12) 1 11 12 0 0 (onBraid (fun b => { b with reconPeer := inc 32 b.reconPeer }) s)

/-- An answered request used. -/
def useRecord (a : Ask) (r : BlockRec) (s : State) : State :=
  let b := if r.unmapped then zeroBlk else keptBlk s a.nsid r.blk
  let s := onBraid (fun x => { x with asks := x.asks.filter (fun y => y ≠ a) }) s
  match a.solve with
  | some id => finishSolve id (if a.part = 0 then solveGot id (some (a.idx, b)) none s else solveGot id none (some (a.part - 1, b)) s)
  | none =>
    let s := if isMirror (nsLayout s a.nsid) then fromPeer s else s
    deliver a.reader a.idx a.nsid a.lba r.gseq (.got b) r.unmapped s

/-- READ_DATA: records verified against their CHECK, and used; a record that is lost or fails leads to the next source (10 R287, R445). -/
def takeReadData (f : Frm) (m : Head) (recs : List BlockRec) (s : State) : State :=
  match s.braid.asks.find? (fun a => a.port = f.port && a.link = f.link && a.tag = m.tag) with
  | none => s
  | some a => settleReads (match recs[a.lba - m.slba]? with
    | some r => if recordGood s a r then useRecord a r s else askFailed a s
    | none => askFailed a s)

def execReadData (f : Frm) (m : Head) (recs : List BlockRec) (s : State) : Host.Outcome State Fault Refusal :=
  onMsg f (msgOf 0x24 m 0 (.recs recs)) (takeReadData f m recs) s

/-! ### Splices: builders and members -/

/-- SPLICE_REPLY to a message, under its TAG. -/
def reply (f : Frm) (m : Head) (status : Nat) (b : MBody) (s : State) : State :=
  sendMsg f.port f.link { op := 0x26, status := status, head := m, arg := 0, body := b } s

/-- Whether a builder builds in its splice run: not where its namespace stands in the new layout already (10 R292; log entry 34). -/
def buildsRun (old new : Layout) : Bool := old.id ≠ new.id && (old.cross ≠ 0 || new.cross = 5)

/-- A builder asked to reserve: refused where its free capacity, less the reservations of its other splices, is below 1.02 times the
amount (10 R291). The STATUS of that refusal is not in the table of statuses: a free value other than OK (log entry 7). -/
def takePrepare (f : Frm) (m : Head) (id bytes : Nat) (s : State) : State :=
  let entry := entryOn s f.port f.link
  match nsOf s m.nsid, layoutBy s m.layout with
  | some n, some l =>
    let s := onBraid (fun b => { b with reserves := b.reserves.filter (fun r => r.nsid ≠ m.nsid) }) s
    let blocks := ceilDiv bytes 4096
    let old := nsLayout s m.nsid
    let run := buildsRun old l
    if run ∧ (spliceRun s + ceilDiv n.size 32 > tableEntries s ∨ s.braid.splices.any (fun p => p.localRun)) ∨ ¬ fits s blocks then
      let (x, s) := draw s
      reply f m (1 + x % 255) .none s
    else
      let r : Reserve := { entry := entry, id := id, nsid := m.nsid, new := l.id, blocks := blocks, run := run }
      reply f m 0 .none (onBraid (fun b => { b with reserves := b.reserves ++ [r] }) s)
  | _, _ => reply f m 3 .none s

/-- SPLICE_PREPARE (10 R291). -/
def execSplicePrepare (f : Frm) (m : Head) (id bytes : Nat) (s : State) : Host.Outcome State Fault Refusal :=
  onMsg f (msgOf 0x25 m id (.args (zeros 8))) (takePrepare f m id bytes) s

/-- A copied block as an extent of its own: an UNMAPPED record is a deallocation; a LOST one keeps the lost flag (10 R293, R297). -/
def copyExt (f : Frm) (m : Head) (recopy : Bool) (s : State) (x : Nat × BlockRec) : State :=
  let (id, s) := newKey s
  let h : Head := { m with gseq := x.2.gseq, ext := 0 }
  let e := rxExtent (.copy f.port f.link m.tag recopy) f.port h (m.slba + x.1) 0 x.2.unmapped id s
  let e := if x.2.unmapped then e else
    let b := if x.2.lost then zeroBlk else keptBlk s m.nsid x.2.blk
    let ck := blockCheck m.nsid (m.slba + x.1) (nsMeta s m.nsid) b
    { e with blks := e.blks.map (fun y => { y with blk := some b, lost := x.2.lost, check := ck }) }
  sawGseq x.2.gseq (onExts (fun es => es ++ [e]) s)

/-- Whether a record's content agrees with its CHECK; a lost record carries none. -/
def recChecked (s : State) (nsid lba : Nat) (r : BlockRec) : Bool :=
  r.lost || r.unmapped || decide (r.check = blockCheck nsid lba (nsMeta s nsid) r.blk)

/-- A builder that has restarted since PREPARE takes up its splice run again from the message's layout (log entry 34). -/
def builderAgain (f : Frm) (m : Head) (id : Nat) (s : State) : State :=
  match layoutBy s m.layout with
  | some l =>
    if buildsRun (nsLayout s m.nsid) l && (runReserve s m.nsid m.layout).isNone then
      onBraid (fun b => { b with reserves := b.reserves ++
        [{ entry := entryOn s f.port f.link, id := id, nsid := m.nsid, new := l.id, blocks := 0, run := true }] }) s
    else s
  | none => s

/-- Copied records taken by a builder or a repaired member. They leave the receive buffer at once: their tokens wait in DRAM (log entry
36). -/
def takeCopy (f : Frm) (m : Head) (id : Nat) (recs : List BlockRec) (recopy : Bool) (s : State) : State :=
  if (nsOf s m.nsid).isNone then reply f m 3 .none s
  else if !(recs.zipIdx.all (fun r => recChecked s m.nsid (m.slba + r.2) r.1)) then reply f m 5 .none s
  else
    let s := builderAgain f m id s
    match runReserve s m.nsid m.layout with
    | some r => reply f m 0 .none (intoRun r.nsid r.new m.slba recs s)
    | none => (recs.zipIdx.map (fun r => (r.2, r.1))).foldl (copyExt f m recopy) s

/-- SPLICE_COPY: a builder applies copied blocks (10 R293). -/
def execSpliceCopy (f : Frm) (m : Head) (id : Nat) (recs : List BlockRec) (s : State) : Host.Outcome State Fault Refusal :=
  onMsg f (msgOf 0x27 m id (.recs recs)) (takeCopy f m id recs false) s

/-- RECOPY: a repaired member applies recopied hanks (10 R304). -/
def execRecopy (f : Frm) (m : Head) (id : Nat) (recs : List BlockRec) (s : State) : Host.Outcome State Fault Refusal :=
  onMsg f (msgOf 0x2B m id (.recs recs)) (takeCopy f m id recs true) s

/-- The hank of a builder's copy: in the splice run, else where its namespace keeps it. -/
def builtHank (s : State) (nsid layout lba : Nat) : Nat := match runReserve s nsid layout with
  | none => hankOf s nsid lba
  | some _ => moveHank s nsid lba .splice

/-- The fold of a hank of a builder's copy (10 R297). -/
def builtFold (s : State) (nsid layout base : Nat) : Check := match runReserve s nsid layout with
  | none => foldOf ((foldLbas s nsid base).map (blockRec s nsid))
  | some _ => runFold s nsid layout base

/-- FOLD_REQ: the folds of 1 to 32 hanks (10 R297). -/
def execFoldReq (f : Frm) (m : Head) (id hanks : Nat) (s : State) : Host.Outcome State Fault Refusal :=
  onMsg f (msgOf 0x28 m (id + 256 * hanks) .none) (fun s =>
    if (nsOf s m.nsid).isNone then reply f m 3 .none s
    else
      let s := (List.range hanks).foldl (fun s i => readEntry (builtHank s m.nsid m.layout (m.slba + 32 * i)) s) s
      reply f m 0 (.folds ((List.range hanks).map (fun i => builtFold s m.nsid m.layout (m.slba + 32 * i)))) s) s

/-- The logical hank to which a hank of the new layout belongs: itself, or for a parity hank the first of its stripe. -/
def dataHank (s : State) (p : Splice) (base : Nat) : Nat :=
  if base ≥ 2 ^ 39 then base % 2 ^ 36 / 32 * ((layoutBy s p.new).getD (layout0 s)).k else base / 32

/-- A fold reported by a builder, compared (10 R297). -/
def compareFold (p : Splice) (entry base : Nat) (f : Check) (s : State) : State :=
  match p.folds.find? (fun x => x.1 = entry && x.2.1 = base) with
  | none => s
  | some x =>
    let s := setSplice p.id (fun q => { q with folds := dropFirst (fun y => decide (y = x)) q.folds }) s
    if x.2.2 = [f] then s else foldDiffers p.id (dataHank s p base) s

/-- What a SPLICE_REPLY answers: a reservation in PREPARE, folds, the switch, or copied blocks (10 R288, R291, R297, R299). -/
def takeReply (f : Frm) (m : Head) (status : Nat) (folds : List Check) (s : State) : State :=
  let entry := entryOn s f.port f.link
  match spliceOf s m.nsid with
  | none => s
  | some p =>
    if p.phaseTags.any (fun t => t.1 = f.port && t.2.1 = f.link && t.2.2 = m.tag) then
      (if status = 0 then setSplice p.id (fun q => { q with told := insNat q.told entry }) s else s)
    else if !has p.builders entry then s
    else if p.phase = .prepare then
      (if status = 0 then prepareDone p.id (setSplice p.id (fun q => { q with reserved := insNat q.reserved entry }) s)
       else prepareRefused p.id 2 s)
    else if !folds.isEmpty then afterVerify p.id (compareFold p entry m.slba (folds.headD 0#64) s)
    else if status ≠ 0 ∧ tracking p then markDirty p.id (m.slba / 32) s
    else s

/-- SPLICE_REPLY (10 R288). -/
def execSpliceReply (f : Frm) (m : Head) (status : Nat) (folds : List Check) (s : State) : Host.Outcome State Fault Refusal :=
  onMsg f { msgOf 0x26 m 0 (.folds folds) with status := status } (takeReply f m status folds) s

/-- The phase of a code (05 R130). -/
def phaseOfCode : Nat → Option SPhase
  | 1 => some .prepare
  | 2 => some .build
  | 3 => some .verify
  | 4 => some .switch
  | 5 => some .release
  | 6 => some .aborted
  | 7 => some .paused
  | _ => none

/-- Every hank of a namespace unmapped. -/
def dropHanks (s : State) (n : NsEntry) : State :=
  (s.map.hanks.filter (fun e => nsFirst s n.nsid ≤ e.1 && e.1 < nsFirst s n.nsid + nsHanks s n)).foldl (fun s e => unmapHank e.1 s) s

/-- A builder unmaps what an aborted splice placed (10 R302). -/
def dropBuilt (s : State) (r : Reserve) : State :=
  if r.run then dropRun s
  else match nsOf s r.nsid with
    | some n => dropHanks s n
    | none => s

/-- A member that becomes home raises its sequence above the highest it has received and to the driver's (10 R272, R298, step 5). -/
def raiseGseq (next : Nat) (s : State) : State :=
  onHx (fun x => { x with gseq := max x.gseq (max next (s.braid.rxGseq + 1)) }) s

/-- The OLD layout in a member's record: the present one where this brick is in it, else unknown (log entry 34). -/
def memberOld (s : State) (nsid : Nat) : Nat :=
  let l := nsLayout s nsid
  if l.cross ≠ 0 then l.id else 0xFFFF

/-- A SPLICE_PHASE heard by a member: recorded, and answered once the record is durable (10 R298 to R302). A switch is not answered while copies are on their
way into the splice run: the driver sends it again (10 R299; log entry 34). -/
def takePhase (f : Frm) (m : Head) (id phase nextGseq : Nat) (s : State) : State :=
  match phaseOfCode phase, nsOf s m.nsid with
  | some ph, some _ =>
    let rs := s.braid.reserves.filter (fun r => r.nsid = m.nsid)
    let l := (layoutBy s m.layout).getD (layout0 s)
    if ph = .switch ∧ (layoutBy s m.layout).isNone then reply f m 3 .none s
    else if ph = .switch ∧ rs.any (fun r => r.run) ∧ ¬ runQuiet s m.nsid then s
    else
      let s := if ph = .switch ∧ l.pos = 0 then raiseGseq nextGseq s else s
      let s := if ph = .aborted then rs.foldl dropBuilt s else s
      let s := if ph = .aborted ∨ ph = .release then
          onBraid (fun b => { b with reserves := b.reserves.filter (fun r => r.nsid ≠ m.nsid) }) s
        else s
      let pr := if ph = .release then some releaseEnd else none
      let (n, s) := journal (jrec s.hx.gseq (.splicePhase id ph m.nsid (memberOld s m.nsid) m.layout none pr)) s
      let msg : Msg := { op := 0x26, status := 0, head := m, arg := 0, body := .none }
      onBraid (fun b => { b with owed := b.owed ++ [{ recno := n, port := f.port, link := f.link, msg := msg }] }) s
  | _, _ => reply f m 3 .none s

/-- SPLICE_PHASE (10 R299). -/
def execSplicePhase (f : Frm) (m : Head) (id phase nextGseq : Nat) (s : State) : Host.Outcome State Fault Refusal :=
  onMsg f (msgOf 0x29 m (id + 256 * phase) (.args (zeros 8))) (takePhase f m id phase nextGseq) s

/-- The newest splice record of a namespace. -/
def newestSplice (s : State) (nsid : Nat) : Option (Nat × Nat × Nat) :=
  (newestOf s (fun b => match b with
    | .splicePhase _ _ n _ _ _ _ => n = nsid
    | _ => false)).bind (fun r => match r.body with
      | .splicePhase i _ _ o w _ _ => some (i, o, w)
      | _ => none)

/-- A RELEASE: this brick's copy of the namespace is dropped: NS_STATE with WP 1, the end-of-RELEASE record of its newest splice of the
namespace, and NOTICE 11.15 (10 R300). -/
def takeRelease (m : Head) (s : State) : State :=
  match nsOf s m.nsid with
  | none => s
  | some n =>
    let s := note (.nsState m.nsid 1) (resizeSlc (dropHanks s n))
    let id := match newestSplice s m.nsid with
      | some x => x.1
      | none => 0
    let s := match newestSplice s m.nsid with
      | some (i, o, w) => note (.splicePhase i .release m.nsid o w none (some releaseEnd)) s
      | none => s
    raise 11 15 id m.nsid s

/-- RELEASE (10 R300). -/
def execRelease (f : Frm) (m : Head) (s : State) : Host.Outcome State Fault Refusal :=
  onMsg f (msgOf 0x2A m 0 .none) (takeRelease m) s

end Sys2Proof.Machine
end

