-- ==== Sys2Proof/Machine/PowerEntry.lean ====
section
/-! DEFINITION. Chapter 02: the events of Halyard (R42 to R48, R446 to R448), the supply monitors (R49) and the hold-up measurement (R51 to R56). -/

namespace Sys2Proof.Machine

open Sys2Proof

/-! ### Insertion (02 R42, R45 to R47, R446) -/

/-- VIN_RISE: VIN rises above 10.4 V; OFF is left for CHECK (02 R42, R45). -/
def execVinRise (straps : HlyStraps) (s : State) : Host.Outcome State Fault Refusal :=
  let s := onHly (fun h => { h with vinGood := true }) s
  .next (leaveOff (some straps) (if s.hly.breaker = .off then reach 1 s else s))

/-- CHECK_TIMER_EXPIRY: VOUT has been at 2 V or less for 1 ms: RAMP, or HELD while an order is pending (02 R45, R447). -/
def execCheckTimerExpiry (s : State) : Host.Outcome State Fault Refusal :=
  if s.hly.breaker = .check then
    .next (onHly (fun h => { h with sink := false, breaker := if h.held.isSome then .held else .ramp })
      (reach 2 s))
  else .next s

/-- The breaker latched with the class of a pass-device fault (02 R47). -/
def latchOff (c : Nat) (s : State) : State :=
  recordFault c (onHly (fun h => { h with breaker := .latched, timer := false, collapsed := false, sink := false }) s)

/-- SHORTED_PASS_TIMEOUT: VOUT has stayed above 2 V for 1 s in CHECK: class 5, and the sink stops (02 R446, R47). -/
def execShortedPassTimeout (s : State) : Host.Outcome State Fault Refusal :=
  if s.hly.breaker = .check then .next (latchOff 5 s) else .next s

/-- Enhancement begins (02 R45). -/
def enhance (s : State) : State := if s.hly.breaker = .ramp then setBreaker .enhance s else s

/-- VOUT_REACHED: VOUT reaches VIN − 0.5 V (02 R45), which makes it good again after it was lost while the gate is driven (02 R49). -/
def execVoutReached (s : State) : Host.Outcome State Fault Refusal :=
  .next (enhance (if feeds s.hly.breaker then onPwr (fun p => { p with voutOk := true }) s else s))

/-- RAMP_TIMEOUT: the ramp time plus 2 ms has passed (02 R42). -/
def execRampTimeout (s : State) : Host.Outcome State Fault Refusal := .next (enhance s)

/-- GATE_ENHANCED: GATE reaches VIN + 8 V with VOUT at or above VIN − 0.5 V: ON, and VOUT is good (02 R45). -/
def execGateEnhanced (s : State) : Host.Outcome State Fault Refusal :=
  if s.hly.breaker = .enhance then .next (reach 3 (onPwr (fun p => { p with voutOk := true }) (setBreaker .on s)))
  else .next s

/-- ENHANCE_TIMEOUT: 20 ms of ENHANCE: class 3 where VOUT has followed, else class 4 (02 R47). -/
def execEnhanceTimeout (voutFollowed : Bool) (s : State) : Host.Outcome State Fault Refusal :=
  if s.hly.breaker = .enhance then .next (latchOff (if voutFollowed then 3 else 4) s) else .next s

/-! ### The current limit and the breaker (02 R43 to R46) -/

/-- Where the current limit is reached from. -/
def limitFrom : Breaker → Option LimitFrom
  | .ramp => some .ramp
  | .enhance => some .enhance
  | .on => some .on
  | _ => none

/-- The state that LIMIT came from. -/
def limitBack : LimitFrom → Breaker
  | .ramp => .ramp
  | .enhance => .enhance
  | .on => .on

/-- CURRENT_LIMIT_REACHED: LIMIT, and the fault timer starts (02 R43). -/
def execCurrentLimitReached (s : State) : Host.Outcome State Fault Refusal :=
  match limitFrom s.hly.breaker with
  | some f => .next (onHly (fun h => { h with breaker := .limit f, timer := true, collapsed := false }) s)
  | none => .next s

/-- LIMIT_RECOVERED: the timer stops and is reset, and the breaker returns (02 R43, R45). -/
def execLimitRecovered (s : State) : Host.Outcome State Fault Refusal :=
  match s.hly.breaker with
  | .limit f => .next (onHly (fun h => { h with breaker := limitBack f, timer := false, collapsed := false }) s)
  | _ => .next s

/-- VOUT_COLLAPSE: VOUT below 2 V while the current limit is active (02 R44). -/
def execVoutCollapse (s : State) : Host.Outcome State Fault Refusal :=
  match s.hly.breaker with
  | .limit _ => .next (onHly (fun h => { h with collapsed := true }) s)
  | _ => .next s

/-- HOLDUP entered: the gate is off, the buck feeds VOUT, and the flush begins (02 R45, R57). -/
def enterHoldup (c : HoldupCause) (s : State) : State :=
  beginFlush 1 (onHly (fun h => { h with breaker := .holdup c, timer := false, collapsed := false }) s)

/-- Whether VOUT lies below 2 V in this limit: it fell there, or, away from ON, it may have been there as the limit was reached (02 R44). -/
def voutUnder (s : State) (f : LimitFrom) : Bool := s.hly.collapsed || f ≠ .on

/-- FAULT_TIMER_EXPIRY: a trip, class 2 at the 1 ms bound that VOUT below 2 V sets, and class 1 at the end of the FT_SET period (02 R44, R45); the
operand says which of the two moments this is. -/
def execFaultTimerExpiry (atBound : Bool) (s : State) : Host.Outcome State Fault Refusal :=
  match s.hly.breaker with
  | .limit f =>
    let s := recordTrip (if atBound && voutUnder s f then 2 else 1) s
    (match f with
     | .on => .next (enterHoldup .trip s)
     | _ => .next (onHly (fun h => { h with breaker := tripState s, timer := false, collapsed := false }) s))
  | _ => .next s

/-- RETRY_TIMER_EXPIRY: 1 s of RETRY_WAIT; CHECK once no over-voltage is declared (02 R45). -/
def execRetryTimerExpiry (s : State) : Host.Outcome State Fault Refusal :=
  if s.hly.breaker = .retryWait then .next (backToCheck s) else .next s

/-! ### Input loss (02 R45, R57, R448) -/

/-- The entry to OFF that follows this HOLDUP is caused by VIN, SYS_RST_N or TEST_MODE (02 R447). -/
def dropLater (s : State) : State := onHly (fun h => { h with dropHeld := true }) s

/-- The input has gone: from ON, and LIMIT reached from it, the flush runs in HOLDUP; a HOLDUP that runs ends in OFF; any other state goes
to OFF at once, and the core is in cold reset (02 R36, R45, R447). -/
def loseInput (s : State) : State :=
  match s.hly.breaker with
  | .on => enterHoldup .input (dropLater s)
  | .limit .on => enterHoldup .input (dropLater s)
  | .holdup _ => setBreaker (.holdup .input) (dropLater s)
  | _ => coldReset (unpower (goOff true s))

/-- INPUT_LOSS: VIN below 9.6 V for 5 µs, or VOUT below 9.4 V: an input loss in ON, and no longer good elsewhere (02 R49, R57). -/
def execInputLoss (kind : LossKind) (s : State) : Host.Outcome State Fault Refusal :=
  match kind with
  | .vinLow => .next (loseInput (onHly (fun h => { h with vinGood := false }) s))
  | .voutLost =>
    if s.hly.breaker = .on then .next (enterHoldup .input s) else .next (onPwr (fun p => { p with voutOk := false }) s)

/-- INPUT_OVER_VOLTAGE: VIN above 14.0 V for 5 µs. Class 6 is recorded and the gate goes low where it was not; a flush runs from ON (02
R448). -/
def execInputOverVoltage (s : State) : Host.Outcome State Fault Refusal :=
  let s := onHly (fun h => { h with overVoltage := true }) s
  match s.hly.breaker with
  | .on => .next (enterHoldup .input (recordFault 6 s))
  | .limit .on => .next (enterHoldup .input (recordFault 6 s))
  | .limit _ => .next (goOff false (recordFault 6 s))
  | .check => .next (goOff false (recordFault 6 s))
  | .ramp => .next (goOff false (recordFault 6 s))
  | .enhance => .next (goOff false (recordFault 6 s))
  | _ => .next s

/-- OVER_VOLTAGE_END: VIN falls below 13.6 V; a move to CHECK that waited proceeds (02 R448). -/
def execOverVoltageEnd (straps : HlyStraps) (s : State) : Host.Outcome State Fault Refusal :=
  let s := onHly (fun h => { h with overVoltage := false }) s
  match s.hly.breaker with
  | .off => .next (leaveOff (some straps) s)
  | .held => if s.hly.heldOver then .next (enterCheck s) else .next s
  | .retryWait => if s.hly.retryDue then .next (enterCheck s) else .next s
  | _ => .next s

/-- SYS_RST_N_FALL: treated as input loss; the gate stays low while the pin is low (02 R57, coincidences). -/
def execSysRstNFall (s : State) : Host.Outcome State Fault Refusal :=
  .next (loseInput (onPins (fun p => { p with sysRstN := false }) s))

/-- SYS_RST_N_RISE: OFF is left with new straps (02 R35). -/
def execSysRstNRise (straps : HlyStraps) (s : State) : Host.Outcome State Fault Refusal :=
  .next (leaveOff (some straps) (onPins (fun p => { p with sysRstN := true }) s))

/-- TEST_MODE_RISE: treated as input loss; the core then stays in cold reset (02 R57, 16 R430). -/
def execTestModeRise (s : State) : Host.Outcome State Fault Refusal :=
  .next (loseInput (onPins (fun p => { p with testMode := true }) s))

/-- TEST_MODE_FALL: OFF is left with new straps (02 R35). -/
def execTestModeFall (straps : HlyStraps) (s : State) : Host.Outcome State Fault Refusal :=
  .next (leaveOff (some straps) (onPins (fun p => { p with testMode := false }) s))

/-! ### The core's orders (02 R447) -/

/-- GATE_LOW_ORDER: the core orders the gate low (02 R447). -/
def execGateLowOrder (o : GateOrder) (s : State) : Host.Outcome State Fault Refusal := .next (gateLow o s)

/-- DEVICE_RESET_HOLD_EXPIRY: 100 ms after a device reset began it, its order ends (02 R45, 03 R62). -/
def execDeviceResetHoldExpiry (s : State) : Host.Outcome State Fault Refusal := .next (endOrder .deviceReset s)

/-! ### Supply monitors (02 R49) -/

/-- RAIL_UNDER_VOLTAGE: a supply other than VDD_AON falls below its lower threshold: for a rail a cold reset after a flush; the hold-up bank, below
33.0 V, no longer reads charged, and measurements are deferred (02 R49). -/
def execRailUnderVoltage (r : Rail) (s : State) : Host.Outcome State Fault Refusal :=
  if r = .holdupBank then .next (onPwr (fun p => { p with charged := false }) s)
  else if s.pwr.railsOk then .next (beginFlush 1 (onPwr (fun p => { p with railsOk := false }) s)) else .next s

/-- VDD_AON_LOSS: a cold reset; the counters are restored at the next step 4 (02 R49, 15 R421). -/
def execVddAonLoss (s : State) : Host.Outcome State Fault Refusal :=
  .next (onDev (fun d => { d with lostAon := true, secs := 0 }) (endPowerFlush s))

/-! ### The hold-up bank (02 R49 to R56) -/

/-- All rails are good, VOUT among them (02 R49, R50). -/
def railsAll (s : State) : Bool := s.pwr.railsOk && s.pwr.voutOk

/-- BANK_CHARGED: the bank rises above 34.0 V while the boost charges it (02 R49, R50, 11 R324). -/
def execBankCharged (s : State) : Host.Outcome State Fault Refusal :=
  if railsAll s ∧ s.hly.breaker = .on then .next (onPwr (fun p => { p with charged := true, topUpWait := false }) s)
  else .next s

/-- The token budget set: a lower one at once with NOTICE 0.3, a higher one once the spill reserve matches it (02 R56, 05 R149). -/
def setBudget (b : Nat) (s : State) : State :=
  if b < s.pwr.budget then raise 0 3 0 0 (onPwr (fun p => { p with budget := b, budgetWant := b }) s)
  else
    let s := onPwr (fun p => { p with budgetWant := b }) s
    if s.map.state = 3 then tendReserve s else s

/-- Class 7: recorded and raised at once; buffered acknowledgement is disabled and the budget is the floor (02 R48, R54). -/
def holdupFault (s : State) : State :=
  setBudget Config.budgetFloor
    (raise 0 4 0 0 (onPwr (fun p => { p with class7 := true, bufackEn := false }) (recordFault 7 s)))

/-- A measurement that falls due or is asked for: it draws, or is deferred by 1 s with NOTICE 0.2; the 60th deferral in a row records class
7 with ERROR 0.4 (02 R52). -/
def measure (s : State) : State :=
  if s.pwr.charged then onPwr (fun p => { p with measuring := true, measDue := false }) s
  else
    let n := s.pwr.deferrals + 1
    let s := raise 0 2 0 0 (onPwr (fun p => { p with measDue := true, deferrals := min n 60 }) s)
    if n = 60 then holdupFault s else s

/-- Whether a measurement may run: the rails are good, none runs, and no flush (02 R51, coincidences). -/
def mayMeasure (s : State) : Bool := s.pwr.railsOk && !s.pwr.measuring && s.flush.isNone

/-- HOLDUP_MEASUREMENT_DUE: 2 s after step 4, every 24 h, or 1 s after a deferral (02 R51, R52). -/
def execHoldupMeasurementDue (s : State) : Host.Outcome State Fault Refusal :=
  if mayMeasure s then .next (measure s) else .next s

/-- MEAS_NOW written: a measurement, unless one runs or is deferred, or a flush runs (02 R51, coincidences). -/
def measNow (v : Word) (s : State) : State :=
  if v.getLsbD 0 ∧ mayMeasure s ∧ ¬ s.pwr.measDue then measure s else s

/-- MEAS_NOW: a host writes HU_CTRL (02 R51). -/
def execMeasNow (p : Port) (v : Word) (s : State) : Host.Outcome State Fault Refusal :=
  if bar2Open s p then .next (measNow v s) else .next s

/-- Numerator and denominator of e_use in joules, from nF and µΩ (02 R55). -/
def useNum (c r : Nat) : Nat := 3978 * c * (289000000 - 36 * r)
def useDen : Nat := 10 * 289000000 * 1000000000

/-- The tokens of a bank, rounded down to a multiple of 1024 (02 R55). -/
def bankTokens (c r : Nat) : Nat := (useNum c r * 100000 - 90000 * useDen) / (3 * useDen) / 1024 * 1024

/-- The measured values as their registers show them, rounded (02 R51); a draw that has ended also ends a row of deferrals (R52). -/
def showMeasured (c r : Nat) (s : State) : State :=
  onPwr (fun p => { p with
    measuring := false, deferrals := 0, capUf := sat 16 ((c + 500) / 1000), esrMohm := sat 16 ((r + 500) / 1000),
    euseMj := sat 16 ((2000 * useNum c r + useDen) / (2 * useDen)), measTime := s.dev.secs % 2 ^ 32 }) s

/-- HOLDUP_MEASUREMENT_DONE: the draw ends with a capacitance in nF and an ESR in µΩ: rejected with class 7, or the budget is set (02 R53 to
R55). -/
def execHoldupMeasurementDone (capNf esrUohm : Nat) (s : State) : Host.Outcome State Fault Refusal :=
  if !s.pwr.measuring then .next s
  else
    let s := showMeasured capNf esrUohm s
    if capNf < 1000000 ∨ capNf > 40000000 ∨ esrUohm > 500000 then .next (holdupFault s)
    else
      let s := raise 0 1 0 0 (onPwr (fun p => { p with measured := true }) s)
      let t := bankTokens capNf esrUohm
      if t < Config.budgetFloor then .next (holdupFault s)
      else .next (setBudget (min t Config.budgetMax) (onPwr (fun p => { p with bufackEn := true }) s))

end Sys2Proof.Machine
end

