-- ==== Sys2Proof/Machine/RegMap.lean ====
section
/-! DEFINITION. What a read of each register block gives (02, 03, 04, 05, 06, 07, 09, 10, 11, 12, 13, 14 "Register block"; 15 R404), the halves
that a read latches (log entry 12), and the counters that a read through BAR2 clears (00 R15). -/

namespace Sys2Proof.Machine

open Sys2Proof

/-- Bits from 0 up, one for each truth value. -/
def bitList (l : List Bool) : Nat := sumN (l.zipIdx.map (fun x => b2n x.1 * 2 ^ x.2))

/-- A signed value as 16 bits. -/
def code16 (i : Int) : Nat := code 16 i

/-- The low and the high 32 bits of a counter. -/
def lo32 (n : Nat) : Nat := n % 2 ^ 32
def hi32 (n : Nat) : Nat := n / 2 ^ 32 % 2 ^ 32

/-! ### PWR, BOOT, HOSTX -/

/-- Register block PWR (02). -/
def regPwr (s : State) (o : Nat) : Nat :=
  let p := s.pwr
  match o with
  | 0x00 => bitList [s.hly.vinGood, p.voutOk, p.railsOk, decide (s.hly.breaker = .on),
      (match s.hly.breaker with
       | .limit _ => true
       | _ => false), p.charged, p.measured, p.bufackEn]
  | 0x04 => pack [(0, s.hly.dvdt), (2, s.hly.cl), (4, s.hly.ft), (6, s.hly.rty)]
  | 0x08 => pack [(0, p.lastClass), (8, p.tripsShown), (16, b2n p.class7)]
  | 0x0C => pack [(0, sat 16 p.vinMv), (16, sat 16 p.voutMv)]
  | 0x10 => pack [(0, sat 16 p.vhuMv), (16, sat 16 p.iinMa)]
  | 0x14 => pack [(0, sat 16 p.capUf), (16, sat 16 p.esrMohm)]
  | 0x18 => sat 16 p.euseMj
  | 0x1C => lo32 p.measTime
  | 0x20 => p.budget
  | 0x28 => lo32 p.flushUs
  | 0x2C => sat 19 p.flushSpilled
  | 0x30 => sat 19 p.flushUnspilled
  | _ => 0

/-- Register block BOOT (03). -/
def regBoot (s : State) (o : Nat) : Nat :=
  let b := s.boot
  match o with
  | 0x00 => pack [(0, b.phase), (4, b.copy), (5, b2n b.clkRef), (6, b2n b.sfdp.isSome), (7, b2n b.rollback), (8, b.pinnedBy),
      (10, b2n b.firstStart), (11, b2n b.sealed), (12, b2n s.aon.xtal)]
  | 0x04 => b.genUsed
  | 0x08 => nth b.genCopy 0 0
  | 0x0C => nth b.genCopy 1 0
  | 0x10 => pack [(0, causeCode (nth b.cause 0 .none)), (16, nth b.failBlock 0 0)]
  | 0x14 => pack [(0, causeCode (nth b.cause 1 .none)), (16, nth b.failBlock 1 0)]
  | 0x18 => b.genGood
  | 0x1C => pack [(0, sat 16 b.imageMs), (16, sat 16 b.readyMs)]
  | 0x20 => pack [(0, b.imgSel), (2, b.pcieMode)]
  | 0x24 => pack [(0, b2n b.pinValid), (1, b.pinCopy)]
  | 0x28 => b.pinGenReg
  | 0x2C => sat 9 b.excluded
  | 0x30 => sat 7 s.evt.bootDropped
  | 0x40 => pack [(0, b.stageState), (4, b.stageCopy), (8, causeCode b.stageCause)]
  | 0x44 => b.stageBytes
  | 0x48 => b.stageGen
  | _ => 0

/-- The namespaces that meet a test, bit NSID − 1 each. -/
def nsWhere (s : State) (f : NsEntry → Bool) : Nat := nsBits ((s.prm.namespaces.filter f).map (fun n => n.nsid))

/-- Register block HOSTX (04). -/
def regHostx (s : State) (o : Nat) : Nat :=
  match o with
  | 0x00 => pack [(0, b2n (dualPort s)), (1, b2n s.ctl.a.link), (2, b2n s.ctl.b.link), (3, s.ctl.a.speed), (6, s.ctl.b.speed),
      (9, s.ctl.a.width), (12, s.ctl.b.width), (15, b2n s.ctl.a.perstLow), (16, b2n s.ctl.b.perstLow), (17, b2n s.hx.perstHeld),
      (18, b2n s.smb.off), (19, b2n s.boot.noImage)]
  | 0x08 => lo32 s.hx.stamp
  | 0x0C => hi32 s.hx.stamp
  | 0x10 => lo32 s.hx.gseq
  | 0x14 => hi32 s.hx.gseq
  | 0x18 => nsBits s.ctl.a.pend
  | 0x1C => nsBits s.ctl.b.pend
  | 0x20 => sat 16 s.ctl.a.dropped
  | 0x24 => sat 16 s.ctl.b.dropped
  | 0x28 => s.hx.conflicts
  | 0x2C => (s.exts.filter wantsTokens).length
  | 0x30 => nsWhere s (bufferedFor s .a)
  | 0x34 => nsWhere s (nsWp s)
  | 0x40 => pack [(0, s.boot.smbAddr), (2, s.smb.fails), (4, b2n s.smb.wrIgnored), (8, s.smb.recoveries)]
  | 0x50 => (match s.prm.host with
    | some h => pack [(0, h.mdts), (8, h.aerLimit - 1), (16, h.msix)]
    | none => if s.boot.noImage then pack [(16, 1)] else 0)
  | 0x54 => (match s.prm.host with
    | some h => pack [(0, h.ioqPairs % 256), (16, h.ioqDepth)]
    | none => if s.boot.noImage then pack [(0, 1), (16, min Config.noImageDepth 4096)] else 0)
  | _ => 0

/-! ### JRNL, MAP -/

/-- Whether an extent waits under the limits of 05 R134 and R138. -/
def admitWaits (s : State) : Bool := !admitRoom s && s.exts.any (readyToAdmit s)

/-- A count that reads 0 from a reset until the scan has found the journal's state (05, JRNL tables, Reset column; 00 R16). -/
def scanned (s : State) (n : Nat) : Nat := if s.jrnl.state = 0 then 0 else n

/-- Register block JRNL (05). The audit counts follow the owners' counts (log entry 47). -/
def regJrnl (s : State) (o : Nat) : Nat :=
  let j := s.jrnl
  match o with
  | 0x00 => pack [(0, j.state), (3, activeHalf s), (4, b2n j.runNum.isSome), (5, b2n (headWaits s && !j.waiting.isEmpty)), (6, b2n (admitWaits s)),
      (7, b2n (spillReady s)), (8, s.aon.replayRestarts)]
  | 0x08 => lo32 j.next
  | 0x0C => hi32 j.next
  | 0x10 => lo32 j.horizon
  | 0x14 => hi32 j.horizon
  | 0x18 => j.ckptNum
  | 0x1C => lo32 j.ckptBegin
  | 0x20 => hi32 j.ckptBegin
  | 0x24 => scanned s (openExts s)
  | 0x28 => scanned s (liveOther s)
  | 0x2C => scanned s (writable s)
  | 0x30 => scanned s (slotsUsed s)
  | 0x40 => j.redriven
  | 0x44 => j.skipped
  | 0x48 => j.deferred
  | 0x4C => j.abandoned
  | 0x50 => j.replayMs
  | 0x64 => j.audFault
  | 0x68 => scanned s (tokensFree s)
  | 0x6C => tokens .filling s
  | 0x70 => tokens .journaled s
  | 0x74 => tokens .inflight s
  | 0x78 => tokens .mirrorPending s
  | _ => 0

/-- The row of the collection share table (06 R172). -/
def gcLevel (s : State) : Nat := match s.prm.mapping with
  | some m =>
    let n := freeSets s
    if n ≥ m.gcT1 then 0 else if n ≥ m.gcT2 then 1 else if n ≥ m.gcT3 then 2 else 3
  | none => 0

/-- The share in force, in percent (06 R172); at least 20 % while any set is degraded (10 R279). -/
def gcShare (s : State) : Nat :=
  if s.map.state ≠ 3 then 0
  else max (if degradedCount s > 0 then 20 else 0)
    (if s.map.gcMs ≥ 100 ∧ gcLevel s ≠ 0 then 60 else nth [5, 20, 40, 60] (gcLevel s) 5)

/-- Free erase units: those that the unit table marks free. -/
def freeUnitCount (s : State) : Nat := (s.map.units.filter (fun u => u.state = 0 || u.state = 6)).length

/-- PE counts of units not retired. -/
def peCounts (s : State) : List Nat := (s.map.units.filter (fun u => u.state ≠ 5)).map (fun u => u.pe)

/-- The MAPPING fields of block MAP. -/
def regMapping (s : State) (o : Nat) : Nat := match s.prm.mapping with
  | some m => (match o with
    | 0x80 => pack [(0, m.promoteT), (8, m.demoteT), (16, m.foldPct)]
    | 0x84 => pack [(0, m.wearSpread), (16, m.opPermil)]
    | 0x88 => m.gcT1
    | 0x8C => m.gcT2
    | 0x90 => m.gcT3
    | _ => 0)
  | none => 0

/-- Register block MAP (06). -/
def regMap (s : State) (o : Nat) : Nat :=
  let m := s.map
  match o with
  | 0x00 => pack [(0, m.state), (3, b2n m.folding), (4, b2n (m.state = 3 && freeSets s ≤ 16)), (5, b2n m.capWp),
      (6, if m.state = 3 then gcLevel s else 0), (8, b2n m.wear.isSome)]
  | 0x04 => lo32 (mappedBlocks s)
  | 0x08 => hi32 (mappedBlocks s) % 16
  | 0x0C => freeSets s
  | 0x10 => freeUnitCount s
  | 0x14 => freeUnitCount s
  | 0x18 => lo32 (mappedBlocks s)
  | 0x1C => hi32 (mappedBlocks s) % 16
  | 0x20 => sat 22 (m.slc / 1048576)
  | 0x24 => sat 22 (slcUsed s / 1048576)
  | 0x28 => groupsUsed s
  | 0x2C => (m.sets.filter (fun e => e.idx < Config.poolSets)).length
  | 0x30 => gcShare s
  | 0x34 => pack [(0, sat 16 ((argMin id (peCounts s)).getD 0)), (16, sat 16 ((argMax id (peCounts s)).getD 0))]
  | 0x38 => (m.units.filter (fun u => u.state = 5)).length
  | 0x3C => if s.prm.geometry.isSome && s.prm.mapping.isSome then userHanks s else 0
  | 0x40 => m.promotions
  | 0x44 => m.demotions
  | 0x48 => m.merges
  | 0x4C => m.zeroFills
  | 0x50 => m.lostBlocks
  | 0x54 => m.wearMoves
  | o => regMapping s o

/-! ### MEDIA, ECC -/

/-- One channel's 4 KiB of block MEDIA (07). -/
def regChannel (s : State) (ch o : Nat) : Nat :=
  let c := chan s ch
  match o with
  | 0x00 => pack [(0, c.state), (3, c.mode), (8, sat 8 c.rate), (16, sat 8 c.trains)]
  | 0x04 => pack [(0, (match s.prm.geometry with
        | some g => nth g.fitted ch 0
        | none => 0)),
      (8, bitList (c.targets.map (fun t => decide (t.state = .failed)))),
      (16, bitList (c.targets.map (fun t => decide (t.state = .excluded))))]
  | 0x0C => pack (c.targets.zipIdx.map (fun t => (4 * t.2, t.1.cause)))
  | 0x10 => c.reads
  | 0x14 => c.programs
  | 0x18 => c.erases
  | 0x1C => pack [(0, sat 16 c.pgmFails), (16, sat 16 c.ersFails)]
  | 0x20 => pack [(0, sat 16 c.pgmSusp), (16, sat 16 c.ersSusp)]
  | 0x24 => sat 16 c.busyMax
  | 0x28 => c.duty
  | o => if 0x100 ≤ o ∧ o < 0x140 then nth (chanTparam s ch) ((o - 0x100) / 4) 0 else if o = 0x140 then chanMts s ch else 0

/-- The READ_LEVELS fields of block ECC. -/
def regLevels (s : State) (o : Nat) : Nat := match s.prm.readLevels with
  | some r => (match o with
    | 0x48 => pack [(0, r.delta1), (8, r.delta2), (16, r.delta3)]
    | 0x4C => pack [(0, r.sweep), (8, r.sweepStep), (16, r.fidDays)]
    | _ => 0)
  | none => 0

/-- Register block ECC (07). -/
def regEcc (s : State) (o : Nat) : Nat :=
  let m := s.media
  match o with
  | 0x00 => (match s.prm.geometry with
    | some g => pack [(0, g.ldpcM), (4, g.s), (8, hardCap s)]
    | none => 0)
  | 0x04 => m.hardOk
  | 0x08 => m.hardHigh
  | 0x0C => m.soft1
  | 0x10 => m.soft2
  | 0x14 => m.soft3
  | 0x18 => m.unrecovered
  | 0x1C => m.checkFail
  | 0x20 => sat 16 m.maxCorr
  | 0x30 => pack [(1, m.fidAge), (4, m.fidDie), (13, m.fidLast)]
  | 0x34 => m.fidDone
  | 0x38 => m.fidAborted
  | 0x3C => m.fidRejected
  | 0x40 => sat 10 m.density
  | 0x80 => pack [(0, m.winDie), (16, m.winAge)]
  | o =>
    if 0x84 ≤ o ∧ o ≤ 0x90 then
      let l := levelsOf s m.winDie m.winAge
      pack ((List.range 4).map (fun k => (8 * k, code 8 (nth l (o - 0x84 + k) 0))))
    else regLevels s o

/-! ### PEER, BRAID -/

def linkCode : LinkState → Nat
  | .disabled => 0
  | .training => 1
  | .handshake => 2
  | .up => 3
  | .notified => 4

/-- Whether both links to a link's peer run, one on each port (09 R256). -/
def pairWide (s : State) (k : Link) : Bool := (linksTo s k.entry).length = 2 && (linksTo s k.entry).all (linkUp s)

/-- The registers of one link (09). -/
def regLink (s : State) (k : Link) (o : Nat) : Nat :=
  match o with
  | 0x00 => pack [(0, linkCode k.state), (4, k.entry), (8, b2n (pairWide s k)),
      (9, b2n ((linksTo s k.entry).any (fun l => match linkBy s l.1 l.2 with
        | some q => !q.stale.isEmpty
        | none => false))), (12, k.cause % 16)]
  | 0x04 => k.txNext.toNat
  | 0x08 => (txOldest k).toNat
  | 0x0C => k.expect.toNat
  | 0x10 => pack [(0, sat 20 k.srtt), (24, min k.samples 16)]
  | 0x14 => k.timeout
  | 0x18 => replayBytes k
  | 0x1C => k.replays
  | 0x30 => if k.state = .up then 0 else lo32 k.tieMs
  | 0x34 => sat 16 k.held.length
  | o =>
    if 0x20 ≤ o ∧ o < 0x30 then
      let v := (o - 0x20) / 4
      let infl := sumN ((k.sent.filter (fun e => e.vc = v && !e.due)).map (fun e => e.credit))
      pack [(0, (match k.vcs.toList[v]? with
        | some c => sat 12 c.balance
        | none => 0)), (16, sat 12 infl)]
    else 0

/-- The registers of one peer port (09). -/
def regPort (s : State) (p : Port) (o : Nat) : Nat :=
  let q := s.peer.get p
  match o with
  | 0x00 => pack [(0, q.phy), (2, b2n q.slow),
      (3, (match s.prm.peer, p with
        | some x, .a => b2n x.crA
        | some x, .b => b2n x.crB
        | none, _ => 0)), (4, q.links.length), (8, b2n (s.aon.wakeSeen.get p)), (9, b2n q.energy)]
  | 0x04 => q.discard
  | 0x08 => q.fecCorr
  | 0x0C => q.fecUncorr
  | 0x10 => sat 16 q.trains
  | 0x14 => sat 16 q.wakeIgnored
  | o =>
    if o < 0x100 then 0
    else match q.links[(o - 0x100) / 0x80]? with
      | some k => regLink s k ((o - 0x100) % 0x80)
      | none => 0

/-- Register block PEER (09). -/
def regPeer (s : State) (o : Nat) : Nat :=
  if o = 0 then
    (match s.prm.peer with
     | some x => pack [(0, x.ethertype), (16, b2n x.enableA), (17, b2n x.enableB), (18, 1), (19, b2n x.slowOk)]
     | none => 0)
  else if 0x1000 ≤ o ∧ o < 0x2000 then regPort s .a (o - 0x1000)
  else if 0x2000 ≤ o ∧ o < 0x3000 then regPort s .b (o - 0x2000)
  else 0

/-- The registers of one splice slot (10): the splices in progress, in the order of their start (log entry 47). -/
def regSlot (p : Splice) (o : Nat) : Nat :=
  match o with
  | 0x00 => pack [(0, p.id % 256), (8, phaseCode p.phase),
      (12, if p.phase = .paused then (if p.paused2 then 2 else if p.lostBuilder then 1 else 0) else 0)]
  | 0x04 => p.nsid
  | 0x08 => pack [(0, p.old), (16, p.new)]
  | 0x0C => lo32 p.progress
  | 0x10 => hi32 p.progress
  | 0x14 => sat 32 p.dirty.length
  | 0x18 => sat 32 p.verified
  | _ => 0

/-- Register block BRAID (10). -/
def regBraid (s : State) (o : Nat) : Nat :=
  let b := s.braid
  let run := b.splices.filter (fun p => !p.repair)
  match o with
  | 0x00 => pack [(0, sat 3 run.length), (3, b2n (run.any (fun p => p.localRun))), (4, b2n b.dualOff),
      (8, sat 8 (b.splices.filter (fun p => p.repair)).length)]
  | 0x04 => sat 20 (degradedCount s)
  | 0x08 => b.reconRow
  | 0x0C => b.reconPeer
  | 0x10 => b.beyond
  | 0x14 => b.uncovered
  | 0x18 => s.prm.rebuild0
  | o =>
    if 0x100 ≤ o ∧ o < 0x200 then
      (match run[(o - 0x100) / 0x40]? with
       | some p => regSlot p ((o - 0x100) % 0x40)
       | none => 0)
    else 0

/-! ### PSTATE, THERM -/

/-- The interval between patrol cycles in ms (11 R329); 0 while no unit is to be visited. -/
def patrolMs (s : State) : Nat :=
  let u := sumN ((List.range 4).map (fun g => (patrolUnits s g).length))
  let p := s.prm.power
  if u = 0 then 0 else sat 32 (p.patrolDays * 86400000 * p.patrolPages / (u * (1 + p.rows)))

/-- Register block PSTATE (11). -/
def regPs (s : State) (o : Nat) : Nat :=
  let p := s.ps
  match o with
  | 0x00 => pack [(0, p.state), (4, s.prm.power.ceil), (8, s.ctl.a.feat.ps), (12, s.ctl.b.feat.ps), (16, b2n p.hs.isSome), (17, b2n p.wakeLow)]
  | 0x04 => p.backoff
  | 0x08 => pack [(0, p.refPart), (8, p.refReason), (16, p.refState)]
  | 0x0C => p.refusals
  | 0x10 => p.lastWake
  | 0x14 => p.sleeps
  | 0x18 => p.deeps
  | 0x1C => lo32 p.deepSecs
  | 0x20 => pack [(0, p.smbState), (30, b2n p.smbRefused)]
  | 0x50 => p.ptPages
  | 0x54 => p.ptRewrites
  | 0x58 => p.ptUnrecov
  | 0x5C => p.ptNohdr
  | 0x60 => p.behind
  | 0x64 => patrolMs s
  | 0x80 => s.prm.power.idleUs
  | 0x84 => s.prm.power.sleepMs
  | 0x88 => s.prm.power.deepS
  | 0x8C => pack [(0, s.prm.power.patrolDays), (8, s.prm.power.rows), (16, s.prm.power.patrolPages)]
  | o =>
    if 0x30 ≤ o ∧ o < 0x40 then nth p.pos ((o - 0x30) / 4) 0
    else if 0x40 ≤ o ∧ o < 0x50 then lo32 (nth p.pass ((o - 0x40) / 4) 0)
    else 0

/-- The THERMAL fields of block THERM. -/
def regThermal (s : State) (o : Nat) : Nat := match s.prm.thermal with
  | some t =>
    if o = 0x80 then pack [(0, b2n t.diode0), (1, b2n t.diode1), (16, t.stepMs)]
    else if o = 0x84 then t.trendS
    else if 0x8C ≤ o ∧ o ≤ 0x94 then
      let k := (o - 0x8C) / 4
      pack [(0, nth t.duty k 0), (16, nth t.credit k 0)]
    else 0
  | none => 0

/-- Register block THERM (12). -/
def regTherm (s : State) (o : Nat) : Nat :=
  let t := s.therm
  match o with
  | 0x00 => pack [(0, nth t.step 0 0), (2, nth t.step 1 0), (4, nth t.step 2 0), (6, b2n t.warn), (7, b2n t.crit),
      (8, b2n s.aon.afterShutdown), (9, b2n t.startedThrottled), (10, b2n (trendValid s)),
      (16, bitList (t.inputs.map (fun i => i.broken)))]
  | 0x44 => pack [(0, nth t.dram 0 0), (8, nth t.dram 1 0)]
  | 0x48 => (match t.peak with
    | some v => code16 v
    | none => 0)
  | 0x4C => t.stepChanges
  | 0x50 => lo32 t.throttleS
  | 0x60 => pack [(0, code16 (nth t.trims 0 0)), (16, code16 (nth t.trims 1 0))]
  | 0x64 => code16 (nth t.trims 2 0)
  | 0x68 => pack [(0, code16 (nth t.trims 3 0)), (16, code16 (nth t.trims 4 0))]
  | 0x6C => pack [(0, t.calState), (16, code16 t.refPpm)]
  | 0x70 => pack [(0, code16 (s.aon.calAon.getD 0)), (16, code16 (s.aon.calRefint.getD 0))]
  | 0x74 => (thermals s).length
  | o =>
    if 0x10 ≤ o ∧ o < 0x30 then code16 (inputAt s ((o - 0x10) / 4)).reading
    else if 0x30 ≤ o ∧ o < 0x44 then
      (match zoneNow s ((o - 0x30) / 4) with
       | some v => code16 v
       | none => 0x8000)
    else regThermal s o

/-! ### RECF, CLEAT, SAFE -/

/-- Whether a refresh runs or waits (13 R367). -/
def refreshing (s : State) : Bool := (s.rf.queue ++ s.rf.busy.toList.filterMap id).any (fun j => match j.what with
  | .refresh .. => true
  | _ => false)

/-- Every entry of the event log with its place: the sector and the entry's number in it. -/
def placedEntries (s : State) : List (Nat × Entry) :=
  (s.rf.banks[0].log ++ s.rf.banks[1].log).flatMap (fun x => x.2.zipIdx.map (fun e => (128 * x.1 + e.2, e.1)))

/-- The place of the oldest entry of the event log (15 R419). -/
def oldestEntry (s : State) : Nat :=
  match argMin (fun x => (x.2.seq + 2 ^ 32 - s.evt.nextSeq % 2 ^ 32) % 2 ^ 32) (placedEntries s) with
  | some x => x.1
  | none => 0

/-- Register block RECF (13). -/
def regRecf (s : State) (o : Nat) : Nat :=
  let r := s.rf
  match o with
  | 0x00 => pack [(0, level s), (2, b2n s.prm.recf.dual), (3, b2n (bankBusy s 0)), (4, b2n (bankBusy s 1)), (5, r.lstate),
      (7, b2n (refreshing s)), (8, b2n r.hold), (9, b2n r.wrIgnored), (10, b2n r.lowRefused)]
  | 0x14 => pack [(0, r.cmdState), (4, r.cmdErr)]
  | 0x18 => r.faults
  | 0x1C => pack [(0, r.corrected), (16, r.uncorrected)]
  | 0x20 => r.refreshes
  | 0x24 => 128 * r.logAt + ((kvGet (bankAt s (r.logAt % 2)).log r.logAt).getD []).length
  | 0x28 => oldestEntry s
  | 0x2C => bitList ((List.range 16).map (fun k => (slotKey s k).isSome))
  | 0x40 => pack [(0, b2n s.prm.recf.dual), (16, s.prm.recf.refreshDays)]
  | 0x44 => pack [(0, s.prm.recf.infoPerMin), (16, s.prm.recf.noticePerMin)]
  | o => if 0x100 ≤ o ∧ o < 0x200 then leVal (sub r.page (o - 0x100) 4) else 0

/-- Register block CLEAT (13). -/
def regCleat (s : State) (o : Nat) : Nat :=
  let c := s.cleat
  match o with
  | 0x00 => pack [(0, b2n (verifyHold s)), (1, b2n (verifyHold s)), (16, bitList (c.ctx.toList.map Option.isSome))]
  | 0x04 => pack (c.ctx.toList.zipIdx.map (fun x => (2 * x.2, match x.1 with
    | some k => ctrlNo k.owner
    | none => 0)))
  | 0x08 => c.hostBlocks
  | 0x0C => c.verifyBlocks
  | 0x10 => pack [(0, c.busyRefused), (16, c.levelRefused)]
  | 0x14 => pack [(0, c.unwrapFailed), (16, c.keysSkipped)]
  | _ => 0

/-- Register block SAFE (14). -/
def regSafe (s : State) (o : Nat) : Nat :=
  let f := s.safe
  let x := s.prm.safety
  match o with
  | 0x00 => pack [(0, b2n f.stopper), (1, b2n f.safe), (2, b2n f.halted), (3, b2n f.spilled), (4, b2n f.sealed), (5, b2n f.toggle),
      (6, b2n f.stopper), (7, b2n f.padHigh), (12, min s.aon.stopResets 3)]
  | 0x04 => pack [(0, f.bit), (8, f.group), (16, f.more)]
  | 0x08 => lo32 f.detail
  | 0x0C => lo32 f.stopSecs
  | 0x14 => f.clkFault
  | 0x20 => lo32 f.stAge
  | 0x24 => f.stFail
  | 0x28 => f.selftests
  | 0x2C => f.corrDram
  | 0x30 => f.corrSram
  | 0x34 => f.corrMram
  | 0x38 => hbMask s
  | 0x40 => pack [(0, x.hbUs), (16, x.selftestH), (24, x.scrubH)]
  | 0x44 => x.stopHoldS
  | 0x48 => x.clkTolPct
  | _ => 0

/-! ### Reading -/

/-- The value a register shows: the block by bits 23:16 of the BAR2 offset (15 R404). -/
def regValue (s : State) (off : Nat) : Nat :=
  let o := off % 0x10000
  match off / 0x10000 with
  | 0x0 => regDev s o
  | 0x1 => regPwr s o
  | 0x2 => regBoot s o
  | 0x3 => regHostx s o
  | 0x4 => regJrnl s o
  | 0x5 => regMap s o
  | 0x6 => regChannel s (o / 0x1000) (o % 0x1000)
  | 0x7 => regEcc s o
  | 0x8 => regPeer s o
  | 0x9 => regBraid s o
  | 0xA => regPs s o
  | 0xB => regTherm s o
  | 0xC => regRecf s o
  | 0xD => regCleat s o
  | 0xE => regSafe s o
  | 0xF => regEvt s o
  | _ => 0

/-- Low halves that latch their high half, with its offset (15 DEV, 04 HOSTX, 05 JRNL, 06 MAP, 10 BRAID). -/
def latchPairs : List (Nat × Nat) :=
  [(0x00004, 0x00008), (0x30008, 0x3000C), (0x30010, 0x30014), (0x40008, 0x4000C), (0x40010, 0x40014), (0x4001C, 0x40020),
   (0x50004, 0x50008), (0x50018, 0x5001C), (0x9010C, 0x90110), (0x9014C, 0x90150), (0x9018C, 0x90190), (0x901CC, 0x901D0)]

/-- Whoever reads a register: host port A, host port B, or the SMBus. -/
def latchKey (master off : Nat) : Nat := master * 2 ^ 25 + off

/-- Whether a register is the present level of the R/B_N pins of a channel. -/
def isRb (off : Nat) : Bool := off / 0x10000 = 6 && off % 0x1000 = 8

/-- The R/B_N levels of a channel: ignored, and read as 0, while the group's supply is off (16 R428); low at a target that is busy, high at one that is
ready (DEDUCED from 07 R199, log entry 77); at a target that is not fitted, has failed or has not started, a bit of a free value. -/
def rbLevels (s : State) (ch free : Nat) : Nat :=
  if !supplied s ch then 0
  else sumN ((List.range 8).map (fun t => match targetState s ch t with
    | .ready => if (tgtOf s ch t).fitted then 2 ^ t else b2n (bit free t) * 2 ^ t
    | .suspended => 2 ^ t
    | .busy => 0
    | _ => b2n (bit free t) * 2 ^ t))

/-- A register read: a high half is the one latched, a low half latches it; a high half that was never latched shows the present count (log
entry 12). -/
def regRead (master off : Nat) (s : State) : Word × State :=
  if isRb off then
    let (v, s) := draw s
    (BitVec.ofNat 32 (rbLevels s (off / 0x1000 % 16) v), s)
  else
    let v : Word := BitVec.ofNat 32 (regValue s off)
    match latchPairs.find? (fun x => x.1 = off || x.2 = off) with
    | none => (v, s)
    | some (lo, hi) =>
      if lo = off then
        (v, onDev (fun d => { d with latch := kvPut d.latch (latchKey master hi) (BitVec.ofNat 32 (regValue s hi)) }) s)
      else ((kvGet s.dev.latch (latchKey master hi)).getD v, s)

/-! ### Fields cleared by a read through BAR2 (00 R15) -/

/-- The RC fields of one channel cleared. -/
def clearChannel (ch o : Nat) (s : State) : State :=
  setChan ch (fun c => match o with
    | 0x10 => { c with reads := 0 }
    | 0x14 => { c with programs := 0 }
    | 0x18 => { c with erases := 0 }
    | 0x1C => { c with pgmFails := 0, ersFails := 0 }
    | 0x20 => { c with pgmSusp := 0, ersSusp := 0 }
    | _ => c) s

/-- The RC fields of one peer port cleared, those of its links among them. -/
def clearPort (p : Port) (o : Nat) (s : State) : State :=
  match o with
  | 0x04 => setPort p (fun q => { q with discard := 0 }) s
  | 0x08 => setPort p (fun q => { q with fecCorr := 0 }) s
  | 0x0C => setPort p (fun q => { q with fecUncorr := 0 }) s
  | 0x14 => setPort p (fun q => { q with wakeIgnored := 0 }) s
  | o => if 0x100 ≤ o ∧ (o - 0x100) % 0x80 = 0x1C then setLink p ((o - 0x100) / 0x80) (fun k => { k with replays := 0 }) s else s

/-- The RC fields of block MAP cleared. -/
def clearMap (o : Nat) (s : State) : State :=
  onMap (fun m => match o with
    | 0x40 => { m with promotions := 0 }
    | 0x44 => { m with demotions := 0 }
    | 0x48 => { m with merges := 0 }
    | 0x4C => { m with zeroFills := 0 }
    | 0x50 => { m with lostBlocks := 0 }
    | 0x54 => { m with wearMoves := 0 }
    | _ => m) s

/-- The RC fields of block ECC cleared. -/
def clearEcc (o : Nat) (s : State) : State :=
  onMedia (fun m => match o with
    | 0x04 => { m with hardOk := 0 }
    | 0x08 => { m with hardHigh := 0 }
    | 0x0C => { m with soft1 := 0 }
    | 0x10 => { m with soft2 := 0 }
    | 0x14 => { m with soft3 := 0 }
    | 0x18 => { m with unrecovered := 0 }
    | 0x1C => { m with checkFail := 0 }
    | 0x34 => { m with fidDone := 0 }
    | 0x38 => { m with fidAborted := 0 }
    | 0x3C => { m with fidRejected := 0 }
    | _ => m) s

/-- The RC fields of block PSTATE cleared. -/
def clearPs (o : Nat) (s : State) : State :=
  onPs (fun p => match o with
    | 0x0C => { p with refusals := 0 }
    | 0x14 => { p with sleeps := 0 }
    | 0x18 => { p with deeps := 0 }
    | 0x50 => { p with ptPages := 0 }
    | 0x54 => { p with ptRewrites := 0 }
    | 0x58 => { p with ptUnrecov := 0 }
    | 0x5C => { p with ptNohdr := 0 }
    | _ => p) s

/-- The RC fields of block RECF cleared. -/
def clearRecf (o : Nat) (s : State) : State :=
  onRf (fun r => match o with
    | 0x18 => { r with faults := 0 }
    | 0x1C => { r with corrected := 0, uncorrected := 0 }
    | 0x20 => { r with refreshes := 0 }
    | _ => r) s

/-- The RC fields of block CLEAT cleared. -/
def clearCleat (o : Nat) (s : State) : State :=
  onCleat (fun c => match o with
    | 0x08 => { c with hostBlocks := 0 }
    | 0x0C => { c with verifyBlocks := 0 }
    | 0x10 => { c with busyRefused := 0, levelRefused := 0 }
    | 0x14 => { c with unwrapFailed := 0, keysSkipped := 0 }
    | _ => c) s

/-- The RC fields of block SAFE cleared. -/
def clearSafe (o : Nat) (s : State) : State :=
  onSafe (fun f => match o with
    | 0x28 => { f with selftests := 0 }
    | 0x2C => { f with corrDram := 0 }
    | 0x30 => { f with corrSram := 0 }
    | 0x34 => { f with corrMram := 0 }
    | _ => f) s

/-- The RC fields of block BRAID cleared. -/
def clearBraid (o : Nat) (s : State) : State :=
  onBraid (fun b => match o with
    | 0x08 => { b with reconRow := 0 }
    | 0x0C => { b with reconPeer := 0 }
    | 0x10 => { b with beyond := 0 }
    | _ => b) s

/-- What a read through BAR2 clears (00 R15). -/
def rcClear (off : Nat) (s : State) : State :=
  let o := off % 0x10000
  match off / 0x10000 with
  | 0x3 => if o = 0x28 then onHx (fun x => { x with conflicts := 0 }) s else s
  | 0x5 => clearMap o s
  | 0x6 => clearChannel (o / 0x1000) (o % 0x1000) s
  | 0x7 => clearEcc o s
  | 0x8 =>
    if 0x1000 ≤ o ∧ o < 0x2000 then clearPort .a (o - 0x1000) s
    else if 0x2000 ≤ o ∧ o < 0x3000 then clearPort .b (o - 0x2000) s
    else s
  | 0x9 => clearBraid o s
  | 0xA => clearPs o s
  | 0xB => if o = 0x4C then onTherm (fun t => { t with stepChanges := 0 }) s else s
  | 0xC => clearRecf o s
  | 0xD => clearCleat o s
  | 0xE => clearSafe o s
  | _ => s

/-- RC_REGISTER_READ: a 32-bit read through BAR2; RC fields clear, a low half latches its high half (00 R15, 15 R404); an offset of the
reserved range reads 0, one of RECWIN reads the window (13 R364). -/
def execRcRegisterRead (p : Port) (off : Nat) (s : State) : Host.Outcome State Fault Refusal :=
  if !bar2Open s p || off % 4 ≠ 0 || off ≥ 0x2000000 then .next s
  else if off ≥ 0x1000000 then .next (windowRead p (off - 0x1000000) [] s)
  else
    let (v, s) := regRead (portNo p) off s
    .next (rcClear off (emit (.reg p v) s))

end Sys2Proof.Machine
end

