-- ==== Sys2Proof/Machine/RegWrite.lean ====
section
/-! DEFINITION. Register accesses through BAR2: size and alignment (00 R14), writes by access code (00 R15), and the fields sealed at start-up
(03 R98). -/

namespace Sys2Proof.Machine

open Sys2Proof

/-- BAR2_MISALIGNED_ACCESS: an access that is not 32 bits wide and aligned reads as ones or is discarded, with ERROR g.5 (00 R14); any other
access is none of these. -/
def execBar2MisalignedAccess (p : Port) (write : Bool) (off size : Nat) (s : State) : Host.Outcome State Fault Refusal :=
  if !bar2Open s p || (size = 4 && off % 4 = 0) then .next s
  else
    let s := onDev (fun d => { d with badOffset := off % 2 ^ 25, badPort := p }) s
    let s := if write then s else emit (.reg p 0xFFFFFFFF#32) s
    .next (raise (hostGroup p) 5 off size s)

/-! ### RWS fields (03 R98) -/

/-- What follows a value taken: the links of a port newly enabled or disabled, and the duty of the channels. -/
def rwsFollows (off : Nat) (s : State) : State :=
  if off / 0x10000 = 8 then sectionTaken 0xC s else if off / 0x10000 = 0xB then applyDuty s else s

/-- A host's write of an RWS register: before the seal and at level 0, once HOST has verified, it is taken or ignored, and NOTICE 1.9 says
which; otherwise it is ignored (03 R98). A value taken stands until the next cold or device reset, whatever a copy brings after it. -/
def rwsWrite (off v : Nat) (s : State) : State :=
  match rwsSection off with
  | none => s
  | some _ =>
    if s.boot.sealed || !s.boot.hostOk || level s ≠ 0 then s
    else match rwsTake s.prm off v with
      | some x => raise 1 9 off 0 (rwsFollows off (onBoot (fun b => { b with
          rwsTaken := b.rwsTaken.filter (fun w => w.1 ≠ off) ++ [(off, v)] }) (onPrm (fun _ => x) s)))
      | none => raise 1 9 off 1 s

/-- RWS_WRITE (03 R98). -/
def execRwsWrite (p : Port) (off : Nat) (v : Word) (s : State) : Host.Outcome State Fault Refusal :=
  if bar2Open s p && off % 4 = 0 then .next (rwsWrite off v.toNat s) else .next s

/-! ### Writes by access code (00 R15) -/

/-- A write of SMB_REQ: SMB_WR_REFUSED clears by a 1, SMB_STATE is taken, and SMB_GO gives the order (11 R314). -/
def smbReq (v : Word) (s : State) : State :=
  let s := onPs (fun p => { p with smbState := v.toNat % 8, smbRefused := p.smbRefused && !v.getLsbD 30 }) s
  if v.getLsbD 31 then smbOrder (v.toNat % 8) s else s

/-- A host's write of block DEV. -/
def writeDev (o : Nat) (v : Word) (s : State) : State :=
  if o = 0x30 then stopWrite v s else if o = 0x34 then onDev (fun d => { d with scratch := v }) s else s

/-- A host's write of block RECF. HOLD is deferred erases' bit (13 R365); bits 9 and 10 clear by a 1. -/
def writeRecf (o : Nat) (v : Word) (s : State) : State :=
  match o with
  | 0x00 => setHold (v.getLsbD 8) (onRf (fun r => { r with
      wrIgnored := r.wrIgnored && !v.getLsbD 9, lowRefused := r.lowRefused && !v.getLsbD 10 }) s)
  | 0x04 => levelCtrl v s
  | 0x08 => pinCtrl v s.rf.pinGen s
  | 0x0C => onRf (fun r => { r with pinGen := v }) s
  | 0x10 => recfCmd v s
  | o => if 0x100 ≤ o ∧ o < 0x200 then
      onRf (fun r => { r with page := r.page.take (o - 0x100) ++ le 4 v.toNat ++ r.page.drop (o - 0x100 + 4) }) s
    else s

/-- A host's write of block PEER: WAKE_SEND, and WAKE_SEEN of a port, which clears by a 1 (09 R264). -/
def writePeer (o : Nat) (v : Word) (s : State) : State :=
  let seen (p : Port) (s : State) : State :=
    if v.getLsbD 8 then onAon (fun a => { a with wakeSeen := a.wakeSeen.modify p (fun _ => false) }) s else s
  match o with
  | 0x0004 => wakeSend v s
  | 0x1000 => seen .a s
  | 0x2000 => seen .b s
  | _ => s

/-- A host's write of block EVT: status clears by ones, routing and vectors are taken (15 R407, R409, R412). -/
def writeEvt (o : Nat) (v : Word) (s : State) : State :=
  if o < 0x40 then clearStatus (o / 4) v s
  else if 0x100 ≤ o ∧ o < 0x300 then
    (match routeAt ((o - 0x100) % 0x20 / 4) with
     | some r => setRoute r ((o - 0x100) / 0x20) v s
     | none => s)
  else if 0x300 ≤ o ∧ o < 0x340 then
    onEvt (fun e => { e with
      vec1 := modVec e.vec1 ((o - 0x300) / 4) (fun _ => field v.toNat 5 0)
      vec2 := modVec e.vec2 ((o - 0x300) / 4) (fun _ => field v.toNat 13 8) }) s
  else s

/-- What a host's 32-bit write does, block by block; read-only fields ignore it (00 R15). -/
def hostWrite (off : Nat) (v : Word) (s : State) : State :=
  let o := off % 0x10000
  if (rwsSection off).isSome then rwsWrite off v.toNat s
  else match off / 0x10000 with
    | 0x0 => writeDev o v s
    | 0x1 =>
      if o = 0x08 then (if v.getLsbD 16 then onPwr (fun p => { p with class7 := false }) s else s)
      else if o = 0x24 then measNow v s else s
    | 0x3 => if o = 0x40 ∧ v.getLsbD 4 then onSmb (fun m => { m with wrIgnored := false }) s else s
    | 0x7 =>
      if o = 0x44 then fidReq v s
      else if o = 0x80 then onMedia (fun m => { m with winDie := field v.toNat 8 0, winAge := field v.toNat 18 16 }) s
      else s
    | 0x8 => writePeer o v s
    | 0xA => if o = 0x20 then smbReq v s else s
    | 0xC => writeRecf o v s
    | 0xE => if o = 0x10 then stopWrite v s else s
    | 0xF => writeEvt o v s
    | _ => s

/-- REGISTER_WRITE: a host's aligned 32-bit write anywhere in BAR2: registers by their access codes (00 R15), the reserved range ignored (15
R404), and RECWIN's writes discarded (13 R366). -/
def execRegisterWrite (p : Port) (off : Nat) (v : Word) (s : State) : Host.Outcome State Fault Refusal :=
  if !bar2Open s p || off % 4 ≠ 0 || off ≥ 0x2000000 then .next s
  else if off ≥ 0x1000000 then .next (windowWrite s)
  else .next (hostWrite off v s)

end Sys2Proof.Machine
end

