-- ==== Sys2Proof/Machine/Sideband.lean ====
section
/-! DEFINITION. The SMBus sideband: the register window (04 R123, 15 R405), NVMe-MI basic management (04 R124, 11 R323), the Alert Response
Address (15 R411), line recovery (04 R125), and the device reset that the SMBus orders (14 R398). -/

namespace Sys2Proof.Machine

open Sys2Proof

/-- A transaction that is not acknowledged (log entry 49: the SMBus not answering shows in the same way). -/
def nack (s : State) : State := emit .smbNack s

/-- The BAR2 offset that the window names. -/
def windowAt (s : State) : Nat := s.smb.block * 0x10000 + s.smb.offset

/-- The window's offset moved on by 4, within the 64 KiB of its block (04 R123). -/
def windowOn (s : State) : State := onSmb (fun m => { m with offset := (m.offset + 4) % 0x10000 }) s

/-- SMB_SELECT_BLOCK: code 0x10 (04 R123). -/
def execSmbSelectBlock (code : Nat) (pecOk : Bool) (s : State) : Host.Outcome State Fault Refusal :=
  if !smbAlive s || !pecOk || code > 0xF then .next (nack s) else .next (onSmb (fun m => { m with block := code }) s)

/-- SMB_SET_OFFSET: code 0x11, bits 1:0 ignored (04 R123). -/
def execSmbSetOffset (off : Nat) (pecOk : Bool) (s : State) : Host.Outcome State Fault Refusal :=
  if !smbAlive s || !pecOk then .next (nack s) else .next (onSmb (fun m => { m with offset := off % 0x10000 / 4 * 4 }) s)

/-- SMB_REGISTER_READ: code 0x12 read: the register, no RC field cleared; the offset moves on by 4 (00 R17, 04 R123). -/
def execSmbRegisterRead (s : State) : Host.Outcome State Fault Refusal :=
  if !smbAlive s then .next (nack s)
  else
    let (v, s) := regRead 2 (windowAt s) s
    .next (windowOn (emit (.smb (le 4 v.toNat)) s))

/-- What an SMBus write does: only SMB_STOP_RESET and SMB_SCRATCH of DEV, SMB_REQ of PSTATE and the status registers of EVT take it; any other
is ignored and sets SMB_WR_IGNORED (04 R123, 15 R405). -/
def smbWrite (off : Nat) (v : Word) (s : State) : State :=
  let o := off % 0x10000
  match off / 0x10000 with
  | 0x0 => if o = 0x30 ∨ o = 0x34 then writeDev o v s else onSmb (fun m => { m with wrIgnored := true }) s
  | 0xA => if o = 0x20 then smbReq v s else onSmb (fun m => { m with wrIgnored := true }) s
  | 0xF => if o < 0x40 then clearStatus (o / 4) v s else onSmb (fun m => { m with wrIgnored := true }) s
  | _ => onSmb (fun m => { m with wrIgnored := true }) s

/-- SMB_REGISTER_WRITE: code 0x12 write (04 R123); one with a wrong PEC is discarded, the offset as it was (04 R122). -/
def execSmbRegisterWrite (v : Word) (pecOk : Bool) (s : State) : Host.Outcome State Fault Refusal :=
  if !smbAlive s || !pecOk then .next (nack s) else .next (windowOn (smbWrite (windowAt s) v s))

/-- SMB_STOP_RESET: the SMBus writes 0xA5C3 (14 R398). -/
def execSmbStopReset (v : Word) (s : State) : Host.Outcome State Fault Refusal :=
  if smbAlive s then .next (stopWrite v s) else .next s

/-! ### NVMe-MI basic management (04 R124) -/

/-- A temperature as the byte of basic management: whole degrees Celsius from −60 to 127 (PRESUMED, log entry 39). -/
def tempByte (t : Int) : Nat := code 8 (min 127 (max (-60) (t / 16)))

/-- The status flags: bits whose values the spec does not give are free; functional 5, port A 3, port B 2, and the two low bits 1 (PRESUMED
layout, log entry 39). -/
def statusFlags (s : State) : Byte × State :=
  let (arb, s) := drawBool s
  let (wait, s) := drawBool s
  let (noReset, s) := drawBool s
  let f := bitList [true, true, s.ctl.b.link, s.ctl.a.link, noReset, !s.safe.stopper && !s.boot.noImage, wait, arb]
  (BitVec.ofNat 8 f, s)

/-- NVME_MI_REFRESH: once per second in RUN, IDLE and SLEEP every value; in DEEP and PATROL the composite temperature only (04 R124, 11 R323). -/
def execNvmeMiRefresh (s : State) : Host.Outcome State Fault Refusal :=
  if !s.pwr.railsOk || s.ps.state = 4 then .next s
  else if s.ps.state ≤ 2 then
    let (f, s) := statusFlags s
    .next (onSmb (fun m => { m with miFlags := f, miCritical := criticalWarning s, miTemp := composite s, miUsed := percentUsed s }) s)
  else .next (onSmb (fun m => { m with miTemp := composite s }) s)

/-- BASIC_MANAGEMENT_CODE_0 (04 R124): length, flags, critical warning, temperature, Percentage Used, two reserved bytes. -/
def execBasicManagementCode0 (s : State) : Host.Outcome State Fault Refusal :=
  if !smbAlive s then .next (nack s)
  else .next (emit (.smb [6#8, s.smb.miFlags, s.smb.miCritical, BitVec.ofNat 8 (tempByte s.smb.miTemp),
    BitVec.ofNat 8 (sat 8 s.smb.miUsed), 0#8, 0#8]) s)

/-- BASIC_MANAGEMENT_CODE_8 (04 R124): length, the PCI Vendor ID with its high byte first, and the Serial Number. -/
def execBasicManagementCode8 (s : State) : Host.Outcome State Fault Refusal :=
  if !smbAlive s then .next (nack s)
  else .next (emit (.smb ([22#8] ++ (le 2 Config.vendorId).reverse ++ padText 20 (hostView s).sn)) s)

/-! ### Alerts and recovery -/

/-- The register window's 7-bit address (04 R122). -/
def windowAddress (s : State) : Nat := 0x5C + s.boot.smbAddr

/-- ALERT_RESPONSE: a read at 0x0C answers with the window address and releases SMB_ALERT_N; without an alert nobody answers (15 R411). -/
def execAlertResponse (s : State) : Host.Outcome State Fault Refusal :=
  if smbAlive s && s.evt.smbAlert then
    .next (onEvt (fun e => { e with smbAlert := false }) (emit (.smb [BitVec.ofNat 8 (2 * windowAddress s)]) s))
  else .next (nack s)

/-- SMBUS_STUCK_TIMEOUT: a line held low for 35 ms: both lines released, nine clocks and a STOP, and NOTICE 2.29; the third in a row that fails disables the SMBus, with ERROR
2.30 (04 R125), and SMB_ALERT_N stays released (15 R411). -/
def execSmbusStuckTimeout (failed : Bool) (s : State) : Host.Outcome State Fault Refusal :=
  if s.smb.off ∨ ¬ s.pwr.railsOk ∨ s.ps.state = 4 then .next s
  else
    let n := if failed then s.smb.fails + 1 else 0
    let s := raise 2 29 0 0 (onSmb (fun m => { m with recoveries := inc 8 m.recoveries, fails := min n 3 }) (emit .smbRecover s))
    if n ≥ 3 then .next (raise 2 30 0 0 (onEvt (fun e => { e with smbAlert := false }) (onSmb (fun m => { m with off := true }) s)))
    else .next s

/-- SMBUS_IDLE_TIMEOUT: both lines high for 1 s: the count of failures returns to 0 (04 R125). -/
def execSmbusIdleTimeout (s : State) : Host.Outcome State Fault Refusal := .next (onSmb (fun m => { m with fails := 0 }) s)

end Sys2Proof.Machine
end

