-- ==== Sys2Proof/Machine/Dispatch.lean ====
section
/-! DEFINITION. The dispatch: one arm per command of spec/opcode_table.json, each one direct call of its meaning. -/

namespace Sys2Proof.Machine

def exec (i : Instr) (s : State) : Host.Outcome State Fault Refusal :=
  match i with
  | .coldReset => Sys2Proof.Machine.execColdReset s
  | .deviceReset => Sys2Proof.Machine.execDeviceReset s
  | .warmReset p => Sys2Proof.Machine.execWarmReset p s
  | .controllerReset p => Sys2Proof.Machine.execControllerReset p s
  | .controllerEnable e => Sys2Proof.Machine.execControllerEnable e s
  | .functionLevelReset p => Sys2Proof.Machine.execFunctionLevelReset p s
  | .bar2MisalignedAccess p write off size => Sys2Proof.Machine.execBar2MisalignedAccess p write off size s
  | .registerWrite p off v => Sys2Proof.Machine.execRegisterWrite p off v s
  | .rcRegisterRead p off => Sys2Proof.Machine.execRcRegisterRead p off s
  | .rwsWrite p off v => Sys2Proof.Machine.execRwsWrite p off v s
  | .doorbellWrite p sq tail => Sys2Proof.Machine.execDoorbellWrite p sq tail s
  | .smbSelectBlock code pecOk => Sys2Proof.Machine.execSmbSelectBlock code pecOk s
  | .smbSetOffset off pecOk => Sys2Proof.Machine.execSmbSetOffset off pecOk s
  | .smbRegisterRead => Sys2Proof.Machine.execSmbRegisterRead s
  | .smbRegisterWrite v pecOk => Sys2Proof.Machine.execSmbRegisterWrite v pecOk s
  | .basicManagementCode0 => Sys2Proof.Machine.execBasicManagementCode0 s
  | .basicManagementCode8 => Sys2Proof.Machine.execBasicManagementCode8 s
  | .nvmeMiRefresh => Sys2Proof.Machine.execNvmeMiRefresh s
  | .alertResponse => Sys2Proof.Machine.execAlertResponse s
  | .smbusStuckTimeout failed => Sys2Proof.Machine.execSmbusStuckTimeout failed s
  | .smbusIdleTimeout => Sys2Proof.Machine.execSmbusIdleTimeout s
  | .write h nsid slba nlb1 fua => Sys2Proof.Machine.execWrite h nsid slba nlb1 fua s
  | .read h nsid slba nlb1 => Sys2Proof.Machine.execRead h nsid slba nlb1 s
  | .flush h nsid => Sys2Proof.Machine.execFlush h nsid s
  | .compare h nsid slba nlb1 data => Sys2Proof.Machine.execCompare h nsid slba nlb1 data s
  | .fusedCompareAndWrite h nsid slba nlb1 data second => Sys2Proof.Machine.execFusedCompareAndWrite h nsid slba nlb1 data second s
  | .writeZeroes h nsid slba nlb1 => Sys2Proof.Machine.execWriteZeroes h nsid slba nlb1 s
  | .datasetManagement h nsid ad ranges => Sys2Proof.Machine.execDatasetManagement h nsid ad ranges s
  | .verify h nsid slba nlb1 => Sys2Proof.Machine.execVerify h nsid slba nlb1 s
  | .reservationRegister h nsid rrega iekey cptpl crkey nrkey => Sys2Proof.Machine.execReservationRegister h nsid rrega iekey cptpl crkey nrkey s
  | .reservationReport h nsid => Sys2Proof.Machine.execReservationReport h nsid s
  | .reservationAcquire h nsid racqa rtype iekey crkey prkey => Sys2Proof.Machine.execReservationAcquire h nsid racqa rtype iekey crkey prkey s
  | .reservationRelease h nsid rrela rtype iekey crkey => Sys2Proof.Machine.execReservationRelease h nsid rrela rtype iekey crkey s
  | .deleteIoSubmissionQueue h qid => Sys2Proof.Machine.execDeleteIoSubmissionQueue h qid s
  | .createIoSubmissionQueue h qid qsize cqid pc => Sys2Proof.Machine.execCreateIoSubmissionQueue h qid qsize cqid pc s
  | .deleteIoCompletionQueue h qid => Sys2Proof.Machine.execDeleteIoCompletionQueue h qid s
  | .createIoCompletionQueue h qid qsize iv ien pc => Sys2Proof.Machine.execCreateIoCompletionQueue h qid qsize iv ien pc s
  | .getLogPage h lid lpo len rae => Sys2Proof.Machine.execGetLogPage h lid lpo len rae s
  | .identify h cns nsid cntid => Sys2Proof.Machine.execIdentify h cns nsid cntid s
  | .abort h sqid cid => Sys2Proof.Machine.execAbort h sqid cid s
  | .setFeatures h fid sv nsid value hostId => Sys2Proof.Machine.execSetFeatures h fid sv nsid value hostId s
  | .getFeatures h fid sel nsid cdw11 => Sys2Proof.Machine.execGetFeatures h fid sel nsid cdw11 s
  | .asynchronousEventRequest h => Sys2Proof.Machine.execAsynchronousEventRequest h s
  | .keepAlive h => Sys2Proof.Machine.execKeepAlive h s
  | .keepAliveExpiry p => Sys2Proof.Machine.execKeepAliveExpiry p s
  | .imageStage h block count first last copy data sfdp => Sys2Proof.Machine.execImageStage h block count first last copy data sfdp s
  | .stagingComplete => Sys2Proof.Machine.execStagingComplete s
  | .loadStore h slot kslot => Sys2Proof.Machine.execLoadStore h slot kslot s
  | .loadClear h slot key256 buf => Sys2Proof.Machine.execLoadClear h slot key256 buf s
  | .encrypt h slot count buf => Sys2Proof.Machine.execEncrypt h slot count buf s
  | .decrypt h slot count buf => Sys2Proof.Machine.execDecrypt h slot count buf s
  | .cmacUpdate h slot count buf => Sys2Proof.Machine.execCmacUpdate h slot count buf s
  | .cmacFinal h slot count padded buf => Sys2Proof.Machine.execCmacFinal h slot count padded buf s
  | .cmacReset h slot => Sys2Proof.Machine.execCmacReset h slot s
  | .free h slot => Sys2Proof.Machine.execFree h slot s
  | .cleatContextSave h slot wrapped => Sys2Proof.Machine.execCleatContextSave h slot wrapped s
  | .cleatContextRestore h slot wrapped buf => Sys2Proof.Machine.execCleatContextRestore h slot wrapped buf s
  | .start h nsid newLayout autoSwitch => Sys2Proof.Machine.execStart h nsid newLayout autoSwitch s
  | .continue h nsid => Sys2Proof.Machine.execContinue h nsid s
  | .abortSplice h nsid => Sys2Proof.Machine.execAbortSplice h nsid s
  | .switch h nsid => Sys2Proof.Machine.execSwitch h nsid s
  | .spliceStatus h nsid => Sys2Proof.Machine.execSpliceStatus h nsid s
  | .enter h st => Sys2Proof.Machine.execEnter h st s
  | .patrolNow h => Sys2Proof.Machine.execPatrolNow h s
  | .setCeiling h st => Sys2Proof.Machine.execSetCeiling h st s
  | .query h => Sys2Proof.Machine.execQuery h s
  | .bufferTokenGrant => Sys2Proof.Machine.execBufferTokenGrant s
  | .logicalBlockArrival ext idx blk => Sys2Proof.Machine.execLogicalBlockArrival ext idx blk s
  | .intentAdmit ext checksOk => Sys2Proof.Machine.execIntentAdmit ext checksOk s
  | .recordDurable => Sys2Proof.Machine.execRecordDurable s
  | .extentPlacement ext close checksOk src => Sys2Proof.Machine.execExtentPlacement ext close checksOk src s
  | .programStatus prog ok metaOk => Sys2Proof.Machine.execProgramStatus prog ok metaOk s
  | .nandReadComplete rid words row => Sys2Proof.Machine.execNandReadComplete rid words row s
  | .softDecodeDone rid left badCheck row => Sys2Proof.Machine.execSoftDecodeDone rid left badCheck row s
  | .mirrorAck f m a => Sys2Proof.Machine.execMirrorAck f m a s
  | .vinRise straps => Sys2Proof.Machine.execVinRise straps s
  | .checkTimerExpiry => Sys2Proof.Machine.execCheckTimerExpiry s
  | .shortedPassTimeout => Sys2Proof.Machine.execShortedPassTimeout s
  | .voutReached => Sys2Proof.Machine.execVoutReached s
  | .rampTimeout => Sys2Proof.Machine.execRampTimeout s
  | .gateEnhanced => Sys2Proof.Machine.execGateEnhanced s
  | .enhanceTimeout voutFollowed => Sys2Proof.Machine.execEnhanceTimeout voutFollowed s
  | .currentLimitReached => Sys2Proof.Machine.execCurrentLimitReached s
  | .limitRecovered => Sys2Proof.Machine.execLimitRecovered s
  | .voutCollapse => Sys2Proof.Machine.execVoutCollapse s
  | .faultTimerExpiry atBound => Sys2Proof.Machine.execFaultTimerExpiry atBound s
  | .retryTimerExpiry => Sys2Proof.Machine.execRetryTimerExpiry s
  | .inputLoss kind => Sys2Proof.Machine.execInputLoss kind s
  | .inputOverVoltage => Sys2Proof.Machine.execInputOverVoltage s
  | .overVoltageEnd straps => Sys2Proof.Machine.execOverVoltageEnd straps s
  | .sysRstNFall => Sys2Proof.Machine.execSysRstNFall s
  | .sysRstNRise straps => Sys2Proof.Machine.execSysRstNRise straps s
  | .testModeRise => Sys2Proof.Machine.execTestModeRise s
  | .testModeFall straps => Sys2Proof.Machine.execTestModeFall straps s
  | .gateLowOrder o => Sys2Proof.Machine.execGateLowOrder o s
  | .deviceResetHoldExpiry => Sys2Proof.Machine.execDeviceResetHoldExpiry s
  | .bankReserveReached => Sys2Proof.Machine.execBankReserveReached s
  | .holdupTimeout => Sys2Proof.Machine.execHoldupTimeout s
  | .spillProgramStatus ext ok failed => Sys2Proof.Machine.execSpillProgramStatus ext ok failed s
  | .railUnderVoltage r => Sys2Proof.Machine.execRailUnderVoltage r s
  | .vddAonLoss => Sys2Proof.Machine.execVddAonLoss s
  | .bankCharged => Sys2Proof.Machine.execBankCharged s
  | .holdupMeasurementDue => Sys2Proof.Machine.execHoldupMeasurementDue s
  | .measNow p v => Sys2Proof.Machine.execMeasNow p v s
  | .holdupMeasurementDone capNf esrUohm => Sys2Proof.Machine.execHoldupMeasurementDone capNf esrUohm s
  | .railsGood => Sys2Proof.Machine.execRailsGood s
  | .pllLock clkRef straps dieHot => Sys2Proof.Machine.execPllLock clkRef straps dieHot s
  | .crystalSwitch => Sys2Proof.Machine.execCrystalSwitch s
  | .crystalLost => Sys2Proof.Machine.execCrystalLost s
  | .clkRefAbsentTimeout => Sys2Proof.Machine.execClkRefAbsentTimeout s
  | .clkRefAppear => Sys2Proof.Machine.execClkRefAppear s
  | .imageBlockRead line sfdp => Sys2Proof.Machine.execImageBlockRead line sfdp s
  | .imageBlockVerified => Sys2Proof.Machine.execImageBlockVerified s
  | .journalScan failing => Sys2Proof.Machine.execJournalScan failing s
  | .survey unreadable => Sys2Proof.Machine.execSurvey unreadable s
  | .replay restart => Sys2Proof.Machine.execReplay restart s
  | .mapLoad headers badPages => Sys2Proof.Machine.execMapLoad headers badPages s
  | .hostReady => Sys2Proof.Machine.execHostReady s
  | .hostReadyLate => Sys2Proof.Machine.execHostReadyLate s
  | .pcieLinkUp p speed width => Sys2Proof.Machine.execPcieLinkUp p speed width s
  | .pcieLinkDown p => Sys2Proof.Machine.execPcieLinkDown p s
  | .pcieUncorrectableError p => Sys2Proof.Machine.execPcieUncorrectableError p s
  | .perstNAssert p => Sys2Proof.Machine.execPerstNAssert p s
  | .perstHeldTimeout => Sys2Proof.Machine.execPerstHeldTimeout s
  | .perstNRelease p => Sys2Proof.Machine.execPerstNRelease p s
  | .checkpointBegin reason => Sys2Proof.Machine.execCheckpointBegin reason s
  | .checkpointEnd => Sys2Proof.Machine.execCheckpointEnd s
  | .carryForward => Sys2Proof.Machine.execCarryForward s
  | .auditImbalanceTimeout quantity => Sys2Proof.Machine.execAuditImbalanceTimeout quantity s
  | .heatSweep hank src => Sys2Proof.Machine.execHeatSweep hank src s
  | .fold src => Sys2Proof.Machine.execFold src s
  | .garbageCollection src => Sys2Proof.Machine.execGarbageCollection src s
  | .setErase set => Sys2Proof.Machine.execSetErase set s
  | .eraseStatus unit ok rbHigh => Sys2Proof.Machine.execEraseStatus unit ok rbHigh s
  | .rewrite src => Sys2Proof.Machine.execRewrite src s
  | .channelStart ch targets trainFails => Sys2Proof.Machine.execChannelStart ch targets trainFails s
  | .channelRetrain ch trainFails => Sys2Proof.Machine.execChannelRetrain ch trainFails s
  | .suspendComplete die ranUs => Sys2Proof.Machine.execSuspendComplete die ranUs s
  | .suspendTimeout die => Sys2Proof.Machine.execSuspendTimeout die s
  | .targetBusyTimeout ch tgt row => Sys2Proof.Machine.execTargetBusyTimeout ch tgt row s
  | .rbLowTimeout ch tgt row => Sys2Proof.Machine.execRbLowTimeout ch tgt row s
  | .resetReadyTimeout ch tgt => Sys2Proof.Machine.execResetReadyTimeout ch tgt s
  | .fid die bucket r => Sys2Proof.Machine.execFid die bucket r s
  | .fidDue die bucket => Sys2Proof.Machine.execFidDue die bucket s
  | .fidReq p v => Sys2Proof.Machine.execFidReq p v s
  | .ack f => Sys2Proof.Machine.execAck f s
  | .nak f => Sys2Proof.Machine.execNak f s
  | .hello p link h => Sys2Proof.Machine.execHello p link h s
  | .helloAck p link h => Sys2Proof.Machine.execHelloAck p link h s
  | .order f m kind args => Sys2Proof.Machine.execOrder f m kind args s
  | .response f m status => Sys2Proof.Machine.execResponse f m status s
  | .tieoffNotice f m cause wakeAddr => Sys2Proof.Machine.execTieoffNotice f m cause wakeAddr s
  | .mirrorWrite f m extNlb1 extOff blks => Sys2Proof.Machine.execMirrorWrite f m extNlb1 extOff blks s
  | .statusReq f m => Sys2Proof.Machine.execStatusReq f m s
  | .status f m pstate stopper imageGen critical => Sys2Proof.Machine.execStatus f m pstate stopper imageGen critical s
  | .lbWrite f m dealloc extNlb1 extOff blks => Sys2Proof.Machine.execLbWrite f m dealloc extNlb1 extOff blks s
  | .lbDelta f m j blks => Sys2Proof.Machine.execLbDelta f m j blks s
  | .lbAck f m a => Sys2Proof.Machine.execLbAck f m a s
  | .readReq f m parity => Sys2Proof.Machine.execReadReq f m parity s
  | .readData f m recs => Sys2Proof.Machine.execReadData f m recs s
  | .splicePrepare f m id bytes => Sys2Proof.Machine.execSplicePrepare f m id bytes s
  | .spliceReply f m status folds => Sys2Proof.Machine.execSpliceReply f m status folds s
  | .spliceCopy f m id recs => Sys2Proof.Machine.execSpliceCopy f m id recs s
  | .foldReq f m id hanks => Sys2Proof.Machine.execFoldReq f m id hanks s
  | .splicePhase f m id phase nextGseq => Sys2Proof.Machine.execSplicePhase f m id phase nextGseq s
  | .release f m => Sys2Proof.Machine.execRelease f m s
  | .recopy f m id recs => Sys2Proof.Machine.execRecopy f m id recs s
  | .ackDelayExpiry p link => Sys2Proof.Machine.execAckDelayExpiry p link s
  | .keepaliveTimer p link => Sys2Proof.Machine.execKeepaliveTimer p link s
  | .livenessLost p link => Sys2Proof.Machine.execLivenessLost p link s
  | .helloTimer p link => Sys2Proof.Machine.execHelloTimer p link s
  | .handshakeTimeout p link => Sys2Proof.Machine.execHandshakeTimeout p link s
  | .ackTimeout p link => Sys2Proof.Machine.execAckTimeout p link s
  | .phyUp p slow => Sys2Proof.Machine.execPhyUp p slow s
  | .phyLost p => Sys2Proof.Machine.execPhyLost p s
  | .trainingAttemptTimeout p => Sys2Proof.Machine.execTrainingAttemptTimeout p s
  | .wakeSend p v => Sys2Proof.Machine.execWakeSend p v s
  | .wakePattern p addr compl => Sys2Proof.Machine.execWakePattern p addr compl s
  | .signalEnergy p => Sys2Proof.Machine.execSignalEnergy p s
  | .degradeTimeout p link nsid => Sys2Proof.Machine.execDegradeTimeout p link nsid s
  | .rebuild src => Sys2Proof.Machine.execRebuild src s
  | .spliceBuild id => Sys2Proof.Machine.execSpliceBuild id s
  | .spliceVerify id => Sys2Proof.Machine.execSpliceVerify id s
  | .switchTimeout id => Sys2Proof.Machine.execSwitchTimeout id s
  | .spliceRelease id => Sys2Proof.Machine.execSpliceRelease id s
  | .idleTimerExpiry idleUs => Sys2Proof.Machine.execIdleTimerExpiry idleUs s
  | .participantAnswer agree reason => Sys2Proof.Machine.execParticipantAnswer agree reason s
  | .participantTimeout => Sys2Proof.Machine.execParticipantTimeout s
  | .smbGo st => Sys2Proof.Machine.execSmbGo st s
  | .l1Exit p => Sys2Proof.Machine.execL1Exit p s
  | .wakeInNFall => Sys2Proof.Machine.execWakeInNFall s
  | .wakeInHeldTimeout => Sys2Proof.Machine.execWakeInHeldTimeout s
  | .patrolCycle group turn => Sys2Proof.Machine.execPatrolCycle group turn s
  | .patrolRead group visits => Sys2Proof.Machine.execPatrolRead group visits s
  | .sensorSample rs => Sys2Proof.Machine.execSensorSample rs s
  | .thermalGraceExpiry => Sys2Proof.Machine.execThermalGraceExpiry s
  | .stepTimerExpiry i1 => Sys2Proof.Machine.execStepTimerExpiry i1 s
  | .dramTemperatureRead code0 code1 => Sys2Proof.Machine.execDramTemperatureRead code0 code1 s
  | .compensation => Sys2Proof.Machine.execCompensation s
  | .calibration aonPpm refIntPpm clkRefPpm => Sys2Proof.Machine.execCalibration aonPpm refIntPpm clkRefPpm s
  | .recordFlashProgramDone bank ok => Sys2Proof.Machine.execRecordFlashProgramDone bank ok s
  | .recordFlashEraseDone bank ok => Sys2Proof.Machine.execRecordFlashEraseDone bank ok s
  | .recwinRead p off flips => Sys2Proof.Machine.execRecwinRead p off flips s
  | .recwinWrite p off v => Sys2Proof.Machine.execRecwinWrite p off v s
  | .hold p => Sys2Proof.Machine.execHold p s
  | .holdExpiry => Sys2Proof.Machine.execHoldExpiry s
  | .program p v => Sys2Proof.Machine.execProgram p v s
  | .erase p v => Sys2Proof.Machine.execErase p v s
  | .refresh bank sector corrected uncorrectable => Sys2Proof.Machine.execRefresh bank sector corrected uncorrectable s
  | .levelRaise p v => Sys2Proof.Machine.execLevelRaise p v s
  | .levelLower p v => Sys2Proof.Machine.execLevelLower p v s
  | .pin p v gen => Sys2Proof.Machine.execPin p v gen s
  | .unpin p v => Sys2Proof.Machine.execUnpin p v s
  | .heartbeatMissed source => Sys2Proof.Machine.execHeartbeatMissed source s
  | .lockstepMismatch pair => Sys2Proof.Machine.execLockstepMismatch pair s
  | .scrub found => Sys2Proof.Machine.execScrub found s
  | .clockLost domain => Sys2Proof.Machine.execClockLost domain s
  | .frequencyCheckWindow domain count nominal => Sys2Proof.Machine.execFrequencyCheckWindow domain count nominal s
  | .supplyDisagree rail => Sys2Proof.Machine.execSupplyDisagree rail s
  | .faultNReadback padHigh lastedMs => Sys2Proof.Machine.execFaultNReadback padHigh lastedMs s
  | .selfTest failing => Sys2Proof.Machine.execSelfTest failing s
  | .liveToggleLost => Sys2Proof.Machine.execLiveToggleLost s
  | .stopperMediaHalt => Sys2Proof.Machine.execStopperMediaHalt s
  | .stopReset p v => Sys2Proof.Machine.execStopReset p v s
  | .smbStopReset v => Sys2Proof.Machine.execSmbStopReset v s
  | .stopHoldExpiry => Sys2Proof.Machine.execStopHoldExpiry s
  | .eventLogWrite => Sys2Proof.Machine.execEventLogWrite s
  | .evtStatusClear g v => Sys2Proof.Machine.execEvtStatusClear g v s
  | .routingWrite r g v => Sys2Proof.Machine.execRoutingWrite r g v s
  | .timeMark => Sys2Proof.Machine.execTimeMark s
  | .invalidCommandOpcode h opcode => Sys2Proof.Machine.execInvalidCommandOpcode h opcode s
  | .configurationRequest p reg => Sys2Proof.Machine.execConfigurationRequest p reg s
  | .frameDiscarded f why => Sys2Proof.Machine.execFrameDiscarded f why s
  | .window10ms => Sys2Proof.Machine.execWindow10ms s
  | .thermalRecordWaitTimeout => Sys2Proof.Machine.execThermalRecordWaitTimeout s

end Sys2Proof.Machine
end

