-- ==== Sys2Proof/Machine/Tick.lean ====
section
/-! DEFINITION. One second without a command (log entry 3): the counts of time that the spec gives the block, the measured voltages, and what
the passing of a second decides without a command of its own. -/

namespace Sys2Proof.Machine

open Sys2Proof

/-- The device-seconds counter, while VDD_AON holds its value (15 R421). -/
def tickSeconds (s : State) : State :=
  if s.dev.lostAon then s else onDev (fun d => { d with secs := (d.secs + 1) % 2 ^ 48 }) s

/-- The arrival-stamp counter: CLK_CORE runs in RUN (00 R11, 11 R308). -/
def tickStamp (s : State) : State :=
  if s.ps.state = 0 then onHx (fun x => { x with stamp := (x.stamp + 10 ^ 9) % 2 ^ 64 }) s else s

/-- PSTATE DEEP_SECONDS, in DEEP and PATROL (11). -/
def tickDeep (s : State) : State :=
  if s.ps.state = 3 ∨ s.ps.state = 5 then onPs (fun p => { p with deepSecs := inc 32 p.deepSecs }) s else s

/-- THERM THROTTLE_S, with any step above STEP_0 (12). -/
def tickThrottle (s : State) : State :=
  if s.therm.step.any (fun k => k > 0) then onTherm (fun t => { t with throttleS := inc 32 t.throttleS }) s else s

/-- Whether a link is tied off. -/
def tiedOff (k : Link) : Bool := k.state ≠ .up && k.state ≠ .disabled

/-- PEER TIEOFF_MS of every link that is tied off (09). -/
def tickLinks (s : State) : State :=
  let f (q : PeerPort) : PeerPort :=
    { q with links := q.links.map (fun k => if tiedOff k then { k with tieMs := sat 32 (k.tieMs + 1000) } else k) }
  setPort .b f (setPort .a f s)

/-- SAFE SELFTEST_AGE_S, while Lanyard runs (14). -/
def tickSelftest (s : State) : State := if lanyardRuns s then onSafe (fun f => { f with stAge := inc 32 f.stAge }) s else s

/-- A second without an outstanding host command exceeds the 100 ms of 06 R172. -/
def tickIdle (s : State) : State := if s.cmds.isEmpty then onMap (fun m => { m with gcMs := 100 }) s else s

/-- The voltages and the current that PWR shows: free values while the rails are good (02; log entry 7). -/
def tickVolts (s : State) : State :=
  let (a, s) := draw s
  let (b, s) := draw s
  let (c, s) := draw s
  let (d, s) := draw s
  onPwr (fun p => { p with vinMv := a % 2 ^ 16, voutMv := b % 2 ^ 16, vhuMv := c % 2 ^ 16, iinMa := d % 2 ^ 16 }) s

/-- WAKE_IN_N: no command says that the pin rises. A low level that has not been held for the 1 s of 11 R325, else NOTICE 12.9 would have come,
has risen (log entry 3). -/
def tickWake (s : State) : State :=
  if s.ps.wakeLow && !s.ps.wakeTold then onPs (fun p => { p with wakeLow := false }) s else s

/-- The patrol's schedule in RUN and IDLE (11 R328), and repairs that waited for a splice (10 R304). -/
def tickBraid (s : State) : State :=
  let s := if s.boot.hostReady && s.ps.state ≤ 1 && s.map.state = 3 then (List.range 4).foldl checkPace s else s
  if s.boot.hostReady && s.jrnl.state = 4 && !s.safe.stopper then lateRepairs s else s

/-- One second of the core. -/
def tickCore (s : State) : State :=
  s |> tickStamp |> tickDeep |> tickThrottle |> tickLinks |> tickSelftest |> tickIdle |> tickVolts |> tickBraid

/-- One second. -/
def tick (s : State) : State :=
  let s := tickWake (tickSeconds s)
  if s.pwr.railsOk then tickCore s else s

end Sys2Proof.Machine
end

