-- ==== Sys2Proof/Machine/Tap.lean ====
section
/-! DEFINITION. The boundary-scan port (16 R441): its controller and registers are those of IEEE 1149.1 (PRESUMED, log entry 65), and at
protection level 2 it accepts only BYPASS and IDCODE (13 R369). No row of the command table clocks the port: these are its operations. -/

namespace Sys2Proof.Machine

open Sys2Proof

/-- The controller's next state at a rising TCK edge, by TMS. -/
def tapNext (t : TapState) (tms : Bool) : TapState :=
  match t, tms with
  | .reset, true => .reset
  | .reset, false => .idle
  | .idle, true => .drSelect
  | .idle, false => .idle
  | .drSelect, true => .irSelect
  | .drSelect, false => .drCapture
  | .drCapture, true => .drExit1
  | .drCapture, false => .drShift
  | .drShift, true => .drExit1
  | .drShift, false => .drShift
  | .drExit1, true => .drUpdate
  | .drExit1, false => .drPause
  | .drPause, true => .drExit2
  | .drPause, false => .drPause
  | .drExit2, true => .drUpdate
  | .drExit2, false => .drShift
  | .drUpdate, true => .drSelect
  | .drUpdate, false => .idle
  | .irSelect, true => .reset
  | .irSelect, false => .irCapture
  | .irCapture, true => .irExit1
  | .irCapture, false => .irShift
  | .irShift, true => .irExit1
  | .irShift, false => .irShift
  | .irExit1, true => .irUpdate
  | .irExit1, false => .irPause
  | .irPause, true => .irExit2
  | .irPause, false => .irPause
  | .irExit2, true => .irUpdate
  | .irExit2, false => .irShift
  | .irUpdate, true => .drSelect
  | .irUpdate, false => .idle

/-- An instruction as the protection level lets it act: at level 2 every one but BYPASS and IDCODE acts as BYPASS (13 R369). -/
def tapLimited (s : State) (i : TapInstr) : TapInstr :=
  match i with
  | .other c => if level s = 2 then .bypass else .other c
  | i => i

/-- The instruction in force. -/
def tapInstr (s : State) : TapInstr := tapLimited s s.tap.instr

/-- The value of a row of bits, its first the lowest. -/
def bitsValue : List Bool → Nat
  | [] => 0
  | b :: l => b2n b + 2 * bitsValue l

/-- The instruction that the bits of the instruction register name: all ones BYPASS, the device's code of IDCODE, else another. -/
def tapDecode (bs : List Bool) : TapInstr :=
  if bs.all id then .bypass else if bitsValue bs = Config.tapCode 0 then .idcode else .other (bitsValue bs)

/-- The bits of the instruction register at its capture: 1 in the lowest place, 0 in the next. -/
def irCapture : List Bool := true :: List.replicate (Config.tapCode 1) false

/-- What the data register of the instruction in force captures: one 0 for BYPASS, the identification code for IDCODE, and for any other instruction
bits that the spec does not give. -/
def drCapture (s : State) : List Bool × State :=
  match tapInstr s with
  | .bypass => ([false], s)
  | .idcode => ((List.range 32).map (fun i => Config.idCode.getLsbD i), s)
  | .other _ =>
    let (v, s) := draw s
    ((List.range (Config.tapCode 2)).map (fun i => v.testBit i), s)

/-- TDO while a register shifts; otherwise it is not driven. -/
def tapOut (s : State) : Option Bool := match s.tap.state with
  | .irShift => s.tap.shift.head?
  | .drShift => s.tap.shift.head?
  | _ => none

/-- What a rising TCK edge does in the controller's present state. -/
def tapAct (tdi : Bool) (s : State) : State :=
  match s.tap.state with
  | .irCapture => onTap (fun t => { t with shift := irCapture }) s
  | .drCapture =>
    let (bs, s) := drCapture s
    onTap (fun t => { t with shift := bs }) s
  | .irShift => onTap (fun t => { t with shift := t.shift.drop 1 ++ [tdi] }) s
  | .drShift => onTap (fun t => { t with shift := t.shift.drop 1 ++ [tdi] }) s
  | .irUpdate => onTap (fun t => { t with instr := tapDecode t.shift }) s
  | .reset => onTap (fun t => { t with instr := .idcode }) s
  | _ => s

/-- A rising edge of TCK with the levels of TMS and TDI (16 R441). -/
def tapClock (tms tdi : Bool) (s : State) : State := onTap (fun t => { t with state := tapNext t.state tms }) (tapAct tdi s)

/-- TRST_N low: the port is reset. -/
def tapReset (s : State) : State := onTap (fun _ => State.tap0) s

end Sys2Proof.Machine
end

