-- ==== Sys2Proof/WellFormed.lean ====
section
/-! DEFINITION. Which commands the outside can send: every field within the width that the spec gives it, every buffer of the size that its
count says, every index that names a thing the device has. -/

namespace Sys2Proof

/-- A number of so many bits. -/
def ofBits (w n : Nat) : Bool := decide (n < 2 ^ w)

/-- A block: 4096 data bytes and 64 metadata bytes (01 R21, 07 R203). -/
def blkWf (b : Blk) : Bool := decide (b.data.length = 4096) && decide (b.hm.length = 64)

/-- What every host command carries: queue and command identifiers of 16 bits; the time since the last command of 64 (04 R108). -/
def hdrWf (h : Hdr) : Bool := ofBits 16 h.sq && ofBits 16 h.cid && ofBits 64 h.dt

/-- A range of a host command (04 R103): NSID of 32 bits, SLBA of 64, the zero-based number of blocks of 16. -/
def rangeWf (nsid slba nlb1 : Nat) : Bool := ofBits 32 nsid && ofBits 64 slba && ofBits 16 nlb1

/-- The second command of a fused pair (04 R113). -/
def fusedWf (w : FusedWrite) : Bool := ofBits 16 w.cid && rangeWf w.nsid w.slba w.nlb1 && blkWf w.blk

/-- A frame of a link: a port holds up to eight links (09 R236, R256). -/
def frmWf (f : Frm) : Bool := decide (f.link < 8)

/-- A message head (09 R243). -/
def headWf (m : Head) : Bool :=
  ofBits 16 m.tag && ofBits 32 m.nsid && ofBits 64 m.slba && ofBits 64 m.gseq && ofBits 8 m.nlb1 && ofBits 8 m.ext && ofBits 16 m.layout

/-- Blocks of one message: the number that NLB1 says (09 R243). -/
def blocksWf (m : Head) (bs : List CheckedBlk) : Bool :=
  decide (bs.length = m.nlb1 + 1) && bs.all (fun b => blkWf b.blk)

/-- A block record: no data follows where it is unmapped or lost (10 R288). -/
def recWf (r : BlockRec) : Bool := ofBits 56 r.gseq && (r.unmapped || r.lost || blkWf r.blk)

def recsWf (m : Head) (rs : List BlockRec) : Bool := decide (rs.length = m.nlb1 + 1) && rs.all recWf

/-- A handshake payload (09 R253). -/
def helloWf (h : Hello) : Bool := ofBits 64 h.nodeId && ofBits 32 h.powerOn && ofBits 8 h.width && ofBits 32 h.imageGen

/-- A die and an age bucket (07 R212). -/
def dieWf (die : Nat) : Bool := decide (die < 512)
def bucketWf (b : Nat) : Bool := decide (b < 8)

/-- A channel and a target (07 R189). -/
def tgtWf (ch tgt : Nat) : Bool := decide (ch < 16) && decide (tgt < 8)

/-- A media block: a set index of 20 bits and a block of 17 (06 R154). -/
def maddrWf (a : MAddr) : Bool := decide (a.set < 524288) && ofBits 17 a.block

/-- The reads of a relocation: pages of units, with a ladder level or 4 and at most eight codewords a page (07 R198, R206). -/
def readsWf (r : RelocReads) : Bool :=
  r.lost.all maddrWf && r.soft.all (fun x => ofBits 23 x.unit && ofBits 16 x.page && decide (1 ≤ x.level ∧ x.level ≤ 4) && decide (1 ≤ x.words ∧ x.words ≤ 8))

/-- A BAR2 offset (15 R404). -/
def bar2Wf (off : Nat) : Bool := ofBits 25 off

/-- The measurements of a fid: 64 sample pages at most, sweeps of whole pages (07 R213). -/
def fidWf (r : FidRun) : Bool := r.density.all (fun d => d ≤ 1000)

/-- COUNT of 9 bits and a buffer of so many AES blocks; a COUNT outside 1 to 256 moves nothing (13 R380). -/
def countWf (count : Nat) (buf : List Byte) : Bool :=
  ofBits 9 count && (decide (count = 0 ∨ count > 256) || decide (buf.length = 16 * count))

/-- Whether a command is one that the outside can send. -/
def wellFormed : Instr → Bool
  | .coldReset => true
  | .deviceReset => true
  | .warmReset _ => true
  | .controllerReset _ => true
  | .controllerEnable e => e.asqs < 4096 && e.acqs < 4096
  | .functionLevelReset _ => true
  | .bar2MisalignedAccess _ _ off size => bar2Wf off && decide (0 < size) && !(size = 4 && off % 4 = 0)
  | .registerWrite _ off _ => bar2Wf off && decide (off % 4 = 0)
  | .rcRegisterRead _ off => bar2Wf off && decide (off % 4 = 0)
  | .rwsWrite _ off _ => bar2Wf off && decide (off % 4 = 0)
  | .doorbellWrite _ sq tail => ofBits 16 sq && ofBits 16 tail
  | .smbSelectBlock code _ => ofBits 8 code
  | .smbSetOffset off _ => ofBits 16 off
  | .smbRegisterRead => true
  | .smbRegisterWrite _ _ => true
  | .basicManagementCode0 => true
  | .basicManagementCode8 => true
  | .nvmeMiRefresh => true
  | .alertResponse => true
  | .smbusStuckTimeout _ => true
  | .smbusIdleTimeout => true
  | .write h nsid slba nlb1 _ => hdrWf h && rangeWf nsid slba nlb1
  | .read h nsid slba nlb1 => hdrWf h && rangeWf nsid slba nlb1
  | .flush h nsid => hdrWf h && ofBits 32 nsid
  | .compare h nsid slba nlb1 data => hdrWf h && rangeWf nsid slba nlb1 && decide (data.length = nlb1 + 1) && data.all blkWf
  | .fusedCompareAndWrite h nsid slba nlb1 data second =>
    hdrWf h && rangeWf nsid slba nlb1 && blkWf data && second.all fusedWf
  | .writeZeroes h nsid slba nlb1 => hdrWf h && rangeWf nsid slba nlb1
  | .datasetManagement h nsid _ ranges =>
    hdrWf h && ofBits 32 nsid && decide (ranges.length ≤ 256) && ranges.all (fun r => ofBits 64 r.1 && ofBits 32 r.2)
  | .verify h nsid slba nlb1 => hdrWf h && rangeWf nsid slba nlb1
  | .reservationRegister h nsid rrega _ cptpl _ _ => hdrWf h && ofBits 32 nsid && ofBits 3 rrega && ofBits 2 cptpl
  | .reservationReport h nsid => hdrWf h && ofBits 32 nsid
  | .reservationAcquire h nsid racqa rtype _ _ _ => hdrWf h && ofBits 32 nsid && ofBits 3 racqa && ofBits 8 rtype
  | .reservationRelease h nsid rrela rtype _ _ => hdrWf h && ofBits 32 nsid && ofBits 3 rrela && ofBits 8 rtype
  | .deleteIoSubmissionQueue h qid => hdrWf h && ofBits 16 qid
  | .createIoSubmissionQueue h qid qsize cqid _ => hdrWf h && ofBits 16 qid && ofBits 16 qsize && ofBits 16 cqid
  | .deleteIoCompletionQueue h qid => hdrWf h && ofBits 16 qid
  | .createIoCompletionQueue h qid qsize iv _ _ => hdrWf h && ofBits 16 qid && ofBits 16 qsize && ofBits 16 iv
  | .getLogPage h lid lpo len _ => hdrWf h && ofBits 8 lid && ofBits 64 lpo && ofBits 34 len
  | .identify h cns nsid cntid => hdrWf h && ofBits 8 cns && ofBits 32 nsid && ofBits 16 cntid
  | .abort h sqid cid => hdrWf h && ofBits 16 sqid && ofBits 16 cid
  | .setFeatures h fid _ nsid _ _ => hdrWf h && ofBits 8 fid && ofBits 32 nsid
  | .getFeatures h fid sel nsid _ => hdrWf h && ofBits 8 fid && ofBits 3 sel && ofBits 32 nsid
  | .asynchronousEventRequest h => hdrWf h
  | .keepAlive h => hdrWf h
  | .keepAliveExpiry _ => true
  | .imageStage h block count _ _ copy data _ =>
    hdrWf h && ofBits 16 block && ofBits 16 count && ofBits 1 copy && decide (data.length = 4096 * count)
  | .stagingComplete => true
  | .loadStore h slot kslot => hdrWf h && ofBits 4 slot && ofBits 4 kslot
  | .loadClear h slot _ buf => hdrWf h && ofBits 4 slot && decide (buf.length = 32)
  | .encrypt h slot count buf => hdrWf h && ofBits 4 slot && countWf count buf
  | .decrypt h slot count buf => hdrWf h && ofBits 4 slot && countWf count buf
  | .cmacUpdate h slot count buf => hdrWf h && ofBits 4 slot && countWf count buf
  | .cmacFinal h slot count _ buf => hdrWf h && ofBits 4 slot && countWf count buf
  | .cmacReset h slot => hdrWf h && ofBits 4 slot
  | .free h slot => hdrWf h && ofBits 4 slot
  | .cleatContextSave h slot _ => hdrWf h && ofBits 4 slot
  | .cleatContextRestore h slot _ buf => hdrWf h && ofBits 4 slot && decide (buf.length = 72)
  | .start h nsid newLayout _ => hdrWf h && ofBits 32 nsid && ofBits 16 newLayout
  | .continue h nsid => hdrWf h && ofBits 32 nsid
  | .abortSplice h nsid => hdrWf h && ofBits 32 nsid
  | .switch h nsid => hdrWf h && ofBits 32 nsid
  | .spliceStatus h nsid => hdrWf h && ofBits 32 nsid
  | .enter h _ => hdrWf h
  | .patrolNow h => hdrWf h
  | .setCeiling h _ => hdrWf h
  | .query h => hdrWf h
  | .bufferTokenGrant => true
  | .logicalBlockArrival _ idx blk => ofBits 16 idx && blkWf blk
  | .intentAdmit _ _ => true
  | .recordDurable => true
  | .extentPlacement _ _ _ src => readsWf src
  | .programStatus _ _ _ => true
  | .nandReadComplete _ _ _ => true
  | .softDecodeDone _ left bad _ => left.all (fun k => k < 8) && bad.all (fun k => k < 8)
  | .mirrorAck f m a => frmWf f && headWf m && ofBits 8 a.status
  | .vinRise _ => true
  | .checkTimerExpiry => true
  | .shortedPassTimeout => true
  | .voutReached => true
  | .rampTimeout => true
  | .gateEnhanced => true
  | .enhanceTimeout _ => true
  | .currentLimitReached => true
  | .limitRecovered => true
  | .voutCollapse => true
  | .faultTimerExpiry _ => true
  | .retryTimerExpiry => true
  | .inputLoss _ => true
  | .inputOverVoltage => true
  | .overVoltageEnd _ => true
  | .sysRstNFall => true
  | .sysRstNRise _ => true
  | .testModeRise => true
  | .testModeFall _ => true
  | .gateLowOrder _ => true
  | .deviceResetHoldExpiry => true
  | .bankReserveReached => true
  | .holdupTimeout => true
  | .spillProgramStatus _ _ _ => true
  | .railUnderVoltage _ => true
  | .vddAonLoss => true
  | .bankCharged => true
  | .holdupMeasurementDue => true
  | .measNow _ _ => true
  | .holdupMeasurementDone _ _ => true
  | .railsGood => true
  | .pllLock _ _ _ => true
  | .crystalSwitch => true
  | .crystalLost => true
  | .clkRefAbsentTimeout => true
  | .clkRefAppear => true
  | .imageBlockRead _ _ => true
  | .imageBlockVerified => true
  | .journalScan failing => failing.all (fun k => k < 524288)
  | .survey _ => true
  | .replay _ => true
  | .mapLoad _ _ => true
  | .hostReady => true
  | .hostReadyLate => true
  | .pcieLinkUp _ speed width => decide (1 ≤ speed ∧ speed ≤ 5) && decide (width = 1 ∨ width = 2 ∨ width = 4)
  | .pcieLinkDown _ => true
  | .pcieUncorrectableError _ => true
  | .perstNAssert _ => true
  | .perstHeldTimeout => true
  | .perstNRelease _ => true
  | .checkpointBegin _ => true
  | .checkpointEnd => true
  | .carryForward => true
  | .auditImbalanceTimeout quantity => decide (quantity < 6)
  | .heatSweep _ src => readsWf src
  | .fold src => readsWf src
  | .garbageCollection src => readsWf src
  | .setErase set => decide (set < 524288)
  | .eraseStatus unit _ _ => ofBits 23 unit
  | .rewrite src => readsWf src
  | .channelStart ch targets _ => decide (ch < 16) && targets.all (fun t => t.target < 8)
  | .channelRetrain ch _ => decide (ch < 16)
  | .suspendComplete die _ => dieWf die
  | .suspendTimeout die => dieWf die
  | .targetBusyTimeout ch tgt _ => tgtWf ch tgt
  | .rbLowTimeout ch tgt _ => tgtWf ch tgt
  | .resetReadyTimeout ch tgt => tgtWf ch tgt
  | .fid die bucket r => dieWf die && bucketWf bucket && fidWf r
  | .fidDue die bucket => dieWf die && bucketWf bucket
  | .fidReq _ _ => true
  | .ack f => frmWf f
  | .nak f => frmWf f
  | .hello _ link h => decide (link < 8) && helloWf h
  | .helloAck _ link h => decide (link < 8) && helloWf h
  | .order f m kind args => frmWf f && headWf m && ofBits 4 kind && decide (args.length ≤ 256)
  | .response f m status => frmWf f && headWf m && ofBits 8 status
  | .tieoffNotice f m cause wakeAddr => frmWf f && headWf m && ofBits 4 cause && ofBits 8 wakeAddr
  | .mirrorWrite f m n off blks =>
    frmWf f && headWf m && ofBits 5 n && ofBits 5 off && decide (blks.length ≤ 2) && blocksWf m blks
  | .statusReq f m => frmWf f && headWf m
  | .status f m pstate _ imageGen _ => frmWf f && headWf m && ofBits 8 pstate && ofBits 32 imageGen
  | .lbWrite f m _ n off blks =>
    frmWf f && headWf m && ofBits 5 n && ofBits 5 off && (blks.isEmpty || blocksWf m blks)
  | .lbDelta f m j blks => frmWf f && headWf m && ofBits 4 j && blocksWf m blks
  | .lbAck f m a => frmWf f && headWf m && ofBits 8 a.status
  | .readReq f m parity => frmWf f && headWf m && ofBits 2 parity
  | .readData f m recs => frmWf f && headWf m && (recs.isEmpty || recsWf m recs)
  | .splicePrepare f m id bytes => frmWf f && headWf m && ofBits 8 id && ofBits 64 bytes
  | .spliceReply f m status _ => frmWf f && headWf m && ofBits 8 status
  | .spliceCopy f m id recs => frmWf f && headWf m && ofBits 8 id && recsWf m recs
  | .foldReq f m id hanks => frmWf f && headWf m && ofBits 8 id && ofBits 8 hanks
  | .splicePhase f m id phase nextGseq => frmWf f && headWf m && ofBits 8 id && ofBits 4 phase && ofBits 64 nextGseq
  | .release f m => frmWf f && headWf m
  | .recopy f m id recs => frmWf f && headWf m && ofBits 8 id && recsWf m recs
  | .ackDelayExpiry _ link => decide (link < 8)
  | .keepaliveTimer _ link => decide (link < 8)
  | .livenessLost _ link => decide (link < 8)
  | .helloTimer _ link => decide (link < 8)
  | .handshakeTimeout _ link => decide (link < 8)
  | .ackTimeout _ link => decide (link < 8)
  | .phyUp _ _ => true
  | .phyLost _ => true
  | .trainingAttemptTimeout _ => true
  | .wakeSend _ _ => true
  | .wakePattern _ _ _ => true
  | .signalEnergy _ => true
  | .degradeTimeout _ link nsid => decide (link < 8) && ofBits 32 nsid
  | .rebuild src => readsWf src
  | .spliceBuild id => ofBits 8 id
  | .spliceVerify id => ofBits 8 id
  | .switchTimeout id => ofBits 8 id
  | .spliceRelease id => ofBits 8 id
  | .idleTimerExpiry _ => true
  | .participantAnswer _ reason => ofBits 4 reason
  | .participantTimeout => true
  | .smbGo st => ofBits 3 st
  | .l1Exit _ => true
  | .wakeInNFall => true
  | .wakeInHeldTimeout => true
  | .patrolCycle group turn => decide (group < 4) && turn.starts.all (fun c => c.targets.all (fun t => t.target < 8))
  | .patrolRead group _ => decide (group < 4)
  | .sensorSample _ => true
  | .thermalGraceExpiry => true
  | .stepTimerExpiry _ => true
  | .dramTemperatureRead a b => ofBits 4 a && ofBits 4 b
  | .compensation => true
  | .calibration _ _ _ => true
  | .recordFlashProgramDone _ _ => true
  | .recordFlashEraseDone _ _ => true
  | .recwinRead _ off flips => ofBits 24 off && decide (off % 4 = 0) && flips.all (fun b => b < 72)
  | .recwinWrite _ off _ => ofBits 24 off && decide (off % 4 = 0)
  | .hold _ => true
  | .holdExpiry => true
  | .program _ _ => true
  | .erase _ _ => true
  | .refresh _ sector _ _ => ofBits 11 sector
  | .levelRaise _ _ => true
  | .levelLower _ _ => true
  | .pin _ _ _ => true
  | .unpin _ _ => true
  | .heartbeatMissed source => decide (source < 30)
  | .lockstepMismatch pair => decide (pair < 4)
  | .scrub _ => true
  | .clockLost domain => decide (domain < 14)
  | .frequencyCheckWindow domain _ _ => decide (domain < 14)
  | .supplyDisagree rail => decide (rail < 3)
  | .faultNReadback _ _ => true
  | .selfTest failing => failing.all (fun c => c < 8)
  | .liveToggleLost => true
  | .stopperMediaHalt => true
  | .stopReset _ _ => true
  | .smbStopReset _ => true
  | .stopHoldExpiry => true
  | .eventLogWrite => true
  | .evtStatusClear _ _ => true
  | .routingWrite _ _ _ => true
  | .timeMark => true
  | .invalidCommandOpcode h opcode => hdrWf h && ofBits 8 opcode
  | .configurationRequest _ reg => ofBits 10 reg
  | .frameDiscarded f _ => frmWf f
  | .window10ms => true
  | .thermalRecordWaitTimeout => true

end Sys2Proof
end

