-- ==== Sys2Proof/Safety.lean ====
section
/-! DEFINITION. The terms that claims use: a command that completes, what reporting may change, and the forms that every step keeps. -/

namespace Sys2Proof.Machine

open Sys2Proof

/-- A command completes: exec answers a next state, and the postcondition holds of it. -/
def Does (c : Instr) (s : State) (post : State → Prop) : Prop := ∃ t, exec c s = .next t ∧ post t

/-- What reporting may change on a controller: its event requests and masks, its pending vectors, and its Error Information log (04, 15 R412, R413). -/
def ReportCtl (c d : Ctl) : Prop :=
  d = { c with aers := d.aers, aenWait := d.aenWait, aenMask := d.aenMask, msixPend := d.msixPend, errors := d.errors, errLog := d.errLog }

/-- The second state differs from the first by reports alone: events raised, completions posted and what leaves the device. The routing registers
keep their values, no status bit is cleared, and nothing that has left is taken back. -/
structure ReportsOnly (s t : State) : Prop where
  rest   : t = { s with evt := t.evt, ctl := t.ctl, out := t.out, fresh := t.fresh }
  ctl    : ∀ p, ReportCtl (s.ctl.get p) (t.ctl.get p)
  evt    : t.evt = { s.evt with status := t.evt.status, smbAlert := t.evt.smbAlert, queue := t.evt.queue, dropped := t.evt.dropped, bootDropped := t.evt.bootDropped,
                                suppressed := t.evt.suppressed, repeats := t.evt.repeats, lastAt := t.evt.lastAt,
                                minute := t.evt.minute, infoMin := t.evt.infoMin, noticeMin := t.evt.noticeMin }
  status : ∀ g : Fin 16, s.evt.status[g] &&& t.evt.status[g] = s.evt.status[g]
  out    : ∃ l, t.out = l ++ s.out

/-- A status bit of EVT is set (15 R406). -/
def Shows (t : State) (g b : Nat) : Prop := (vecAt t.evt.status g 0#32).getLsbD b = true

/-- A completion has left the device. -/
def Completed (t : State) (h : Hdr) (sct sc dw0 : Nat) : Prop := Out.cqe h.port h.sq h.cid sct sc (dw0 % 2 ^ 32) ∈ t.out

/-- The commands of a port are gone without completions; an extent of theirs goes on if its INTENT record is durable, and is dropped otherwise; the
other port's controller is untouched (04 R126). -/
structure CommandsDropped (p : Port) (s t : State) : Prop where
  cmds  : t.cmds = s.cmds.filter (fun c => c.port ≠ p)
  kept  : ∀ e ∈ s.exts, e.durable = true → ∃ d ∈ t.exts, d = { e with origin := d.origin }
  gone  : ∀ e ∈ t.exts, ∀ c ∈ s.cmds, ownerKey e = some c.key → c.port ≠ p
  other : ∀ q, q ≠ p → ReportCtl (s.ctl.get q) (t.ctl.get q)
  boot  : t.boot = { s.boot with stageState := t.boot.stageState, stageCause := t.boot.stageCause }

/-- What a warm reset of a port leaves: its commands dropped, its controller as after reset but for the deferred errors, its Cleat slots free, the
host-written fields of SMBus and record flash cleared, and everything else as it was (00 R12, 04 R126). -/
structure PortCleared (p : Port) (s t : State) : Prop where
  drop  : CommandsDropped p s t
  ctl   : ReportCtl { State.ctl0 with perstLow := (s.ctl.get p).perstLow, c1 := (s.ctl.get p).c1, dropped := (s.ctl.get p).dropped,
                                      pend := (s.ctl.get p).pend } (t.ctl.get p)
  cleat : ∀ i (h : i < 16), ∀ k, t.cleat.ctx[i] = some k → k.owner ≠ p
  rest  : t = { s with boot := t.boot, stage := t.stage, ctl := t.ctl, cmds := t.cmds, exts := t.exts,
                       smb := { s.smb with off := false, fails := 0, wrIgnored := false }, ps := { s.ps with ordered := t.ps.ordered },
                       rf := { s.rf with hold := false, wrIgnored := false }, cleat := { s.cleat with ctx := t.cleat.ctx },
                       evt := t.evt, out := t.out, fresh := t.fresh }

/-- The next name of the model's own is new: no command and no extent bears it or a later one, and no two commands bear one name. -/
structure NamesNew (s : State) : Prop where
  apart  : (s.cmds.map (fun c => c.key)).Nodup
  cmds   : ∀ c ∈ s.cmds, c.key < s.hx.nextKey
  exts   : ∀ e ∈ s.exts, e.id < s.hx.nextKey
  owners : ∀ e ∈ s.exts, ∀ k, ownerKey e = some k → k < s.hx.nextKey

/-- Every fused pair that has not completed still waits for its block. -/
def FusedWait (s : State) : Prop := ∀ c ∈ s.cmds, ∀ d w, c.kind = .fused d w → Found.waiting ∈ c.found

/-- Every fused pair's Compare has begun to read. -/
def FusedBegun (s : State) : Prop := ∀ c ∈ s.cmds, isFused c = true → c.begun = true

/-- Whether a command ends with the blocks that it reads. -/
def isReader (c : HostCmd) : Bool := match c.kind with
  | .read => true
  | .verify => true
  | .compare _ => true
  | .fused .. => true
  | _ => false

/-- No command that reads is left to settle: each waits for a block, and every fused pair's Compare has begun. -/
structure ReadsSettled (s : State) : Prop where
  waits : ∀ c ∈ s.cmds, isReader c = true → Found.waiting ∈ c.found
  begun : FusedBegun s

/-- No block of the journal's extents is in spill: no record names one as spilled. -/
def NoneSpilled (s : State) : Prop := ∀ r ∈ s.jrnl.recs, ∀ n sl nlb x o p l a, r.body = .completion n sl nlb x o p l a → o ≠ .spilled

/-- The lists that stand for a fixed number of like things hold that number, and no throttle step is above 3 (07 R198, 11 R326, R329, 12 R333,
R340, R351). -/
structure Shaped (s : State) : Prop where
  targets : ∀ c : Fin 16, s.media.channels[c].targets.length = 8
  visited : s.ps.visited.length = 4
  inputs  : s.therm.inputs.length = 8
  steps   : s.therm.step.length = 3 ∧ ∀ k ∈ s.therm.step, k ≤ 3
  trims   : s.therm.trims.length = 5
  power   : s.pins.npwrEn.length = 4

/-- A frame is accepted in order (09 R246, R248): frames flow, the device is not in the stopper state, the frame bears the expected sequence and its
message the credit it may use. The second state is the first with the frame's ACK and grants taken. -/
structure InOrder (s : State) (f : Sys2Proof.Frm) (m : Msg) (s1 : State) : Prop where
  flows : framesFlow s = true
  runs  : s.safe.stopper = false
  link  : ∃ k, linkBy s f.port f.link = some k ∧ carries k = true ∧ f.seq = k.expect ∧
            ∀ d, creditNeed (msgBytes (nsMeta s m.head.nsid) m) ≤ (vecAt k.vcs (vcOf m.op) d).room
  ack   : takeAck f s = some s1

/-- A message is on its way on a link: held there, or in its replay share. -/
def Queued (t : State) (p : Port) (l : Nat) (m : Msg) : Prop :=
  ∃ k, linkBy t p l = some k ∧ (m ∈ k.held ∨ ∃ e ∈ k.sent, e.msg = m)

/-- A record with this content is in the journal, or waits at a half boundary to enter it. -/
def Journaled (t : State) (b : JBody) : Prop := ∃ r ∈ t.jrnl.recs ++ t.jrnl.waiting, r.body = b

/-- A record-flash operation is under way in a bank, or waits for it. -/
def JobPending (t : State) (b : Nat) (w : FlashWhat) : Prop := ∃ j ∈ t.rf.queue ++ t.rf.busy.toList.filterMap id, j.bank = b ∧ j.what = w

/-- A DANGER event is raised: the first is latched and puts the device in the stopper state, its outstanding writes failing with 0h/20h; a later
one is counted. Neither touches the map, the media or what the journal holds (14 R387, R394). -/
structure Stops (g b detail : Nat) (toggle : Bool) (s t : State) : Prop where
  shows : Shows t g b
  on    : t.safe.stopper = true
  first : s.safe.stopper = false → t.safe.group = g ∧ t.safe.bit = b ∧ t.safe.detail = detail ∧ t.safe.toggle = toggle ∧ t.safe.safe = true ∧
            t.safe.early = !s.boot.hostReady ∧ t.safe.noSpill = noSpillFault g b detail ∧ t.safe.more = s.safe.more ∧
            (powerFails s = false → ∀ c ∈ s.cmds, isWrite c = true → c.live = true → Out.cqe c.port c.sq c.cid 0 0x20 0 ∈ t.out)
  later : s.safe.stopper = true → t.safe.more = inc 16 s.safe.more ∧ t.safe.group = s.safe.group ∧ t.safe.bit = s.safe.bit ∧
            t.safe.detail = s.safe.detail ∧ t.cmds = s.cmds
  map   : t.map = s.map
  nand  : t.media.nand = s.media.nand
  recs  : t.jrnl.recs = s.jrnl.recs

end Sys2Proof.Machine
end

