-- ==== Sys2Proof/Certificates/Slice0/Obligations.lean ====
section
/-! DEFINITION. The statements for the provers, family by family. Each says for its commands where they complete, with what, and what they leave alone. -/

open Sys2Proof Sys2Proof.Machine

/-- Insertion (02 R42, R45): each move of the breaker from OFF to ON, and what else changes. RETRY_WAIT, the end of an over-voltage, and the core's
orders (02 R45, R447, R448): a move to CHECK waits while an over-voltage is declared; the gate-low order takes HELD at once where the gate is driven
and is pending elsewhere; the order's end passes HELD to CHECK. -/
def Obligations.InsertionAndOrders : Prop :=
  ((∀ (s : State) (x : HlyStraps), s.hly.breaker = .off → s.hly.overVoltage = false → s.pins.sysRstN = true → s.pins.testMode = false →
      s.hly.held = none →
    Does (.vinRise x) s (fun t => t.hly.breaker = .check ∧ t.hly.vinGood = true ∧ t.hly.sink = true ∧ t.hly.cl = lowLevel x.cl ∧
      t.hly.ft = lowLevel x.ft ∧ t.hly.dvdt = dvdtLevel x.dvdt ∧ t.hly.rty = rtyLevel x.rty ∧ t.hly.trips = s.hly.trips ∧
      t.hly.faultClass = s.hly.faultClass ∧ t = { s with hly := t.hly, boot := { s.boot with phase := max s.boot.phase 1 } })) ∧
  (∀ s : State, s.hly.breaker = .check →
    Does .checkTimerExpiry s (fun t => t.hly = { s.hly with sink := false, breaker := if s.hly.held.isSome then .held else .ramp } ∧
      t = { s with hly := t.hly, boot := { s.boot with phase := max s.boot.phase 2 } })) ∧
  (∀ s : State, s.hly.breaker = .ramp →
    Does .voutReached s (fun t => t = { s with hly := { s.hly with breaker := .enhance } }) ∧
    Does .rampTimeout s (fun t => t = { s with hly := { s.hly with breaker := .enhance } })) ∧
  (∀ s : State, s.hly.breaker = .enhance →
    Does .gateEnhanced s (fun t => t.hly = { s.hly with breaker := .on } ∧ t.pwr = { s.pwr with voutOk := true } ∧
      t = { s with hly := t.hly, pwr := t.pwr, boot := { s.boot with phase := max s.boot.phase 3 } }))) ∧
  ((∀ s : State, s.hly.breaker = .retryWait →
    Does .retryTimerExpiry s (fun t => (s.hly.overVoltage = true → t.hly = { s.hly with retryDue := true }) ∧
      (s.hly.overVoltage = false → s.hly.held = none → t.hly.breaker = .check))) ∧
  (∀ (s : State) (x : HlyStraps), s.hly.breaker = .retryWait → s.hly.retryDue = true → s.hly.held = none →
    Does (.overVoltageEnd x) s (fun t => t.hly.overVoltage = false ∧ t.hly.breaker = .check)) ∧
  (∀ (s : State) (o : GateOrder), s.hly.held ≠ some .thermal →
    Does (.gateLowOrder o) s (fun t => t.hly.held = some o ∧ (gateDriven s.hly.breaker = true → t.hly.breaker = .held ∧ t.pwr.voutOk = false) ∧
      (gateDriven s.hly.breaker = false → t.hly.breaker = s.hly.breaker) ∧ t.hly.trips = s.hly.trips ∧ t.hly.faultClass = s.hly.faultClass)) ∧
  (∀ s : State, s.hly.breaker = .held → s.hly.held = some .deviceReset → s.hly.overVoltage = false →
    Does .deviceResetHoldExpiry s (fun t => t.hly.held = none ∧ t.hly.breaker = .check ∧ t.hly.sink = true)))

/-- Pass-device faults (02 R47, R446): the breaker latches off with class 3, 4 or 5; the trips are not counted. The current limit and a trip (02 R43
to R46): LIMIT starts the timer and remembers where it came from; recovery returns there; a trip away from ON goes to RETRY_WAIT or LATCHED as RTY_SET
selects, with class 2 at the 1 ms bound (from ON after a collapse), else class 1, and one more trip up to 255; a trip from ON enters HOLDUP with the flush. -/
def Obligations.BreakerFaultsAndTrips : Prop :=
  ((∀ s : State, s.hly.breaker = .check →
    Does .shortedPassTimeout s (fun t => t = { s with hly := { s.hly with
      breaker := .latched, faultClass := 5, timer := false, collapsed := false, sink := false } })) ∧
  (∀ (s : State) (followed : Bool), s.hly.breaker = .enhance →
    Does (.enhanceTimeout followed) s (fun t => t = { s with hly := { s.hly with
      breaker := .latched, faultClass := if followed then 3 else 4, timer := false, collapsed := false, sink := false } }))) ∧
  ((∀ (s : State) (f : LimitFrom), s.hly.breaker = limitBack f →
    Does .currentLimitReached s (fun t => t = { s with hly := { s.hly with breaker := .limit f, timer := true, collapsed := false } })) ∧
  (∀ (s : State) (f : LimitFrom), s.hly.breaker = .limit f →
    Does .limitRecovered s (fun t => t = { s with hly := { s.hly with breaker := limitBack f, timer := false, collapsed := false } }) ∧
    Does .voutCollapse s (fun t => t = { s with hly := { s.hly with collapsed := true } })) ∧
  (∀ (s : State) (f : LimitFrom) (atBound : Bool), s.hly.breaker = .limit f → f ≠ .on →
    Does (.faultTimerExpiry atBound) s (fun t => t = { s with hly := { s.hly with
      breaker := if s.hly.rty = 3 then .retryWait else .latched, timer := false, collapsed := false,
      faultClass := if atBound then 2 else 1, trips := min (s.hly.trips + 1) 255 } })) ∧
  (∀ (s : State) (atBound : Bool), s.hly.breaker = .limit .on → s.flush = none → spillOrder s ≠ [] →
    Does (.faultTimerExpiry atBound) s (fun t => t.hly.breaker = .holdup .trip ∧ t.hly.trips = min (s.hly.trips + 1) 255 ∧
      t.hly.faultClass = (if atBound && s.hly.collapsed then 2 else 1) ∧ t.out = s.out ∧
      t.flush = some { toSpill := spillOrder s, lastSpilled := 0, spilled := 0, unspilled := 0, cause := 1, sealing := false })))

/-- Input loss with journaled tokens to spill (02 R57, R58): VIN low, SYS_RST_N low, TEST_MODE high and an over-voltage each take ON to HOLDUP, and
the flush begins with the extents in the order of R58, a suspended erase is abandoned (07 R202), and nothing leaves the device. Input loss during insertion (02 R45, coincidences): the gate goes
low, the breaker to OFF, no flush runs, and a pending order is dropped with the core's cold reset; once the input is back the release of SYS_RST_N,
the fall of TEST_MODE and the end of an over-voltage take OFF to CHECK. The flush (02 R58, R59): each spill program accounts for every journaled token
of its extent; the bank's reserve stops the spill, records class 8 and leaves what is left unspilled; HOLDUP is left 1 ms later. -/
def Obligations.InputLossAndFlush : Prop :=
  (∀ s : State, s.hly.breaker = .on → s.flush = none → spillOrder s ≠ [] →
    (let held (t : State) (c : Nat) := t.hly.breaker = .holdup .input ∧ t.hly.faultClass = c ∧ t.hly.trips = s.hly.trips ∧ t.out = s.out ∧
      t.cmds = s.cmds ∧ t.exts = s.exts ∧ t.jrnl = s.jrnl ∧
      t.media = { s.media with erases := s.media.erases.filter (fun e => !e.run.suspended) } ∧
      t.flush = some { toSpill := spillOrder s, lastSpilled := 0, spilled := 0, unspilled := 0, cause := 1, sealing := false }
    Does (.inputLoss .vinLow) s (fun t => held t s.hly.faultClass ∧ t.hly.vinGood = false) ∧
    Does (.inputLoss .voutLost) s (fun t => held t s.hly.faultClass ∧ t.hly.vinGood = s.hly.vinGood) ∧
    Does .sysRstNFall s (fun t => held t s.hly.faultClass ∧ t.pins.sysRstN = false) ∧
    Does .testModeRise s (fun t => held t s.hly.faultClass ∧ t.pins.testMode = true) ∧
    Does .inputOverVoltage s (fun t => held t 6 ∧ t.hly.overVoltage = true))) ∧
  ((∀ s : State, s.hly.breaker = .check ∨ s.hly.breaker = .ramp ∨ s.hly.breaker = .enhance →
    Does (.inputLoss .vinLow) s (fun t => t.hly.breaker = .off ∧ t.hly.held = none ∧ t.flush = none ∧ t.cmds = [] ∧ t.cfg = s.cfg ∧
      t.hly.faultClass = s.hly.faultClass) ∧
    Does .inputOverVoltage s (fun t => t.hly.breaker = .off ∧ t.hly.faultClass = 6 ∧ t.hly.overVoltage = true ∧ t.flush = s.flush)) ∧
  (∀ (s : State) (x : HlyStraps), s.hly.breaker = .off → s.hly.vinGood = true → s.hly.overVoltage = false → s.hly.held = none →
    (s.pins.testMode = false → Does (.sysRstNRise x) s (fun t => t.hly.breaker = .check ∧ t.hly.cl = lowLevel x.cl ∧ t.pins.sysRstN = true)) ∧
    (s.pins.sysRstN = true → Does (.testModeFall x) s (fun t => t.hly.breaker = .check ∧ t.hly.ft = lowLevel x.ft ∧ t.pins.testMode = false))) ∧
  (∀ (s : State) (x : HlyStraps), s.hly.breaker = .off → s.hly.vinGood = true → s.hly.held = none → s.pins.sysRstN = true →
      s.pins.testMode = false →
    Does (.overVoltageEnd x) s (fun t => t.hly.breaker = .check ∧ t.hly.rty = rtyLevel x.rty ∧ t.hly.overVoltage = false))) ∧
  ((∀ (s : State) (f : Flush) (e : Extent) (ok : Bool) (failed rest : List Nat), s.flush = some f → f.toSpill = e.id :: rest → rest ≠ [] →
      extBy s e.id = some e →
    Does (.spillProgramStatus e.id ok failed) s (fun t => ∃ g, t.flush = some g ∧ g.toSpill = rest ∧ g.cause = f.cause ∧
      g.spilled + g.unspilled = f.spilled + f.unspilled + tokIn .journaled e ∧
      (ok = false → failed = [] → t = { s with flush := some { f with toSpill := rest, unspilled := f.unspilled + tokIn .journaled e } }))) ∧
  (∀ (s : State) (f : Flush), s.flush = some f → f.sealing = false → f.cause ≠ 4 → s.safe.noSpill = false → s.jrnl.state = 4 →
    Does .bankReserveReached s (fun t => t.hly.faultClass = 8 ∧ t.jrnl.state = 5 ∧
      t.flush = some { f with toSpill := [], unspilled := f.unspilled + tokensLeft s f, cause := 2, sealing := true })) ∧
  (∀ (s : State) (f : Flush), s.flush = some f → f.sealing = true →
    Does .holdupTimeout s (fun t => t.flush = none ∧ t.cmds = [] ∧ (s.hly.breaker = .holdup .trip → t.hly.breaker = tripState s))))

/-- The supply monitors (02 R49): a rail below its lower threshold begins the flush with every rail no longer good; the loss of VDD_AON is a cold
reset at once, and the device-seconds counter is lost (15 R421); the bank above 34.0 V is charged, and below 33.0 V no longer, which changes nothing else. The hold-up measurement (02 R51, R52): a
measurement draws from a charged bank; otherwise it is deferred, counted up to 60, with NOTICE 0.2; a host's request runs none while one is deferred.
The result of a measurement (02 R53 to R56): one out of range, or too little for the floor, records class 7 and disables buffered acknowledgement with
the floor as budget, and is no measurement that has succeeded; one in range shows its values and enables it, raises INFO 0.1, and a lower budget is in
force at once. -/
def Obligations.SuppliesAndHoldup : Prop :=
  ((∀ (s : State) (r : Rail), r ≠ .holdupBank → s.pwr.railsOk = true → s.flush = none → spillOrder s ≠ [] →
    Does (.railUnderVoltage r) s (fun t => t.pwr.railsOk = false ∧ t.hly = s.hly ∧ t.exts = s.exts ∧
      ∃ f, t.flush = some f ∧ f.cause = 1 ∧ f.toSpill = spillOrder s)) ∧
  (∀ s : State, Does (.railUnderVoltage .holdupBank) s (fun t => t = { s with pwr := { s.pwr with charged := false } })) ∧
  (∀ s : State, Does .vddAonLoss s (fun t => t.dev.lostAon = true ∧ t.dev.secs = 0 ∧ t.flush = none ∧ t.cmds = [] ∧ t.exts = [] ∧
    t.boot.ready = false ∧ t.cfg = s.cfg ∧ t.jrnl.recs = s.jrnl.recs ∧ t.media.nand = s.media.nand ∧ t.rf.banks = s.rf.banks)) ∧
  (∀ s : State, s.pwr.railsOk = true → s.pwr.voutOk = true → s.hly.breaker = .on →
    Does .bankCharged s (fun t => t = { s with pwr := { s.pwr with charged := true, topUpWait := false } }))) ∧
  ((∀ s : State, s.pwr.railsOk = true → s.pwr.measuring = false → s.flush = none → s.pwr.charged = true →
    Does .holdupMeasurementDue s (fun t => t = { s with pwr := { s.pwr with measuring := true, measDue := false } }) ∧
    (∀ (p : Port) (v : Word), bar2Open s p = true → v.getLsbD 0 = true → s.pwr.measDue = false →
      Does (.measNow p v) s (fun t => t = { s with pwr := { s.pwr with measuring := true, measDue := false } }))) ∧
  (∀ s : State, s.pwr.railsOk = true → s.pwr.measuring = false → s.flush = none → s.pwr.charged = false → s.pwr.deferrals < 59 →
    Does .holdupMeasurementDue s (fun t =>
      t.pwr = { s.pwr with measDue := true, deferrals := s.pwr.deferrals + 1 } ∧ t.hly = s.hly ∧
      (t.evt.status[0]).getLsbD 2 = true))) ∧
  ((∀ (s : State) (c r : Nat), s.pwr.measuring = true → Config.budgetFloor < s.pwr.budget →
      (c < 1000000 ∨ 40000000 < c ∨ 500000 < r) →
    Does (.holdupMeasurementDone c r) s (fun t => t.pwr.bufackEn = false ∧ t.pwr.budget = Config.budgetFloor)) ∧
  (∀ (s : State) (c r : Nat), s.pwr.measuring = true → 1000000 ≤ c → c ≤ 40000000 → r ≤ 500000 → Config.budgetFloor ≤ bankTokens c r →
      min (bankTokens c r) Config.budgetMax < s.pwr.budget →
    Does (.holdupMeasurementDone c r) s (fun t => t.pwr.measured = true ∧ t.pwr.bufackEn = true ∧ t.hly = s.hly ∧
      t.pwr.budget = min (bankTokens c r) Config.budgetMax ∧ t.pwr.capUf = min ((c + 500) / 1000) 65535 ∧
      t.pwr.esrMohm = min ((r + 500) / 1000) 65535 ∧ t.pwr.measTime = s.dev.secs % 2 ^ 32)) ∧
  (∀ (s : State) (c r : Nat), s.pwr.measuring = true →
    (c < 1000000 ∨ 40000000 < c ∨ 500000 < r → Does (.holdupMeasurementDone c r) s (fun t => t.hly.faultClass = 7 ∧ t.pwr.class7 = true ∧
      t.pwr.measured = s.pwr.measured ∧ t.pwr.measuring = false)) ∧
    (1000000 ≤ c → c ≤ 40000000 → r ≤ 500000 → Does (.holdupMeasurementDone c r) s (fun t => t.pwr.measured = true ∧ Shows t 0 1))))

/-- The wide resets (00 R12, R13; 03 R62; 14 R398, R399): a cold reset clears everything volatile and keeps the non-volatile content, the fault word's
class apart from what the start adds, and counts a power-on unless one still lasts; a device reset keeps CLK_AON's state and the power-on count. The
resets of one port (00 R12; 04 R126, R101): its queues, requests and commands go and their completions with them; an extent with an INTENT record goes
on once that record is durable, and is dropped otherwise; deferred errors stay; the other port, the journal, the map and the medium are untouched. A port's reset within a cold or
device reset is absorbed. -/
def Obligations.WideAndPortResets : Prop :=
  ((∀ s : State,
    Does .coldReset s (fun t => t.cfg = s.cfg ∧ t.jrnl = { State.jrnl0 with recs := s.jrnl.recs } ∧
      t.media = { State.media0 with
        nand := s.media.nand, ckpt := s.media.ckpt, work := s.media.work, mirror := s.media.mirror, retired := s.media.retired } ∧
      t.rf = { State.recWork0 s.rf.banks with suspended := s.rf.suspended } ∧ t.hly.faultClass = s.hly.faultClass ∧ t.hly.trips = s.hly.trips ∧
      t.dev = { State.dev0 with
        secs := s.dev.secs, lostAon := s.dev.lostAon,
        powerOn := if s.aon.coldHeld then s.dev.powerOn else (s.dev.powerOn + 1) % 2 ^ 32 } ∧
      t.aon = State.aon0 ∧ t.cmds = [] ∧ t.exts = [] ∧ t.flush = none ∧ t.map = State.map0 ∧ t.evt = State.evt0 ∧ t.cleat = State.cleat0 ∧
      t.prm = State.prm0 ∧ t.braid = State.braid0 ∧ t.peer = ⟨State.port0, State.port0⟩ ∧ t.hx = State.hx0 ∧ t.boot.hostReady = false ∧
      t.boot.gates = false ∧ t.pins.sysRstN = s.pins.sysRstN ∧ t.pins.testMode = s.pins.testMode ∧ t.out = s.out)) ∧
  (∀ s : State, s.safe.order = true → s.safe.halted = true → s.safe.sealed = true ∨ s.safe.noSpill = true → s.hly.held ≠ some .thermal →
    Does .deviceReset s (fun t => t.aon = { s.aon with stopped := true, stopResets := min 3 (s.aon.stopResets + 1) } ∧ t.cfg = s.cfg ∧
      t.jrnl = { State.jrnl0 with recs := s.jrnl.recs } ∧ t.media.nand = s.media.nand ∧ t.rf.banks = s.rf.banks ∧
      t.dev.powerOn = s.dev.powerOn ∧ t.dev.secs = s.dev.secs ∧ t.safe = { State.safe0 with padHigh := s.safe.padHigh } ∧ t.cmds = [] ∧ t.exts = [] ∧
      t.hly.held = some .deviceReset ∧ (gateDriven s.hly.breaker = true → t.hly.breaker = .held) ∧
      t.hly.faultClass = s.hly.faultClass ∧ t.hly.trips = s.hly.trips))) ∧
  ((∀ (s : State) (p : Port), activePort s p = true → resetRuns s = false → ReadsSettled s →
    Does (.warmReset p) s (PortCleared p s) ∧ Does (.perstNAssert p) s (PortCleared p (setPerst p true s)) ∧
    ((s.ctl.get p).link = true → Does (.functionLevelReset p) s (PortCleared p s))) ∧
  (∀ (s : State) (p : Port), resetRuns s = true → exec (.warmReset p) s = .next s ∧ exec (.functionLevelReset p) s = .next s ∧
    exec (.perstNAssert p) s = .next (setPerst p true s)) ∧
  (∀ (s : State) (p : Port), (s.ctl.get p).en = true → ReadsSettled s →
    Does (.controllerReset p) s (fun t => CommandsDropped p s t ∧
      ReportCtl { s.ctl.get p with en := false, rdy := false, cfs := false, asqHead := 0, asqTail := 0, sqs := [], cqs := [], aers := [] } (t.ctl.get p) ∧
      t = { s with boot := t.boot, stage := t.stage, ctl := t.ctl, cmds := t.cmds, exts := t.exts, evt := t.evt, out := t.out, fresh := t.fresh })))

/-- Enabling a controller and its doorbells (04 R105, coincidences; 01 R22; 03 R60): CSTS.RDY follows CC.EN once the device is host ready; a tail
doorbell moves its queue's tail alone, that of the admin queue with as many entries as AQA gave it. PERST_N and the host links (04 R100, R127; 11 R320; 15 R416): what each event changes, and the events it
raises. Configuration requests (03 R83; 04 R101): Request Retry Status until the HOST section has verified or the no-image state; then the identifiers
of silicon and image are answered, and nothing but the output changes. -/
def Obligations.HostPortsAndConfiguration : Prop :=
  ((∀ (s : State) (p : Port) (asqs acqs : Nat), activePort s p = true → (s.ctl.get p).link = true → (s.ctl.get p).en = false →
    Does (.controllerEnable { port := p, asqs := asqs, acqs := acqs }) s (ReportsOnly (setCtl p (fun c => { c with
      en := true, rdy := s.boot.hostReady || s.boot.noImage, cfs := false, asqs := asqs, acqs := acqs, asqHead := 0, asqTail := 0 }) s))) ∧
  (∀ (s : State) (p : Port) (tail : Nat), ctlRuns s p = true → s.ps.state = 0 → s.ps.hs = none → tail ≤ (s.ctl.get p).asqs →
    Does (.doorbellWrite p 0 tail) s (fun t => t = setCtl p (fun c => { c with asqTail := tail }) s)) ∧
  (∀ (s : State) (p : Port) (q : Sq) (tail : Nat), ctlRuns s p = true → s.ps.state = 0 → s.ps.hs = none → q ∈ (s.ctl.get p).sqs → q.qid ≠ 0 →
      tail < q.size →
    Does (.doorbellWrite p q.qid tail) s (fun t => t = setCtl p (fun c => { c with sqs := (t.ctl.get p).sqs }) s ∧
      (t.ctl.get p).sqs = (s.ctl.get p).sqs.map (fun r => if r.qid = q.qid then { r with tail := tail } else r)))) ∧
  ((∀ (s : State) (p : Port) (speed width : Nat), mayTrain s p = true → 1 ≤ speed → speed ≤ 5 → width ∈ [1, 2, 4] → width ≤ strappedWidth s →
    Does (.pcieLinkUp p speed width) s (fun t =>
      ReportsOnly (setCtl p (fun c => { c with link := true, speed := speed, width := width }) s) t ∧ Shows t (hostGroup p) 0 ∧
      (speed < 5 ∨ width < strappedWidth s → Shows t (hostGroup p) 9))) ∧
  (∀ (s : State) (p : Port), (s.ctl.get p).link = true →
    Does (.pcieLinkDown p) s (fun t =>
      ReportsOnly (setCtl p (fun c => { c with link := false, speed := 0, width := 0 }) s) t ∧ Shows t (hostGroup p) 1)) ∧
  (∀ (s : State) (p : Port), activePort s p = true → 5 ≤ s.boot.phase →
    Does (.pcieUncorrectableError p) s (fun t => ReportsOnly s t ∧ Shows t (hostGroup p) 10)) ∧
  (∀ s : State, allPerst s = true → s.hx.perstHeld = false → s.safe.stopper = false → s.boot.noImage = false → s.boot.hostReady = false →
    Does .perstHeldTimeout s (fun t => t = { s with hx := { s.hx with perstHeld := true, perstTold := false } })) ∧
  (∀ (s : State) (p : Port), activePort s p = true → s.ps.state = 0 → s.ps.hs = none →
    Does (.perstNRelease p) s (fun t => t = setPerst p false { s with hx := { s.hx with perstHeld := false, perstTold := false } }))) ∧
  (∀ (s : State) (p : Port) (reg : Nat), (s.ctl.get p).link = true →
    (s.boot.hostOk = false → s.boot.noImage = false →
      Does (.configurationRequest p reg) s (fun t => t = { s with out := .crs p :: s.out })) ∧
    (s.boot.hostOk = true ∨ s.boot.noImage = true →
      Does (.configurationRequest p reg) s (fun t => ∃ v : Word, t = { s with out := .cfg p v :: s.out, fresh := t.fresh } ∧
        (reg / 4 = 0 → v = 0x91401FB2#32) ∧ (reg / 4 = 2 → v = 0x01080210#32))))

/-- Steps 4 and 5 and the clocks (03 R60, R63, R64, R65; 02 R49; 12 R348; 15 R421, R423): what each event of the start timeline changes. The loader
(03 R85, R87, R89, R93): headers are read and the candidates ordered; a block that fails its header tag fails the copy with NOTICE 1.1, and only the RWS values taken from a host stand;
a block of no gated section reaches nobody until it has verified; a good block waits no longer; after the last candidate the device is in the no-image state with ERROR 1.2. Host ready (03 R60, R61; 14 R399; 02 R48): step 9 makes
READY high, seals the RWS fields, raises CSTS.RDY of an enabled controller, and clears the fault word after telling it; before it, 20 s raise NOTICE
1.11 and nothing else. -/
def Obligations.StartUp : Prop :=
  ((∀ s : State, feeds s.hly.breaker = true → s.pwr.voutOk = true → s.pwr.railsOk = false → s.flush = none → s.dev.lostAon = false →
    Does .railsGood s (fun t => t.pwr = { s.pwr with railsOk := true } ∧ t.pins = { s.pins with dramPwrEn := true } ∧ t.aon = { s.aon with coldHeld := false } ∧
      t.boot.phase = max s.boot.phase 4 ∧ t.dev = s.dev ∧ t.hly = s.hly ∧ t.jrnl = s.jrnl ∧ t.media = s.media ∧ t.cfg = s.cfg)) ∧
  (∀ s : State, feeds s.hly.breaker = true → s.pwr.voutOk = true → s.pwr.railsOk = false → s.flush = none → s.dev.lostAon = true →
    Does .railsGood s (fun t => t.dev.lostAon = false ∧ t.aon.restored = true ∧
      t.dev.secs = (if (recordSecs s).isEmpty then 0 else ((recordSecs s).foldl max 0 + 1) % 2 ^ 48) ∧
      t.dev.powerOn = ((recordPowerOns s).foldl max 0 + 1) % 2 ^ 32)) ∧
  (∀ (s : State) (x : BootStraps) (clkRef hot : Bool), s.boot.phase = 4 → s.aon.thermLatch = false ∨ hot = false →
    Does (.pllLock clkRef x hot) s (fun t => t = { s with boot := { s.boot with
      phase := 5, clkRef := clkRef, imgSel := imgSelLevel x.imgSel, pcieMode := pcieModeLevel x.pcieMode, smbAddr := lowLevel x.smbAddr } })) ∧
  (∀ (s : State) (x : BootStraps) (clkRef : Bool), s.boot.phase = 4 → s.aon.thermLatch = true →
    Does (.pllLock clkRef x true) s (fun t => t.aon = { s.aon with latchRefusals := s.aon.latchRefusals + 1, refusalsTold := s.aon.refusalsTold + 1 } ∧
      t.hly.held = some .thermal ∧ t.boot.clkRef = false ∧ t.pwr.railsOk = false)) ∧
  (∀ s : State, s.hly.vinGood = true → s.aon.xtalLost = false →
    Does .crystalSwitch s (fun t => t = { s with aon := { s.aon with xtal := true } })) ∧
  (∀ s : State, s.aon.xtal = true →
    Does .crystalLost s (fun t => ReportsOnly { s with aon := { s.aon with xtal := false, xtalLost := true } } t ∧ Shows t 13 13)) ∧
  (∀ s : State, 5 ≤ s.boot.phase →
    (s.boot.clkRef = false → Does .clkRefAbsentTimeout s (fun t => ReportsOnly s t ∧ Shows t 1 8)) ∧
    Does .clkRefAppear s (fun t => t = { s with boot := { s.boot with clkRef := true } }))) ∧
  ((∀ (s : State) (line : SpiLine) (x : Option Sfdp) (c : Nat), mayLoadImage s = true → 6 ≤ s.boot.phase → s.boot.headers = false →
      nextHeader s = some c → c < s.boot.hdrOk.length →
    Does (.imageBlockRead line x) s (fun t =>
      nth t.boot.hdrOk c none = some (decide (headerCause (flashBlock s c 0 line) = .none)) ∧ t.cfg = s.cfg ∧ t.prm = s.prm ∧
        t.out = (readBlockAt c 0 s).out)) ∧
  (∀ (s : State) (x : Option Sfdp) (l : Loading), mayLoadImage s = true → 6 ≤ s.boot.phase → s.boot.headers = true → s.boot.loading = some l →
      l.waiting = false → l.ended = false →
    Does (.imageBlockRead .clean x) s (fun t => t.cfg = s.cfg ∧ t.cmds = s.cmds ∧ t.jrnl = s.jrnl ∧
      let m := { l with blocks := l.blocks ++ [nth (vecAt s.cfg l.copy []) l.blocks.length erasedBlock], waiting := true }
      (t.boot.loading = some m ∨ t.boot.loading = some { m with handed := l.blocks.length :: l.handed }) ∧
      ((∀ e, sectionOf (nth m.blocks 0 []) l.blocks.length = some e → gatedType e.type = false) →
        t = { s with boot := { s.boot with loading := some m }, out := (readBlockAt l.copy l.blocks.length s).out }))) ∧
  (∀ (s : State) (l : Loading) (h : List Byte), mayLoadImage s = true → s.boot.loading = some l → l.waiting = true → l.blocks = [h] →
      s.boot.candidates = [l.copy] → tagOk s.boot.key h 0 h = false → l.copy < s.boot.cause.length →
    Does .imageBlockVerified s (fun t => nth t.boot.cause l.copy .none = .headerTag ∧ t.boot.noImage = true ∧ t.boot.phase = 15 ∧ t.boot.ready = true ∧
      t.boot.sealed = true ∧ t.prm = keepTaken s.boot.rwsTaken State.prm0 ∧ Shows t 1 1 ∧ Shows t 1 2 ∧ t.cfg = s.cfg)) ∧
  (∀ (s : State) (l : Loading), mayLoadImage s = true → s.boot.loading = some l → l.waiting = true → 2 ≤ l.blocks.length →
      l.blocks.length < hdrLength (nth l.blocks 0 []) →
    Does .imageBlockVerified s (fun t => t.cfg = s.cfg ∧ t.cmds = s.cmds ∧ t.jrnl = s.jrnl ∧
      t.cleat = { s.cleat with verifyBlocks := min (s.cleat.verifyBlocks + 256) (2 ^ 32 - 1) } ∧
      (tagOk s.boot.key (nth l.blocks 0 []) (l.blocks.length - 1) (nth l.blocks (l.blocks.length - 1) []) = true →
        t.boot.loading = some { l with waiting := false } ∨
        t.boot.loading = some { l with waiting := false, handed := (l.blocks.length - 1) :: l.handed }) ∧
      (tagOk s.boot.key (nth l.blocks 0 []) (l.blocks.length - 1) (nth l.blocks (l.blocks.length - 1) []) = false →
        t.boot.loading = some { l with waiting := false, bad := some (l.bad.getD (l.blocks.length - 1)) } ∧ t.prm = s.prm)))) ∧
  ((∀ s : State, mayBeReady s = true → s.hx.perstHeld = false → s.peer.a.phy ≠ 2 → s.peer.b.phy ≠ 2 →
    Does .hostReady s (fun t => t.boot = { s.boot with phase := 9, hostReady := true, ready := true, sealed := true, readyMs := t.boot.readyMs } ∧
      t.hly = { s.hly with faultClass := 0, trips := 0 } ∧ t.pwr = { s.pwr with lastClass := s.hly.faultClass, tripsShown := s.hly.trips } ∧
      t.aon = { s.aon with stopped := false, stopResets := 0, refusalsTold := 0 } ∧ Shows t 1 0 ∧
      (∀ p, ReportCtl { s.ctl.get p with rdy := (s.ctl.get p).en } (t.ctl.get p)) ∧
      (s.hly.faultClass = 6 → Shows t 0 8) ∧ (s.hly.faultClass = 7 → Shows t 0 4) ∧ (s.hly.faultClass = 8 → Shows t 0 6) ∧
      (s.hly.faultClass ∈ [1, 2] → Shows t 0 7) ∧ (s.hly.faultClass ∈ [3, 4, 5] → Shows t 0 5) ∧ (s.aon.stopped = true → Shows t 15 11) ∧
      t.jrnl = s.jrnl ∧ t.map = s.map ∧ t.media = s.media ∧ t.peer = s.peer ∧ t.prm = s.prm)) ∧
  (∀ s : State, s.boot.hostReady = false → s.boot.noImage = false → s.boot.phase ≠ 0 →
    Does .hostReadyLate s (fun t => ReportsOnly s t ∧ Shows t 1 11)))

/-- Acceptance of a command (01 R22; 04 R105, R108; 11 R317, R318, R321): in RUN with no handshake the arrival stamp advances by the cycles since the
previous command, the idle backoff returns to 1, the queue's head moves, and nothing else changes; a controller that does not run takes nothing. I/O
queues (04 R102, R108): creating one adds it to its controller; deleting one removes it, and the outstanding commands of a deleted submission queue
end with Command Aborted due to SQ Deletion. Asynchronous Event Requests and Keep Alive (04 R105, coincidences; 15 R413, R415): a request waits when
no event does, is refused beyond the limit, and completes with the oldest unmasked event; the expiry sets CSTS.CFS, drops the port's commands and
raises ERROR g.8. -/
def Obligations.CommandsAndQueues : Prop :=
  ((∀ (s : State) (h : Hdr), fetchAdmin s h = true → s.boot.noImage = false → s.ps.state = 0 → s.ps.hs = none →
    Does (.keepAlive h) s (fun t => Completed t h 0 0 0 ∧ t.hx = { s.hx with stamp := (s.hx.stamp + h.dt) % 2 ^ 64 } ∧
      t.ps = { s.ps with backoff := 1 } ∧ t.map = { s.map with gcMs := 0 } ∧ t.cmds = s.cmds ∧ t.exts = s.exts ∧ t.jrnl = s.jrnl ∧
      t.media = s.media ∧ t.pwr = s.pwr ∧ t.peer = s.peer ∧ t.pins = s.pins)) ∧
  (∀ (s : State) (h : Hdr), ctlRuns s h.port = false → Does (.keepAlive h) s (fun t => t = s) ∧ ∀ nsid, Does (.flush h nsid) s (fun t => t = s))) ∧
  (∀ (s : State) (h : Hdr), fetchAdmin s h = true → s.boot.noImage = false →
    let a := acceptAdmin h s
    let c := a.ctl.get h.port
    (∀ qid qsize iv ien, 1 ≤ qid → qid ≤ granted a h.port → (∀ q ∈ c.cqs, q.qid ≠ qid) → 1 ≤ qsize → qsize + 1 ≤ ioqDepth a → iv < msixCount a →
      Does (.createIoCompletionQueue h qid qsize iv ien true) s (fun t => Completed t h 0 0 0 ∧
        ReportsOnly (setCtl h.port (fun c => { c with cqs := c.cqs ++ [{ qid := qid, size := qsize + 1, iv := iv, ien := ien }] }) a) t)) ∧
    (∀ qid qsize cqid, 1 ≤ qid → qid ≤ granted a h.port → (∀ q ∈ c.sqs, q.qid ≠ qid) → 1 ≤ qsize → qsize + 1 ≤ ioqDepth a → 1 ≤ cqid →
        (∃ q ∈ c.cqs, q.qid = cqid) →
      Does (.createIoSubmissionQueue h qid qsize cqid true) s (fun t => Completed t h 0 0 0 ∧
        ReportsOnly (setCtl h.port (fun c => { c with sqs := c.sqs ++ [{ qid := qid, size := qsize + 1, cqid := cqid, head := 0, tail := 0 }] }) a) t)) ∧
    (∀ q ∈ c.cqs, 1 ≤ q.qid → (∀ k ∈ c.sqs, k.cqid ≠ q.qid) →
      Does (.deleteIoCompletionQueue h q.qid) s (fun t => Completed t h 0 0 0 ∧
        ReportsOnly (setCtl h.port (fun c => { c with cqs := c.cqs.filter (fun k => k.qid ≠ q.qid) }) a) t)) ∧
    (ReadsSettled a → ∀ q ∈ c.sqs, 1 ≤ q.qid →
      Does (.deleteIoSubmissionQueue h q.qid) s (fun t => Completed t h 0 0 0 ∧
        (∀ d ∈ a.cmds, d.port = h.port → d.sq = q.qid → Out.cqe d.port d.sq d.cid 0 0x08 0 ∈ t.out) ∧
        t.cmds = a.cmds.filter (fun d => !(d.port = h.port && d.sq = q.qid)) ∧
        (t.ctl.get h.port).sqs = c.sqs.filter (fun k => k.qid ≠ q.qid) ∧ t.jrnl = a.jrnl ∧ t.media = a.media ∧ t.map = a.map))) ∧
  ((∀ (s : State) (h : Hdr), fetchAdmin s h = true → s.boot.noImage = false →
    let a := acceptAdmin h s
    let c := a.ctl.get h.port
    (c.aers.length < aerLimit a → c.aenWait = [] →
      Does (.asynchronousEventRequest h) s (fun t => t = setCtl h.port (fun c => { c with aers := c.aers ++ [h.cid] }) a)) ∧
    (c.aers.length < aerLimit a → ∀ e rest, c.aenWait = e :: rest → c.aenMask.any (sameAen e) = false →
      Does (.asynchronousEventRequest h) s (fun t => Completed t h 0 0 (e.type + 256 * e.info + 65536 * e.log) ∧
        ReportsOnly (setCtl h.port (fun c => { c with aenWait := rest, aenMask := (e.type, e.info) :: c.aenMask }) a) t)) ∧
    (aerLimit a ≤ c.aers.length → Does (.asynchronousEventRequest h) s (fun t => Completed t h 1 5 0 ∧ ReportsOnly a t))) ∧
  (∀ (s : State) (p : Port), (s.ctl.get p).en = true → (s.ctl.get p).rdy = true → (s.ctl.get p).cfs = false → (s.ctl.get p).feat.kato ≠ 0 → ReadsSettled s →
    Does (.keepAliveExpiry p) s (fun t => CommandsDropped p s t ∧ ReportCtl { s.ctl.get p with cfs := true } (t.ctl.get p) ∧
      Shows t (hostGroup p) 8 ∧ t.jrnl = s.jrnl ∧ t.map = s.map ∧ t.media = s.media ∧ t.hly = s.hly ∧ t.prm = s.prm)))

/-- Identify, Get Log Page, Abort and unknown opcodes (04 R102, R105, R107, R109, R116): the data and the statuses; a read of the SMART page changes
no log; a transfer beyond MDTS, an unknown log page, an unknown structure and an unknown opcode are refused. -/
def Obligations.AdminInquiries : Prop :=
  (∀ (s : State) (h : Hdr), fetchAdmin s h = true →
    let a := acceptAdmin h s
    (∀ cns nsid cntid bs, cns ∈ [0, 1, 2, 3, 5, 6, 0x11, 0x12, 0x13] → identifyData a h.port cns nsid cntid = some bs →
      Does (.identify h cns nsid cntid) s (fun t => Completed t h 0 0 0 ∧ .bytes h.port h.sq h.cid bs ∈ t.out ∧ ReportsOnly a t)) ∧
    (∀ len, a.prm.host = none ∨ len ≤ 2 ^ mdts a * 4096 → Does (.getLogPage h 2 0 len true) s (fun t => Completed t h 0 0 0 ∧ ReportsOnly a t ∧
      .bytes h.port h.sq h.cid (sub (smartPage a).1 0 len) ∈ t.out)) ∧
    (∀ lid lpo len rae, lid ∉ [1, 2, 3, 5, 0x0C, 0x80, 0xC1, 0xC2, 0xC3] →
      Does (.getLogPage h lid lpo len rae) s (fun t => Completed t h 1 9 0 ∧ ReportsOnly a t)) ∧
    (∀ len, a.prm.host ≠ none → 2 ^ mdts a * 4096 < len → Does (.getLogPage h 2 0 len true) s (fun t => Completed t h 0 2 0 ∧ ReportsOnly a t))) ∧
  (∀ (s : State) (h : Hdr) (sqid cid : Nat), fetchAdmin s h = true → s.boot.noImage = false → (acceptAdmin h s).cmds = [] →
      sqid ≠ 0 ∨ has ((acceptAdmin h s).ctl.get h.port).aers cid = false →
    Does (.abort h sqid cid) s (fun t => Completed t h 0 0 1 ∧ ReportsOnly (acceptAdmin h s) t)) ∧
  (∀ (s : State) (h : Hdr) (sqid cid : Nat) (c : HostCmd), fetchAdmin s h = true → s.boot.noImage = false → ReadsSettled (acceptAdmin h s) →
      (acceptAdmin h s).cmds.find? (fun c => c.port = h.port && c.sq = sqid && c.cid = cid && c.live) = some c →
      underWay (acceptAdmin h s) c = false →
    Does (.abort h sqid cid) s (fun t => Completed t h 0 0 0 ∧ .cqe c.port c.sq c.cid 0 7 0 ∈ t.out ∧
      t.cmds = (acceptAdmin h s).cmds.filter (fun d => d.key ≠ c.key) ∧ t.jrnl = (acceptAdmin h s).jrnl ∧ t.media = (acceptAdmin h s).media)) ∧
  (∀ (s : State) (h : Hdr) (opcode : Nat),
    (fetchAdmin s h = true → opcode ∉ adminOpcodes →
      Does (.invalidCommandOpcode h opcode) s (fun t => Completed t h 0 1 0 ∧ ReportsOnly (acceptAdmin h s) t)) ∧
    (h.sq ≠ 0 → fetchIo s h = true → opcode ∉ ioOpcodes →
      Does (.invalidCommandOpcode h opcode) s (fun t => Completed t h 0 1 0 ∧ ReportsOnly (acceptIo h s) t)))

/-- Features (04 R102, table of features): Set Features stores a value that Get Features then shows, for its own controller alone; a saved value and
an unknown identifier are refused. -/
def Obligations.FeatureValues : Prop :=
  (∀ (s : State) (h : Hdr) (v : Word) (id : BitVec 128), fetchAdmin s h = true → s.boot.noImage = false →
    let a := acceptAdmin h s
    (featureLoses a (.feature (some h.port) 0x0B) (hostMaster h.port) = false →
      Does (.setFeatures h 0x0B false 0 v id) s (fun t => Completed t h 0 0 0 ∧
        ReportCtl { a.ctl.get h.port with feat := { (a.ctl.get h.port).feat with aec := v } } (t.ctl.get h.port) ∧
        (∀ q, q ≠ h.port → ReportCtl (a.ctl.get q) (t.ctl.get q)) ∧ t = { a with ctl := t.ctl, orders := t.orders, evt := t.evt, out := t.out, fresh := t.fresh })) ∧
    (∀ fid nsid, Does (.setFeatures h fid true nsid v id) s (fun t => Completed t h 1 0x0D 0 ∧ ReportsOnly a t)) ∧
    (∀ fid nsid, knownFeature fid = false → Does (.setFeatures h fid false nsid v id) s (fun t => Completed t h 0 2 0 ∧ ReportsOnly a t))) ∧
  (∀ (s : State) (h : Hdr) (fid nsid : Nat) (cdw11 : Word), fetchAdmin s h = true → s.boot.noImage = false → plainFeature fid = true →
      nsFeature fid = false → fid ≠ 0x81 →
    let a := acceptAdmin h s
    Does (.getFeatures h fid 0 nsid cdw11) s (fun t => Completed t h 0 0 (featureWord a h.port fid nsid cdw11.toNat) ∧ ReportsOnly a t ∧
      (fid = 0x0B → featureWord a h.port fid nsid cdw11.toNat = (a.ctl.get h.port).feat.aec.toNat) ∧
      (fid = 0x0F → featureWord a h.port fid nsid cdw11.toNat = (a.ctl.get h.port).feat.kato)))

/-- Staging an image (03 R95 to R97; 04 R118): the first piece goes to the copy that is not in use, never to the other; pieces follow in order; a
piece out of order is refused; the read-back verification ends with INFO 1.4, or with Image Rejected and ERROR 1.5. -/
def Obligations.ImageStaging : Prop :=
  (∀ (s : State) (h : Hdr) (count : Nat) (data : List Byte) (x : Sfdp), fetchAdmin s h = true → s.boot.noImage = false → s.stage = none →
      1 ≤ count → count ≤ pieceMax s → data.length = count * blockSize → headerCause (data.take blockSize) = .none →
      count < hdrLength (data.take blockSize) → hdrLength (data.take blockSize) ≤ 2048 →
    Does (.imageStage h 0 count true false 0 data (some x)) s (fun t => Completed t h 0 0 0 ∧
      t.stage = some { owner := h.port, next := count, length := hdrLength (data.take blockSize), last := none } ∧
      t.cfg = modVec s.cfg (1 - s.boot.copy) (fun _ => pieceBlocks count data) ∧ t.boot.stageState = 2 ∧
      t.boot.stageCopy = 1 - s.boot.copy ∧ t.boot.stageBytes = count * 4096 ∧ t.prm = s.prm ∧ t.jrnl.recs = s.jrnl.recs)) ∧
  (∀ (s : State) (h : Hdr) (g : Staging) (block count copy : Nat) (first last : Bool) (data : List Byte) (x : Option Sfdp),
      fetchAdmin s h = true → s.boot.noImage = false → s.stage = some g → 1 ≤ count → count ≤ pieceMax s → block ≤ 2047 →
      data.length = count * blockSize → first = true ∨ g.owner ≠ h.port ∨ g.last.isSome = true ∨ block ≠ g.next →
    Does (.imageStage h block count first last copy data x) s (fun t => Completed t h 0 0x0C 0 ∧ ReportsOnly (acceptAdmin h s) t)) ∧
  (∀ (s : State) (g : Staging), s.stage = some g → g.last.isSome = true →
    let c := verifyCopy s (vecAt s.cfg s.boot.stageCopy [])
    Does .stagingComplete s (fun t => t.stage = none ∧ t.cfg = s.cfg ∧
      t.boot = { s.boot with stageState := if c = .none then 4 else 5, stageCause := c } ∧ Shows t 1 (if c = .none then 4 else 5)))

/-- Cleat loads and frees (13 R369, R377, R379, R380): a slot takes a key for the issuing controller with its chain cleared; clear keys at level 0
only; a slot of the other controller is refused; everything but Cleat and the reports stays. Saved contexts (13 R382, R369): a clear save at level 0
gives the context's 64 bytes and zeros, and a restore of those bytes loads the same context for the issuing controller; a wrapped save is the key wrap
of the plaintext; a restore whose bytes break the table is refused with NOTICE 14.11 and leaves the slots alone. -/
def Obligations.CleatSlotsAndContexts : Prop :=
  (∀ (s : State) (h : Hdr) (slot : Nat), fetchAdmin s h = true → s.boot.noImage = false → verifyHold (acceptAdmin h s) = false → slot < 16 →
    let a := acceptAdmin h s
    let slotIs (c : Option Ctx) (t : State) := t = { a with cleat := t.cleat, ctl := t.ctl, evt := t.evt, out := t.out, fresh := t.fresh } ∧
      t.cleat.ctx = modVec a.cleat.ctx slot (fun _ => c)
    (ownedByOther a h.port slot = false →
      (∀ kslot k, 8 ≤ kslot → kslot ≤ 15 → slotKey a kslot = some k →
        Does (.loadStore h slot kslot) s (fun t => Completed t h 0 0 0 ∧ slotIs (some
          { owner := h.port, k256 := k.length = 32, source := kslot, blocks := 0, chain := zeros 16, key := k }) t)) ∧
      (∀ k256 buf, buf.length = 32 → level a = 0 →
        Does (.loadClear h slot k256 buf) s (fun t => Completed t h 0 0 0 ∧ slotIs (some
          { owner := h.port, k256 := k256, source := 0, blocks := 0, chain := zeros 16, key := if k256 then buf else buf.take 16 }) t)) ∧
      (∀ c, ctxAt a slot = some c →
        Does (.cmacReset h slot) s (fun t => Completed t h 0 0 0 ∧ slotIs (some { c with chain := zeros 16, blocks := 0 }) t) ∧
        Does (.free h slot) s (fun t => Completed t h 0 0 0 ∧ slotIs none t))) ∧
    (∀ k256 buf, buf.length = 32 → 1 ≤ level a →
      Does (.loadClear h slot k256 buf) s (fun t => Completed t h 7 0x87 0 ∧ t.cleat = { a.cleat with levelRefused := min (a.cleat.levelRefused + 1) 65535 })) ∧
    (ownedByOther a h.port slot = true → Does (.free h slot) s (fun t => Completed t h 0 2 0 ∧ t.cleat = a.cleat))) ∧
  (∀ (s : State) (h : Hdr) (slot : Nat), fetchAdmin s h = true → s.boot.noImage = false → verifyHold (acceptAdmin h s) = false → slot < 16 →
      ownedByOther (acceptAdmin h s) h.port slot = false →
    let a := acceptAdmin h s
    (∀ c, ctxAt a slot = some c →
      (level a = 0 → Does (.cleatContextSave h slot false) s (fun t => Completed t h 0 0 0 ∧ t.cleat = a.cleat ∧
        .bytes h.port h.sq h.cid (ctxPlain c ++ zeros 8) ∈ t.out)) ∧
      Does (.cleatContextSave h slot true) s (fun t => Completed t h 0 0 0 ∧ t.cleat.ctx = a.cleat.ctx ∧
        .bytes h.port h.sq h.cid (keyWrap contextKeyBytes (ctxPlain c)) ∈ t.out)) ∧
    (∀ c : Ctx, c.blocks < 2 ^ 32 → c.source = 0 ∨ (8 ≤ c.source ∧ c.source ≤ 15) → c.chain.length = 16 →
        c.key.length = (if c.k256 then 32 else 16) → level a = 0 →
      Does (.cleatContextRestore h slot false (ctxPlain c ++ zeros 8)) s (fun t => Completed t h 0 0 0 ∧
        t.cleat.ctx = modVec a.cleat.ctx slot (fun _ => some { c with owner := h.port }))) ∧
    (∀ wrapped buf, buf.length = 72 → wrapped = true ∨ level a = 0 → (restorePlain wrapped buf).bind (ctxOfPlain h.port) = none →
      Does (.cleatContextRestore h slot wrapped buf) s (fun t => Completed t h 0 2 0 ∧ Shows t 14 11 ∧ t.cleat.ctx = a.cleat.ctx ∧
        t.cleat.unwrapFailed = min (a.cleat.unwrapFailed + 1) 65535)))

/-- Cleat operations (13 R380, R381): each block is encrypted or decrypted under the slot's key; CMAC_UPDATE absorbs the blocks and counts them;
CMAC_FINAL answers the tag in bytes 0 to 15 and clears the chain; a COUNT outside 1 to 256 and an empty slot are refused. -/
def Obligations.CleatOperations : Prop :=
  ∀ (s : State) (h : Hdr) (slot count : Nat) (buf : List Byte), fetchAdmin s h = true → s.boot.noImage = false →
      verifyHold (acceptAdmin h s) = false →
    let a := acceptAdmin h s
    (slot < 16 → 1 ≤ count → count ≤ 256 → buf.length = 16 * count → ownedByOther a h.port slot = false → ∀ c, ctxAt a slot = some c →
      Does (.encrypt h slot count buf) s (fun t => Completed t h 0 0 0 ∧ t.cleat.ctx = a.cleat.ctx ∧
        .bytes h.port h.sq h.cid ((chunks 16 count buf).map (aesEncrypt c.key)).flatten ∈ t.out) ∧
      Does (.decrypt h slot count buf) s (fun t => Completed t h 0 0 0 ∧ t.cleat.ctx = a.cleat.ctx ∧
        .bytes h.port h.sq h.cid ((chunks 16 count buf).map (aesDecrypt c.key)).flatten ∈ t.out) ∧
      (c.blocks + count < 2 ^ 32 →
        Does (.cmacUpdate h slot count buf) s (fun t => Completed t h 0 0 0 ∧ t.cleat.ctx = modVec a.cleat.ctx slot (fun _ =>
          some { c with chain := absorb c.key c.chain (chunks 16 count buf), blocks := c.blocks + count }))) ∧
      (∀ padded, Does (.cmacFinal h slot count padded buf) s (fun t => Completed t h 0 0 0 ∧
        t.cleat.ctx = modVec a.cleat.ctx slot (fun _ => some { c with chain := zeros 16, blocks := 0 }) ∧
        .bytes h.port h.sq h.cid (absorbLast c.key c.chain padded (chunks 16 count buf) ++ buf.drop 16) ∈ t.out))) ∧
    (count = 0 ∨ 256 < count →
      Does (.encrypt h slot count buf) s (fun t => Completed t h 0 2 0 ∧ t.cleat = a.cleat) ∧
      Does (.cmacUpdate h slot count buf) s (fun t => Completed t h 0 2 0 ∧ t.cleat = a.cleat)) ∧
    (slot < 16 → 1 ≤ count → count ≤ 256 → buf.length = 16 * count → ctxAt a slot = none →
      Does (.decrypt h slot count buf) s (fun t => Completed t h 0 0x0C 0 ∧ t.cleat = a.cleat))

/-- Event status and routing (15 R407, R409, R410, R422): a write of 1 clears its status bit and no other; a routing register keeps reserved bits 0
and the LOG bits of ERROR and DANGER events 1, for every value written; a time mark comes 6 h after the last log entry. -/
def Obligations.EventRegisters : Prop :=
  (∀ (s : State) (g : Fin 16) (v : Word),
    Does (.evtStatusClear g v) s (fun t => t = { s with evt := { s.evt with status := t.evt.status } } ∧
      ∀ k : Fin 16, t.evt.status[k] = if k = g then s.evt.status[k] &&& ~~~ v else s.evt.status[k])) ∧
  (∀ (s : State) (r : Route) (g : Fin 16) (v : Word),
    Does (.routingWrite r g v) s (fun t =>
      t = { s with evt := { s.evt with log := t.evt.log, msix := t.evt.msix, aen := t.evt.aen, alert := t.evt.alert, smb := t.evt.smb } } ∧
      (r = .log → t.evt.log[g] = (v &&& definedMask g ||| severeMask g) ∧ t.evt.msix = s.evt.msix ∧ t.evt.alert = s.evt.alert) ∧
      (r = .msix → t.evt.msix[g] = v &&& definedMask g ∧ t.evt.log = s.evt.log) ∧
      (r = .aen → t.evt.aen[g] = v &&& definedMask g ∧ t.evt.log = s.evt.log) ∧
      (r = .alert → t.evt.alert[g] = v &&& definedMask g ∧ t.evt.log = s.evt.log) ∧
      (r = .smbalert → t.evt.smb[g] = v &&& definedMask g ∧ t.evt.log = s.evt.log))) ∧
  (∀ s : State, s.boot.gates = true → s.evt.quiet + 21600 ≤ s.dev.secs → (∀ e ∈ s.evt.queue, ¬ (e.g = 1 ∧ e.bit = 13)) →
    Does .timeMark s (fun t => ReportsOnly s t ∧ Shows t 1 13))

/-- Writes and deallocations (01 R22, R23; 04 R103, R104, R109, R110): the command takes the next global write sequence and is split at hank
boundaries into extents that cover exactly its range, waiting for tokens and for their INTENT records; nothing on the medium and in the map changes
yet. Of equal stamps port A's write comes first: it takes over the sequence of port B's first write that is still to be admitted, and those move up by
one (01 R22, 04 R119; that this is how the model keeps the order is log entry 4). -/
def Obligations.WriteCommands : Prop :=
  ∀ (s : State) (h : Hdr), fetchIo s h = true → NamesNew s →
    let a := acceptIo h s
    let started (c : HostCmd) (g : Nat) (dealloc fua : Bool) (slba nlb1 : Nat) (t : State) :=
      t.hx = { a.hx with gseq := (a.hx.gseq + 1) % 2 ^ 64, nextKey := t.hx.nextKey } ∧ c ∈ t.cmds ∧ c.key = a.hx.nextKey ∧
      c.port = h.port ∧ c.cid = h.cid ∧ c.stamp = a.hx.stamp ∧ (h.port = .b ∨ portASeqs a = [] → g = a.hx.gseq) ∧
      (∀ m, h.port = .a → argMin id (portASeqs a) = some m →
        g = m ∧ ∀ e ∈ a.exts, behindPortA a e = true → ∃ f ∈ t.exts, f.id = e.id ∧ f.gseq = e.gseq + 1) ∧
      (∀ lba, slba ≤ lba → lba ≤ slba + nlb1 → ∃ e ∈ t.exts, ownerKey e = some c.key ∧ e.slba ≤ lba ∧ lba ≤ e.slba + e.nlb1) ∧
      (∀ e ∈ t.exts, ownerKey e = some c.key → slba ≤ e.slba ∧ e.slba + e.nlb1 ≤ slba + nlb1 ∧ e.slba / 32 = (e.slba + e.nlb1) / 32 ∧
        e.gseq = g ∧ e.recno = none ∧ e.mode.dealloc = dealloc ∧ e.mode.fua = fua ∧ e.mode.buffered = c.buffered ∧
        e.blks = if dealloc then [] else List.replicate (e.nlb1 + 1) emptyBlk) ∧
      t.map = a.map ∧ t.media = a.media ∧ t.prm = a.prm ∧ t.pwr = a.pwr
    (∀ nsid slba nlb1 fua, refuseIo a h nsid slba (nlb1 + 1) true true = none →
      Does (.write h nsid slba nlb1 fua) s (fun t => ∃ c, started c c.gseq false fua slba nlb1 t ∧ c.kind = .write ∧ c.nsid = nsid ∧
        c.buffered = ackMode a h.port nsid fua)) ∧
    (∀ nsid slba nlb1, refuseIo a h nsid slba (nlb1 + 1) true false = none →
      Does (.writeZeroes h nsid slba nlb1) s (fun t => ∃ c, started c c.gseq true false slba nlb1 t ∧ c.kind = .writeZeroes ∧ c.nsid = nsid)) ∧
    (∀ nsid slba n, 1 ≤ n → refuseIo a h nsid slba n true false = none →
      Does (.datasetManagement h nsid true [(slba, n)]) s (fun t => ∃ c g, started c g true false slba (n - 1) t ∧ c.kind = .dsm ∧ c.nsid = nsid)) ∧
    (∀ nsid ranges, refuseIo a h nsid 0 0 false false = none →
      Does (.datasetManagement h nsid false ranges) s (fun t => Completed t h 0 0 0 ∧ ReportsOnly a t))

/-- What refuses an I/O command ends it with that status and changes nothing else (04 R109, R115; 14 R395); in the stopper state every write is
refused with 0h/20h. Reads, Compare, Verify and Flush with every block in DRAM or unmapped (01 R30; 04 R103, R111, R113): the newest content is
returned, and a Compare tells equal from unequal data; where no fused pair waits to begin its Compare; what counts as held in
DRAM is log entry 25. A block that the map names is read from its page, and the command waits for it. -/
def Obligations.RefusalsAndBufferReads : Prop :=
  (∀ (s : State) (h : Hdr), fetchIo s h = true →
    let a := acceptIo h s
    ∀ nsid slba nlb1 sct sc dw0,
      (refuseIo a h nsid slba (nlb1 + 1) true true = some (sct, sc, dw0) → ∀ fua,
        Does (.write h nsid slba nlb1 fua) s (fun t => Completed t h sct sc dw0 ∧ ReportsOnly a t ∧ (a.safe.stopper = true → sct = 0 ∧ sc = 0x20))) ∧
      (refuseIo a h nsid slba (nlb1 + 1) true false = some (sct, sc, dw0) →
        Does (.writeZeroes h nsid slba nlb1) s (fun t => Completed t h sct sc dw0 ∧ ReportsOnly a t)) ∧
      (refuseIo a h nsid slba (nlb1 + 1) false true = some (sct, sc, dw0) →
        Does (.read h nsid slba nlb1) s (fun t => Completed t h sct sc dw0 ∧ ReportsOnly a t) ∧
        ∀ data : List Blk, data.length = nlb1 + 1 → Does (.compare h nsid slba nlb1 data) s (fun t => Completed t h sct sc dw0 ∧ ReportsOnly a t)) ∧
      (refuseIo a h nsid slba (nlb1 + 1) false false = some (sct, sc, dw0) →
        Does (.verify h nsid slba nlb1) s (fun t => Completed t h sct sc dw0 ∧ ReportsOnly a t)) ∧
      ((nsOf a nsid = none ↔ ¬ ∃ n ∈ a.prm.namespaces, n.nsid = nsid) ∧
       (∀ n, nsOf a nsid = some n → heldBack (a.ctl.get h.port) nsid a.hx.stamp = false → n.size < slba + (nlb1 + 1) →
         refuseIo a h nsid slba (nlb1 + 1) false false = some (0, 0x80, 0)))) ∧
  (∀ (s : State) (h : Hdr) (nsid slba nlb1 : Nat) (f : Nat → Blk), fetchIo s h = true → NamesNew s → FusedWait s → FusedBegun s →
    let a := acceptIo h s
    (nsLayout a nsid).cross ≠ 5 →
    (∀ i, i ≤ nlb1 → (∃ g, dramBlock a nsid (slba + i) = some (f i, g)) ∨
      (dramBlock a nsid (slba + i) = none ∧ look a nsid (slba + i) = .unmapped ∧ f i = zeroBlk)) →
    (refuseIo a h nsid slba (nlb1 + 1) false true = none →
      Does (.read h nsid slba nlb1) s (fun t => Completed t h 0 0 0 ∧
        .blocks h.port h.sq h.cid ((List.range (nlb1 + 1)).map (fun i => hostBlk a nsid (f i))) ∈ t.out ∧ t.media = a.media ∧ t.map = a.map ∧
        t.jrnl = a.jrnl ∧ t.exts = a.exts) ∧
      (∀ data : List Blk, data.length = nlb1 + 1 →
        Does (.compare h nsid slba nlb1 data) s (fun t => t.media = a.media ∧ t.map = a.map ∧ t.exts = a.exts ∧
          ((∀ i (hi : i < data.length), sameBlk (nsMeta a nsid) (f i) data[i] = true) → Completed t h 0 0 0) ∧
          ((∃ i, ∃ hi : i < data.length, sameBlk (nsMeta a nsid) (f i) data[i] = false) → Completed t h 2 0x85 0)))) ∧
    (refuseIo a h nsid slba (nlb1 + 1) false false = none →
      Does (.verify h nsid slba nlb1) s (fun t => Completed t h 0 0 0 ∧ t.media = a.media ∧ t.map = a.map ∧ t.exts = a.exts))) ∧
  (∀ (s : State) (h : Hdr) (nsid slba nlb1 i : Nat) (m : MAddr) (e : SetE) (u : Nat), fetchIo s h = true → NamesNew s → ReadsSettled s →
    let a := acceptIo h s
    (nsLayout a nsid).cross ≠ 5 → (∀ j, j ≤ nlb1 → look a nsid (slba + j) ≠ .bad) → i ≤ nlb1 → dramBlock a nsid (slba + i) = none →
      look a nsid (slba + i) = .mapped m → setBy a m.set = some e → nth e.members (placeOf a e m.block).1 none = some u →
    let waits (k : CmdKind) (t : State) := (∃ c ∈ t.cmds, c.key = a.hx.nextKey ∧ c.kind = k ∧ c.port = h.port ∧ c.cid = h.cid ∧ c.found[i]? = some .waiting) ∧
      (∃ r ∈ t.media.reads, r.unit = u ∧ r.page = (placeOf a e m.block).2.1 + 1 ∧
        ∃ w ∈ r.wants, w.reader = .cmd a.hx.nextKey ∧ w.idx = i ∧ w.slot = (placeOf a e m.block).2.2) ∧ t.map = a.map ∧ t.exts = a.exts ∧ t.jrnl = a.jrnl
    (refuseIo a h nsid slba (nlb1 + 1) false true = none → Does (.read h nsid slba nlb1) s (waits .read) ∧
      ∀ data : List Blk, data.length = nlb1 + 1 → Does (.compare h nsid slba nlb1 data) s (waits (.compare data))) ∧
    (refuseIo a h nsid slba (nlb1 + 1) false false = none → Does (.verify h nsid slba nlb1) s (waits .verify)))

/-- Flush (04 R111): where nothing waits for its COMPLETION record, it completes at once if every earlier host write of its namespace is in medium
state and no earlier fused pair is undecided, and waits otherwise. A fused Compare and Write (04 R113): alone, or on more than one block, both parts
are refused; where every earlier write to the block has its data in DRAM and no earlier pair on it is undecided, equal data completes the Compare and
lets the Write go on under the pair's sequence, and unequal data ends the Compare with 2h/85h and the Write with 0h/09h. -/
def Obligations.FlushAndFusedPair : Prop :=
  (∀ (s : State) (h : Hdr) (nsid : Nat), fetchIo s h = true → NamesNew s →
    let a := acceptIo h s
    let waits (t : State) := (∃ c ∈ t.cmds, c.key = a.hx.nextKey ∧ c.kind = .flush ∧ c.port = h.port ∧ c.cid = h.cid) ∧ t.map = a.map ∧ t.media = a.media
    nsid = 0xFFFFFFFF ∨ refuseIo a h nsid 0 0 false false = none → (∀ e ∈ a.exts, readyToClose a e = false) →
    ((∀ e ∈ a.exts, isHostExt e = true → covers nsid e.nsid = true → e.gseq < a.hx.gseq → mediumDone a e = true) →
        (∀ c ∈ a.cmds, isFused c = true → covers nsid c.nsid = true → a.hx.gseq ≤ c.gseq) →
      Does (.flush h nsid) s (fun t => Completed t h 0 0 0 ∧ t.map = a.map ∧ t.media = a.media)) ∧
    (∀ e ∈ a.exts, isHostExt e = true → covers nsid e.nsid = true → e.gseq < a.hx.gseq → mediumDone a e = false → Does (.flush h nsid) s waits) ∧
    (∀ c ∈ a.cmds, isFused c = true → covers nsid c.nsid = true → c.gseq < a.hx.gseq → Does (.flush h nsid) s waits)) ∧
  (∀ (s : State) (h : Hdr) (nsid slba nlb1 : Nat) (data : Blk) (w : FusedWrite), fetchIo s h = true → NamesNew s → FusedWait s → FusedBegun s →
    let a := acceptIo h s
    let g := (giveGseq h.port a).1
    let a1 := (giveGseq h.port a).2
    let second (t : State) (sct sc : Nat) := Out.cqe h.port h.sq w.cid sct sc 0 ∈ t.out
    Does (.fusedCompareAndWrite h nsid slba nlb1 data none) s (fun t => Completed t h 0 0x0A 0 ∧ ReportsOnly a t) ∧
    (nlb1 ≠ 0 ∨ w.nlb1 ≠ 0 ∨ w.slba ≠ slba ∨ w.nsid ≠ nsid →
      Does (.fusedCompareAndWrite h nsid slba nlb1 data (some w)) s (fun t => Completed t h 0 2 0 ∧ second t 0 9 ∧ ReportsOnly a t)) ∧
    (∀ b k, w.nlb1 = 0 → w.slba = slba → w.nsid = nsid → refuseIo a h nsid slba 1 true true = none →
        (∀ e ∈ a1.exts, isHostExt e = true → coversBlock e nsid slba = true → e.gseq < g → givesBlock e slba = true ∨ e.stopped = true) →
        (∀ c ∈ a1.cmds, isFused c = true → c.nsid = nsid → c.slba = slba → g ≤ c.gseq) → dramBelow (some g) a1 nsid slba = some (b, k) →
      (sameBlk (nsMeta a nsid) b data = true →
        Does (.fusedCompareAndWrite h nsid slba 0 data (some w)) s (fun t => Completed t h 0 0 0 ∧ t.hx.gseq = (a.hx.gseq + 1) % 2 ^ 64 ∧
          ∃ c ∈ t.cmds, c.cid = w.cid ∧ c.kind = .write ∧ c.gseq = g ∧
            ∃ e ∈ t.exts, ownerKey e = some c.key ∧ e.slba = slba ∧ e.nlb1 = 0 ∧ e.gseq = g ∧ e.recno = none)) ∧
      (sameBlk (nsMeta a nsid) b data = false →
        Does (.fusedCompareAndWrite h nsid slba 0 data (some w)) s (fun t => Completed t h 2 0x85 0 ∧ second t 0 9 ∧ t.exts = a1.exts))))

/-- Reservations (04 R103; 05 R130, R132; NVMe's rules between commands are log entry 23): a change writes its RESERVATION record and completes only
when that is durable; a host that is not registered conflicts; a report changes nothing. -/
def Obligations.ReservationCommands : Prop :=
  ∀ (s : State) (h : Hdr) (nsid : Nat) (n : NsEntry), fetchIo s h = true → NamesNew s →
    let a := acceptIo h s
    nsOf a nsid = some n → heldBack (a.ctl.get h.port) nsid a.hx.stamp = false → a.jrnl.state = 4 →
    let id := hostIdOf a h.port
    let waits (t : State) (key : BitVec 64) (rtype action : Nat) :=
      (∃ r ∈ t.jrnl.recs ++ t.jrnl.waiting, r.body = .reservation nsid id key rtype action ∧ r.gseq = a.hx.gseq) ∧
      (∃ c ∈ t.cmds, c.key = a.hx.nextKey ∧ c.cid = h.cid ∧ c.waitRec.isSome = true) ∧ t.resv = a.resv ∧ t.hold = a.hold ∧ t.map = a.map ∧ t.media = a.media
    Does (.reservationReport h nsid) s (fun t => Completed t h 0 0 0 ∧ ReportsOnly a t ∧ .bytes h.port h.sq h.cid (resvReport a nsid) ∈ t.out) ∧
    (keyOf a nsid id = none →
      (∀ iekey crkey nrkey, Does (.reservationRegister h nsid 0 iekey 0 crkey nrkey) s (fun t => waits t nrkey 0 0)) ∧
      (∀ racqa rtype iekey crkey prkey, Does (.reservationAcquire h nsid racqa rtype iekey crkey prkey) s (fun t => Completed t h 0 0x83 0 ∧ ReportsOnly a t)) ∧
      (∀ rrela rtype iekey crkey, Does (.reservationRelease h nsid rrela rtype iekey crkey) s (fun t => Completed t h 0 0x83 0 ∧ ReportsOnly a t))) ∧
    (∀ k, keyOf a nsid id = some k →
      (∀ nrkey, Does (.reservationRegister h nsid 1 false 0 k nrkey) s (fun t => waits t k 0 1) ∧
        Does (.reservationRegister h nsid 2 false 0 k nrkey) s (fun t => waits t nrkey 0 0)) ∧
      (∀ rtype prkey, 1 ≤ rtype → rtype ≤ 6 → (∀ x ∈ a.hold, x.nsid ≠ nsid) →
        Does (.reservationAcquire h nsid 0 rtype false k prkey) s (fun t => waits t k rtype 2)) ∧
      (∀ x : Holder, a.hold.find? (fun x => x.nsid = nsid) = some x → x.hostId = id → x.rtype ≤ 2 →
        Does (.reservationRelease h nsid 0 x.rtype false k) s (fun t => waits t k x.rtype 3)))

/-- A write on its way to the journal (01 R23 to R25, R27, R29; 05 R134, R138): the earliest waiting extent gets one token for each block or none at
all; a block that arrives is stored with its check; admission writes the INTENT record; a failed check ends the command with 0h/04h, and no room
leaves the extent waiting. -/
def Obligations.TokensAndAdmission : Prop :=
  (∀ (s : State) (e : Extent), argMin (fun e => e.stamp) (s.exts.filter wantsTokens) = some e → e.blks.length ≤ tokensFree s →
      s.safe.stopper = false → powerFails s = false → isHostExt e = true →
    Does .bufferTokenGrant s (fun t => t = { s with exts := s.exts.map (fun x => if x.id = e.id then
      { x with rxHeld := 0, blks := x.blks.map (fun b => { b with tok := .filling }) } else x) })) ∧
  (∀ (s : State) (e : Extent), argMin (fun e => e.stamp) (s.exts.filter wantsTokens) = some e → tokensFree s < e.blks.length →
    Does .bufferTokenGrant s (fun t => t = s)) ∧
  (∀ (s : State) (e : Extent) (i : Nat) (b : XBlk) (d : Blk), extBy s e.id = some e → e.blks[i]? = some b → b.tok = .filling → b.blk = none →
      isHostExt e = true → ReadsSettled s →
    let k : Blk := if nsMeta s e.nsid then d else { d with hm := zeros 64 }
    Does (.logicalBlockArrival e.id i d) s (fun t => t = { s with exts := t.exts } ∧
      extBy t e.id = some { e with blks := modAt e.blks i (fun b => { b with blk := some k, check := blockCheck e.nsid (e.slba + i) (nsMeta s e.nsid) k }) })) ∧
  (∀ (s : State) (e : Extent), extBy s e.id = some e → readyToAdmit s e = true → admitRoom s = true → ReadsSettled s →
    Does (.intentAdmit e.id true) s (fun t => (∃ n, extBy t e.id = some { atAdmission s e with recno := some n } ∧
      ∃ r ∈ t.jrnl.recs ++ t.jrnl.waiting, r.body = .intent e.nsid e.slba e.nlb1 e.ext (atAdmission s e).mode (atAdmission s e).layout
        (checkFold e) e.stamp ∧ r.gseq = e.gseq) ∧
      t.jrnl.accepted = s.jrnl.accepted + e.nlb1 + 1 ∧ t.map = s.map ∧ t.media = s.media ∧ t.cmds = s.cmds ∧ t.hx = s.hx)) ∧
  (∀ (s : State) (e : Extent), extBy s e.id = some e → readyToAdmit s e = true → admitRoom s = false →
    Does (.intentAdmit e.id true) s (fun t => ReportsOnly s t)) ∧
  (∀ (s : State) (e : Extent) (c : HostCmd), extBy s e.id = some e → readyToAdmit s e = true → e.origin = .host c.key → cmdBy s c.key = some c →
      c.live = true → powerFails s = false → ReadsSettled s →
    Does (.intentAdmit e.id false) s (fun t => .cqe c.port c.sq c.cid 0 4 0 ∈ t.out ∧ Shows t (hostGroup c.port) 7 ∧ extBy t e.id = none ∧
      (∀ d ∈ t.cmds, d.key ≠ c.key) ∧ t.map = s.map ∧ t.media = s.media))

/-- A record becomes durable (05 R131, R132; 01 R27): the horizon moves to the next record and only then are the tokens of an INTENT journaled, a
reservation or a protection in force, and a waiting command completed; during a flush the extent joins the spill (02 R58). Checkpoints, carry-forward
and the audit (05 R135 to R137, R150): a checkpoint begins for the trigger that waits and ends with CKPT_END once no erase or program of its units is
left; the live records of the other half are copied at the head, and the half is free once the last copy is durable, or at once where there is none;
an imbalance is DANGER 4.20. -/
def Obligations.RecordsAndUpkeep : Prop :=
  ((∀ s : State, (∀ r ∈ s.jrnl.recs, r.recno ≠ s.jrnl.horizon + 1) → Does .recordDurable s (fun t => t = s)) ∧
  (∀ (s : State) (r : JRec) (e : Extent) (n sl nlb x : Nat) (m : Mode) (l : Nat) (k : Check) (st : Nat), 3 ≤ s.jrnl.state →
      s.jrnl.recs.find? (fun r => r.recno = s.jrnl.horizon + 1) = some r → r.body = .intent n sl nlb x m l k st →
      s.exts.find? (fun e => e.recno = some r.recno && !e.durable) = some e → e.mode.dealloc = false →
      (∃ p l t, e.origin = .mirror p l t) → FusedBegun s →
    (s.flush = none →
      Does .recordDurable s (fun t => t.jrnl.horizon = s.jrnl.horizon + 1 ∧ ∃ d ∈ t.exts, d.id = e.id ∧ d.durable = true ∧
        ∀ i (h : i < e.blks.length), (e.blks[i]).tok = .filling → (d.blks[i]?).map (fun b => b.tok) = some .journaled)) ∧
    (∀ f, s.flush = some f → f.sealing = false → spillable (journaled e) = true →
      Does .recordDurable s (fun t => t.jrnl.horizon = s.jrnl.horizon + 1 ∧ ∃ g, t.flush = some g ∧ e.id ∈ g.toSpill))) ∧
  (∀ (s : State) (r : JRec) (n : Nat) (id : BitVec 128) (key : BitVec 64) (rt : Nat), 3 ≤ s.jrnl.state →
      s.jrnl.recs.find? (fun r => r.recno = s.jrnl.horizon + 1) = some r → r.carried = false → (∀ g ∈ s.map.spills, g.dirty = false) →
    (r.body = .reservation n id key 0 0 →
      Does .recordDurable s (fun t => t.jrnl.horizon = s.jrnl.horizon + 1 ∧
        t.resv = s.resv.filter (fun x => !(x.nsid = n && x.hostId = id)) ++ [{ nsid := n, hostId := id, key := key }] ∧ t.hold = s.hold ∧ t.map = s.map)) ∧
    (r.body = .reservation n id key rt 2 →
      Does .recordDurable s (fun t => t.jrnl.horizon = s.jrnl.horizon + 1 ∧
        t.hold = s.hold.filter (fun x => x.nsid ≠ n) ++ [{ nsid := n, hostId := id, rtype := rt }] ∧ t.resv = s.resv ∧ t.map = s.map))) ∧
  (∀ (s : State) (r : JRec) (n : Nat) (c : HostCmd), 3 ≤ s.jrnl.state → s.jrnl.recs.find? (fun r => r.recno = s.jrnl.horizon + 1) = some r →
      r.body = .nsState n 1 → r.carried = false → (∀ q ∈ s.jrnl.recs, q.recno ≤ r.recno) → s.jrnl.waiting = [] →
      (∀ g ∈ s.map.spills, g.dirty = false) → c ∈ s.cmds → c.waitRec = some r.recno → c.live = true → cmdDw0 c = 0 →
      powerFails s = false →
    Does .recordDurable s (fun t => kvGet t.hx.wprot n = some 1 ∧ .cqe c.port c.sq c.cid 0 0 0 ∈ t.out ∧ t.map = s.map))) ∧
  ((∀ (s : State) (reason : Nat), s.jrnl.trigger = some reason → s.jrnl.runNum = none → s.jrnl.state = 4 → s.map.state = 3 → s.safe.stopper = false →
      (∀ p ∈ s.braid.splices, p.phase ≠ .switch) →
    Does (.checkpointBegin reason) s (fun t => t.jrnl.runNum = some (s.jrnl.ckptNum + 1) ∧ t.jrnl.accepted = 0 ∧
      (∃ r ∈ t.jrnl.recs ++ t.jrnl.waiting, r.body = .ckptBegin (s.jrnl.ckptNum + 1) reason s.jrnl.accepted ∧ r.gseq = s.hx.gseq) ∧
      t.map = s.map ∧ t.media = s.media ∧ t.exts = s.exts ∧ t.cmds = s.cmds)) ∧
  (∀ (s : State) (num : Nat) (im : Image), s.jrnl.runNum = some num → s.media.work = some im → im.num = num → s.jrnl.state = 4 →
      (∀ u ∈ im.units, unitWorks s u = false) →
    Does .checkpointEnd s (fun t => t.jrnl.runNum = none ∧ t.jrnl.ckptNum = s.jrnl.ckptNum ∧
      (∃ r ∈ t.jrnl.recs ++ t.jrnl.waiting, ∃ root, r.body = .ckptEnd num root 11 s.jrnl.runBegin s.jrnl.runPages) ∧
      t.map = s.map ∧ t.media = s.media ∧ t.exts = s.exts)) ∧
  (∀ s : State, s.jrnl.carryDue = true → s.jrnl.state = 4 → s.safe.stopper = false →
    let rs := s.jrnl.recs.filter (fun r => decide (halfOf r.recno ≠ activeHalf s) && isLive s r && lastCopy s r)
    (rs = [] → s.jrnl.waiting = [] → Does .carryForward s (fun t => t = { s with jrnl := { s.jrnl with otherFree := true, carryDue := false } })) ∧
    (rs ≠ [] → rs.length ≤ Config.halfSlots →
      Does .carryForward s (fun t => t.jrnl.carryDue = false ∧ t.jrnl.carryTo.isSome = true ∧ (s.jrnl.otherFree = false → t.jrnl.otherFree = false) ∧
        (∀ r ∈ rs, ∃ q, (q ∈ t.jrnl.recs ∧ s.jrnl.next ≤ q.recno ∨ q ∈ t.jrnl.waiting) ∧ q.carried = true ∧ q.gseq = r.gseq ∧ (q.body = r.body ∨
          ∃ n sl nlb c c1 c2 x secs, r.body = .deferred n sl nlb c c1 c2 x secs ∧ ∃ u1 u2, q.body = .deferred n sl nlb c u1 u2 x secs)) ∧
        t.map = s.map ∧ t.media = s.media ∧ t.exts = s.exts ∧ t.jrnl.horizon = s.jrnl.horizon))) ∧
  (∀ (s : State) (r : JRec), 3 ≤ s.jrnl.state → s.jrnl.recs.find? (fun r => r.recno = s.jrnl.horizon + 1) = some r → r.carried = true →
      s.jrnl.carryTo = some r.recno → s.jrnl.waiting = [] → s.exts = [] → s.cmds = [] → s.flush = none → s.braid.splices = [] → s.braid.owed = [] →
      (∀ g ∈ s.map.spills, g.dirty = false) →
    Does .recordDurable s (fun t => t.jrnl = { s.jrnl with horizon := r.recno, otherFree := true, carryTo := none } ∧ t.map = s.map)) ∧
  (∀ (s : State) (q : Nat), q < 6 → s.safe.stopper = false →
    Does (.auditImbalanceTimeout q) s (fun t => Shows t 4 20 ∧ t.safe.stopper = true ∧ t.safe.group = 4 ∧ t.safe.bit = 20 ∧ t.safe.detail = q ∧
      bit t.jrnl.audFault q = true)))

/-- Placement and programs (06 R160, R174, R179; 01 R27): with 16 free sets or fewer the extent waits; a full hank is placed in one run of a hank
slot, block by block; a successful program of a set's page puts it on the medium and advances its tokens; a failed one closes its set for evacuation, and the
extents whose blocks it carried are to be placed again. -/
def Obligations.PlacementAndPrograms : Prop :=
  (∀ (s : State) (e : Extent) (close : Bool) (src : RelocReads), extBy s e.id = some e → mayPlace s e = true → freeSets s ≤ 16 →
    Does (.extentPlacement e.id close true src) s (fun t => ReportsOnly s t)) ∧
  (∀ (s : State) (e : Extent) (src : RelocReads) (mode role i b : Nat) (pool : Bool) (s1 : State), extBy s e.id = some e → mayPlace s e = true →
      16 < freeSets s → e.zero = false → e.nlb1 = 31 → e.blks.length = 32 → hankDest (warm (hankOf s e.nsid e.slba) s) 32 = (mode, role, pool) →
      takeRun mode role e.layout 32 true pool false (warm (hankOf s e.nsid e.slba) s) = some (i, b, s1) →
    Does (.extentPlacement e.id false true src) s (fun t => ∃ d, extBy t e.id = some d ∧ d.gseq = e.gseq ∧
      ∀ k, k < 32 → (d.blks[k]?).bind (fun x => x.place) = some { set := i, block := b + k })) ∧
  (∀ (s : State) (p : Prog) (n : NandUnit), s.media.progs.find? (fun q => q.id = p.id) = some p → running p.run = true → p.header = none →
      p.set ≠ Config.noSet → nandUnit s p.unit = some n →
    Does (.programStatus p.id { result := true, rbHigh := false } true) s (fun t => (∀ q ∈ t.media.progs, q.id ≠ p.id) ∧
      (∃ m, nandUnit t p.unit = some m ∧ kvGet m.pages (p.row + 1) = some p.slots ∧ m.header = n.header) ∧
      (∀ x k, .ext x k ∈ p.items → ∀ d, extBy t x = some d → ∀ y, d.blks[k]? = some y → y.ok = true) ∧
      t.map = s.map ∧ t.cfg = s.cfg)) ∧
  (∀ (s : State) (p : Prog) (e : SetE), s.media.progs.find? (fun q => q.id = p.id) = some p → running p.run = true → p.header = none →
      p.set ≠ Config.noSet → setBy s p.set = some e → e.state = 1 →
    Does (.programStatus p.id { result := false, rbHigh := false } true) s (fun t => p.set ∈ t.map.evac ∧ t.media.nand = s.media.nand ∧
      (∃ d, setBy t p.set = some d ∧ d.state = 2 ∧ d.row = [] ∧ p.unit ∈ d.failed ∧ d.closeGseq = s.hx.gseq) ∧
      (∀ x k, .ext x k ∈ p.items → ∀ d, extBy t x = some d → ∀ y ∈ d.blks, y.place = none ∧ y.ok = false)))

/-- Page reads (01 R30, R32, R33; 07 R204 to R207): a codeword that converges gives the host its block; one that does not climbs the ladder; a soft
decode schedules a rewrite and raises NOTICE 8.1; a block that no source gives ends the Read with 2h/81h. -/
def Obligations.PageReads : Prop :=
  ∀ (s : State) (r : NRead) (w : Want) (c : HostCmd) (k : Slot), s.media.reads.find? (fun x => x.rid = r.rid) = some r → r.wants = [w] →
      r.left = [w.slot] → w.reader = .cmd c.key → w.idx = 0 → cmdBy s c.key = some c → (∀ d ∈ s.cmds, d.key = c.key → d = c) → c.kind = .read →
      c.found = [.waiting] → c.live = true → pageSlot s r w.slot = some k → powerFails s = false → unitUsable s r.unit = true → r.issued = true →
    let given (t : State) := .blocks c.port c.sq c.cid [hostBlk s c.nsid k.blk] ∈ t.out ∧ .cqe c.port c.sq c.cid 0 0 0 ∈ t.out ∧
      (∀ x ∈ t.media.reads, x.rid ≠ r.rid) ∧ (∀ d ∈ t.cmds, d.key ≠ c.key) ∧ (∀ d ∈ t.exts, ∃ e ∈ s.exts, d = { e with blks := d.blks }) ∧
      t.media.nand = s.media.nand
    FusedWait s → FusedBegun s →
    (k.lost = false → r.level = 0 → ∀ bits row,
      Does (.nandReadComplete r.rid { result := [.converged bits], rbHigh := false } row) s (fun t => given t ∧ t.media.hardOk = min (s.media.hardOk + 1) (2 ^ 32 - 1) ∧
        (4 * bits ≤ 3 * hardCap s → t.jrnl = s.jrnl ∧ t.map.rewrites = s.map.rewrites))) ∧
    (r.level = 0 → ∀ row,
      Does (.nandReadComplete r.rid { result := [.failed], rbHigh := false } row) s (fun t => (∃ x ∈ t.media.reads, x.rid = r.rid ∧ x.level = 1 ∧ x.left = [w.slot]) ∧
        c ∈ t.cmds ∧ t.media.nand = s.media.nand)) ∧
    (k.lost = false → 1 ≤ r.level → ∀ row,
      Does (.softDecodeDone r.rid [] [] row) s (fun t => given t ∧
        (r.level = 1 → t.media.soft1 = min (s.media.soft1 + 1) (2 ^ 32 - 1)) ∧
        (r.softBad = false → ((∃ x ∈ t.map.rewrites, x.1 = r.unit) ∨ Config.rewriteMax ≤ s.map.rewrites.length)))) ∧
    (r.level = 3 → (nsLayout s k.nsid).cross = 0 → s.safe.stopper = false →
      Does (.softDecodeDone r.rid [w.slot] [] []) s (fun t => .cqe c.port c.sq c.cid 2 0x81 0 ∈ t.out ∧ Shows t 8 4 ∧ Shows t (hostGroup c.port) 6 ∧
        t.media.unrecovered = min (s.media.unrecovered + 1) (2 ^ 32 - 1) ∧ t.media.nand = s.media.nand))

/-- The scan and the survey (05 R143, R144): every passing record is kept, the next number and the next write sequence lie above all of them; torn
head records are dropped with NOTICE 4.5, a failing slot elsewhere is DANGER 4.21; the index holds readable blocks of the medium only. Replay and the
loading of the map (05 R145, R147; 06 R184, R185): with nothing open the journal runs after its START record; a buffered block found nowhere is
reported by a DEFERRED record; a restart goes back to the scan; unreadable map pages are DANGER 4.22; the map is the checkpoint's where no delta
follows it. -/
def Obligations.ScanReplayAndLoad : Prop :=
  ((∀ s : State, s.jrnl.state = 0 → s.pwr.railsOk = true → s.safe.stopper = false →
    Does (.journalScan []) s (fun t => t.jrnl.state = 1 ∧ t.jrnl.scanned = true ∧ t.jrnl.recs = s.jrnl.recs ∧ t.jrnl.horizon + 1 = t.jrnl.next ∧
      (∀ r ∈ s.jrnl.recs, r.recno < t.jrnl.next) ∧
      (∀ r ∈ s.jrnl.recs, ∀ n sl nlb x m l k st, r.body = .intent n sl nlb x m l k st → r.gseq < t.hx.gseq) ∧
      t.map = s.map ∧ t.media = s.media ∧ t.cfg = s.cfg ∧ t.exts = s.exts)) ∧
  (∀ (s : State) (f : Nat), s.jrnl.state = 0 → s.pwr.railsOk = true → s.safe.stopper = false →
    (tornSlots (highestPass s [f]) [f] = [f] →
      Does (.journalScan [f]) s (fun t => Shows t 4 5 ∧ t.safe = s.safe ∧ t.jrnl.horizon = slotNumber (highestPass s [f]) f - 1 ∧
        ∀ r ∈ t.jrnl.recs, slotOf r.recno ≠ f ∧ r.recno < slotNumber (highestPass s [f]) f)) ∧
    (tornSlots (highestPass s [f]) [f] = [] →
      Does (.journalScan [f]) s (fun t => Shows t 4 21 ∧ t.safe.stopper = true ∧ t.safe.group = 4 ∧ t.safe.bit = 21))) ∧
  (∀ (s : State) (unreadable : List (Nat × Nat)), maySurvey s = true → s.safe.stopper = false →
    Does (.survey unreadable) s (fun t => t = { s with jrnl := { s.jrnl with state := 2, surveyed := true, index := t.jrnl.index } } ∧
      ∀ p ∈ t.jrnl.index, ∃ u ∈ s.media.nand, ∃ pg ∈ u.pages, ∃ k ∈ pg.2, (u.addr, pg.1) ∉ unreadable ∧ k.lost = false ∧ k.nsid = p.nsid ∧
        k.lba = p.lba ∧ k.gseq = p.gseq ∧ k.spill = p.spill))) ∧
  ((∀ s : State, mayReplay s = true →
    Does (.replay true) s (fun t => t.jrnl.state = 0 ∧ t.jrnl.scanned = false ∧ t.aon.replayRestarts = min (s.aon.replayRestarts + 1) 255 ∧ Shows t 4 2 ∧
      t.jrnl.recs = s.jrnl.recs ∧ t.map = s.map)) ∧
  (∀ s : State, mayReplay s = true → openIntents s = [] → s.map.state = 0 → NoneSpilled s →
    Does (.replay false) s (fun t => t.jrnl.state = 4 ∧ Shows t 4 0 ∧ t.jrnl.deferred = s.jrnl.deferred ∧ t.exts = s.exts ∧ t.media.nand = s.media.nand ∧
      ∃ r ∈ t.jrnl.recs ++ t.jrnl.waiting, r.body =
        .start s.dev.powerOn s.boot.genUsed s.jrnl.redriven s.jrnl.skipped s.jrnl.deferred s.jrnl.abandoned s.dev.secs)) ∧
  (∀ (s : State) (r : JRec) (n sl x l st : Nat) (m : Mode) (k : Check), mayReplay s = true → openIntents s = [r] → s.map.state = 0 → NoneSpilled s →
      r.body = .intent n sl 0 x m l k st → m.dealloc = false → uncovered s n r.gseq sl 0 = [0] → sourceOf s n r.gseq sl = .none →
      (∀ q ∈ s.jrnl.recs, ∀ n id key t, q.body ≠ .reservation n id key t 0) →
    (m.buffered = true →
      Does (.replay false) s (fun t => t.jrnl.state = 4 ∧ t.jrnl.deferred = min (s.jrnl.deferred + 1) (2 ^ 32 - 1) ∧
        (∃ q ∈ t.jrnl.recs ++ t.jrnl.waiting, q.gseq = r.gseq ∧ q.body = .deferred n sl 1 (replayCause s) true (dualPort s) x s.dev.secs) ∧
        (∃ q ∈ t.jrnl.recs ++ t.jrnl.waiting, q.gseq = r.gseq ∧ q.replayed = true ∧ q.body = .completion n sl 0 x .lost 0 l none))) ∧
    (m.buffered = false →
      Does (.replay false) s (fun t => t.jrnl.state = 4 ∧ t.jrnl.abandoned = min (s.jrnl.abandoned + 1) (2 ^ 32 - 1) ∧ t.jrnl.deferred = s.jrnl.deferred ∧
        Shows t 4 6 ∧ ∃ q ∈ t.jrnl.recs ++ t.jrnl.waiting, q.gseq = r.gseq ∧ q.replayed = true ∧ q.body = .completion n sl 0 x .abandoned 0 l none))) ∧
  (∀ (s : State) (hs : List (Nat × HeaderRead)) (bad : Nat), mayLoad s = true →
    (0 < bad → Does (.mapLoad hs bad) s (fun t => Shows t 4 22 ∧ t.safe.stopper = true)) ∧
    (s.jrnl.state ≠ 4 → deltaRecs s = [] →
        (∀ x ∈ (match imageOf s with | some i => i.hanks | none => s.map.hanks), ∀ bs, x.2 ≠ .moving bs) →
      Does (.mapLoad hs 0) s (fun t => t.map.state = 2 ∧ t.boot.phase = max s.boot.phase 8 ∧
        t.map.hanks = (match imageOf s with | some i => i.hanks | none => s.map.hanks) ∧
        t.map.strands = (match imageOf s with | some i => i.strands | none => s.map.strands) ∧
        (∀ i, imageOf s = some i → t.media.levels = i.levels) ∧ t.jrnl = s.jrnl ∧ t.media.nand = s.media.nand)) ∧
    (s.jrnl.state = 4 → Does (.mapLoad hs 0) s (fun t => t.map.state = 3 ∧ Shows t 5 0))))

/-- Motur's own work (06 R157, R164, R166, R171, R173, R180; 10 R279): a sweep writes the decayed counter back; folding, collection, rewrites and
rebuild copy blocks and leave every entry of the map as it is, which changes only when the records of the copies are durable; a rewrite is closed by its
record once the map names no block of the unit any more. -/
def Obligations.MoturWork : Prop :=
  (∀ (s : State) (hank : Nat) (src : RelocReads), mayWork s = true →
    Does (.heatSweep hank src) s (fun t => t.map.hanks = s.map.hanks ∧ t.map.strands = s.map.strands ∧
      (demotable s hank = false → (∀ bs, kvGet s.map.hanks hank ≠ some (.moving bs)) → t = { s with map := { s.map with heat := t.map.heat } } ∧
        kvGet t.map.heat hank = if heat s hank = 0 then none else some (heat s hank, epoch s % 8)))) ∧
  (∀ (s : State) (src : RelocReads), mayWork s = true →
    Does (.fold src) s (fun t => t.map.hanks = s.map.hanks ∧ t.map.strands = s.map.strands ∧
      (foldDue s = false → t = { s with map := { s.map with folding := false } }) ∧
      (foldDue s = true → ∀ e, argMin (fun e => e.closeGseq) (s.map.sets.filter (fun e => e.mode = 0 && e.state = 2 && validOf s e.idx > 0)) = some e →
        t.map.folding = true))) ∧
  (∀ (s : State) (src : RelocReads) (e : SetE), mayWork s = true → rebuildable s = none → (evacSet s).isSome = true ∨ s.map.rewrites = [] →
      collectable s = some e →
    Does (.garbageCollection src) s (fun t => t.map.hanks = s.map.hanks ∧ t.map.strands = s.map.strands ∧
      ∃ d, setBy t e.idx = some d ∧ d.state = 3)) ∧
  (∀ (s : State) (src : RelocReads) (unit cause : Nat) (rest : List (Nat × Nat)), mayWork s = true → rebuildable s = none → evacSet s = none →
      s.map.rewrites = (unit, cause) :: rest →
    Does (.rewrite src) s (fun t => t.map.hanks = s.map.hanks ∧ t.map.strands = s.map.strands ∧
      (blocksIn s (onUnit s unit) = [] → t.map.rewrites = rest ∧ t.media = s.media ∧
        ∃ r ∈ t.jrnl.recs ++ t.jrnl.waiting, r.body = .rewrite unit cause 1) ∧
      (blocksIn s (onUnit s unit) ≠ [] → ∃ l, t.map.rewrites = s.map.rewrites ++ l))) ∧
  (∀ (s : State) (src : RelocReads) (e : SetE), mayWork s = true → rebuildable s = some e →
    Does (.rebuild src) s (fun t => t.map.hanks = s.map.hanks ∧ t.map.strands = s.map.strands ∧
      ∃ d, setBy t e.idx = some d ∧ d.state = 3 ∧ d.rebuild = true))

/-- Erasing a set (06 R175, R178; 05 R132; 08 R216): a set without valid blocks is released by a UNIT record with STATE 4, and an erase is queued for
each of its members that is issued only once that record is durable; an erase that ends raises the unit's PE count, empties it and queues its header, and
one that fails retires the unit with NOTICE 5.4; a header that is programmed makes the unit what it was to become. -/
def Obligations.SetErasure : Prop :=
  (∀ (s : State) (e : SetE), mayWork s = true → setBy s e.idx = some e → mayErase s e = true → e.failed = [] →
      (∀ m ∈ e.members.filterMap id, unitUsable s m = true ∧ has s.media.retired m = false ∧
        ∀ x ∈ s.map.sets, x.idx ≠ e.idx → some m ∉ x.members) → (∃ c, c < 16 ∧ (nth e.members c none).isSome = true) →
    Does (.setErase e.idx) s (fun t => (∃ d, setBy t e.idx = some d ∧ d.state = 4 ∧ d.released = true ∧ d.erased = [] ∧ d.members = e.members) ∧
      (∀ m ∈ e.members.filterMap id, ∃ x ∈ t.media.erases, x.unit = m ∧ x.cell = e.mode ∧ x.use.state = 0 ∧ x.use.role = 6 ∧
        x.after = s.jrnl.next + s.jrnl.waiting.length ∧ (x.run.issued = true → x.after ≤ s.jrnl.horizon)) ∧
      t.media.nand = s.media.nand ∧ t.map.hanks = s.map.hanks ∧
      ∃ r ∈ t.jrnl.recs ++ t.jrnl.waiting, r.body = .unit true e.idx (if e.mode = 0 then 2 else 1) 4)) ∧
  (∀ (s : State) (a : Erase) (x : UnitE), s.media.erases.find? (fun e => e.unit = x.addr && running e.run) = some a → unitBy s x.addr = some x →
      (∀ d ∈ s.map.sets, d.state = 4 → some x.addr ∉ d.members) →
    Does (.eraseStatus x.addr true false) s (fun t => (∃ n, nandUnit t x.addr = some n ∧ n.pages = [] ∧ n.header = none) ∧
      unitBy t x.addr = some { x with pe := min (x.pe + 1) 65535 } ∧ (∀ y ∈ t.media.erases, y.id ≠ a.id) ∧
      (∃ p ∈ t.media.progs, p.unit = x.addr ∧ ∃ h, p.header = some (h, a.use) ∧ h.role = a.use.role ∧ h.pe = min (x.pe + 1) 65535) ∧
      t.map.hanks = s.map.hanks ∧ t.jrnl = s.jrnl) ∧
    Does (.eraseStatus x.addr false false) s (fun t => Shows t 5 4 ∧ unitBy t x.addr = some { x with state := 5 } ∧ x.addr ∈ t.media.retired ∧
      t.media.nand = s.media.nand ∧ t.map.hanks = s.map.hanks)) ∧
  (∀ (s : State) (a : Erase) (x : UnitE) (d : SetE) (c : Nat) (ok : Bool), s.media.erases.find? (fun e => e.unit = x.addr && running e.run) = some a →
      a.use.role = 6 → unitBy s x.addr = some x → s.map.sets.find? (fun e => e.state = 4 && e.members.any (fun m => m = some x.addr)) = some d →
      setBy s d.idx = some d → c < 16 → c ≠ unitCh x.addr → (∃ u, nth d.members c none = some u ∧ unitUsable s u = true) → has d.erased c = false →
    Does (.eraseStatus x.addr ok false) s (fun t => (∃ e, setBy t d.idx = some e ∧ has e.erased (unitCh x.addr) = true ∧ e.state = 4) ∧
      t.map.hanks = s.map.hanks)) ∧
  (∀ (s : State) (p : Prog) (h : Header) (u : UnitUse) (n : NandUnit) (x : UnitE) (metaOk : Bool),
      s.media.progs.find? (fun q => q.id = p.id) = some p → running p.run = true → p.header = some (h, u) → u.role ≠ 3 → nandUnit s p.unit = some n →
      unitBy s p.unit = some x →
    Does (.programStatus p.id { result := true, rbHigh := false } metaOk) s (fun t => (∃ m, nandUnit t p.unit = some m ∧ m.header = some h ∧ m.pages = n.pages) ∧
      unitBy t p.unit = some { x with state := u.state } ∧ t.map.hanks = s.map.hanks ∧ t.jrnl = s.jrnl))

/-- Channel start, training and retraining (07 R190, R191, R210; 03 R86; 16 R428): the group's supply is on, each fitted target whose parameter page
agrees is READY and any other EXCLUDED with ERROR 1.10; the channel runs after a training that passes, and fails after three failures in a row. A
retraining waits until nothing is outstanding on the channel's bus. -/
def Obligations.ChannelStart : Prop :=
  (∀ (s : State) (ch : Nat) (r : ReadTiming) (pg : ParamPage), ch < 16 → (chan s ch).state = 0 → s.prm.geometry.isSome = true → s.pwr.railsOk = true →
      s.ps.state = 0 → s.prm.readTiming = some r → s.prm.writeTiming.isSome = true → s.boot.loading = none → Shaped s →
      nth (geo s).fitted ch 0 = 1 → (tgtOf s ch 0).state = .uninit →
    (paramSame (geo s) pg = true → ∀ fails, fails < 3 →
      Does (.channelStart ch [{ target := 0, page := pg }] fails) s (fun t => (chan t ch).state = 3 ∧ (chan t ch).mode = r.mode ∧
        (chan t ch).trains = min ((chan s ch).trains + fails + 1) 255 ∧ (chan t ch).trainTemp = nandTemp s ch ∧ (tgtOf t ch 0).state = .ready ∧
        (fails ≠ 0 → Shows t (chanGroup ch) (chanBit ch)) ∧ nth t.pins.npwrEn (ch / 4) true = true ∧ t.map = s.map ∧ t.cmds = s.cmds ∧
        (∀ c, c < 16 → c ≠ ch → chan t c = chan s c))) ∧
    (paramSame (geo s) pg = true →
      Does (.channelStart ch [{ target := 0, page := pg }] 3) s (fun t => (chan t ch).state = 4 ∧ (tgtOf t ch 0).state = .failed ∧
        Shows t (chanGroup ch) (chanBit ch + 3))) ∧
    (paramSame (geo s) pg = false →
      Does (.channelStart ch [{ target := 0, page := pg }] 0) s (fun t => (tgtOf t ch 0).state = .excluded ∧ Shows t 1 10))) ∧
  (∀ (s : State) (ch fails : Nat) (x y : Int), ch < 16 → nandTemp s ch = some x → (chan s ch).trainTemp = some y → (chan s ch).state = 3 → fails < 3 →
    (320 ≤ (x - y).natAbs → channelBusy s ch = false →
      Does (.channelRetrain ch fails) s (fun t => (chan t ch).state = 3 ∧ (chan t ch).trainTemp = some x ∧
        (chan t ch).trains = min ((chan s ch).trains + fails + 1) 255 ∧ t.map = s.map ∧ t.cmds = s.cmds)) ∧
    ((x - y).natAbs < 320 ∨ channelBusy s ch = true → Does (.channelRetrain ch fails) s (fun t => t = s)))

/-- Failed targets (07 R199, R208, R209; 16 R428): a busy target that does not end, R/B_N stuck low, and a reset that does not end fail the target with
causes 1, 2 and 3 and ERROR g.(4c′ + 2), and nothing stays outstanding on it; where nothing keeps it busy a busy timeout changes nothing, and R/B_N is
ignored while the supply is off. Suspends (07 R201, R202): an operation that a read waits behind is suspended once it has run its minimum, within its
limit; after 2 ms it is resumed, at once or behind the read that is under way. R/B_N high against a busy status (07 R208): the NOTICE of the channel is raised,
and the end of the operation is what it is from the state with that notice. -/
def Obligations.FailuresAndSuspends : Prop :=
  (∀ (s : State) (ch tgt : Nat) (row : List (Nat × Nat)), ch < 16 → tgt < (chan s ch).targets.length → (tgtOf s ch tgt).fitted = true →
      FusedBegun s →
    let failed (cause : Nat) (t : State) := (tgtOf t ch tgt).state = .failed ∧ Shows t (chanGroup ch) (chanBit ch + 2) ∧
      (tgtOf t ch tgt).cause = cause ∧ (tgtOf t ch tgt).failAt = s.dev.secs ∧ outstanding t ch tgt = false
    ((tgtOf s ch tgt).state = .ready → targetBusy s ch tgt = true → Does (.targetBusyTimeout ch tgt { result := row, rbHigh := false }) s (failed 1)) ∧
    (targetBusy s ch tgt = false → ∀ hi, Does (.targetBusyTimeout ch tgt { result := row, rbHigh := hi }) s (fun t => t = s)) ∧
    ((tgtOf s ch tgt).state = .ready → outstanding s ch tgt = false → (chan s ch).state ≠ 0 → supplied s ch = true →
      Does (.rbLowTimeout ch tgt row) s (failed 2)) ∧
    (outstanding s ch tgt = true ∨ supplied s ch = false → Does (.rbLowTimeout ch tgt row) s (fun t => t = s)) ∧
    ((tgtOf s ch tgt).state = .uninit → (chan s ch).state = 1 → s.boot.loading = none → Does (.resetReadyTimeout ch tgt) s (failed 3))) ∧
  ((∀ (s : State) (ch tgt : Nat), ch < 16 → supplied s ch = true →
    ReportsOnly s (rbDisagrees true ch tgt s) ∧ Shows (rbDisagrees true ch tgt s) (chanGroup ch) (chanBit ch + 1)) ∧
  (∀ (s : State) (ch tgt : Nat) (row : List (Nat × Nat)), targetBusy s ch tgt = true →
    exec (.targetBusyTimeout ch tgt { result := row, rbHigh := true }) s =
      exec (.targetBusyTimeout ch tgt { result := row, rbHigh := false }) (rbDisagrees true ch tgt s)) ∧
  (∀ (s : State) (p : Prog) (ok metaOk : Bool), s.media.progs.find? (fun q => q.id = p.id) = some p → running p.run = true →
    exec (.programStatus p.id { result := ok, rbHigh := true } metaOk) s =
      exec (.programStatus p.id { result := ok, rbHigh := false } metaOk) (rbDisagrees true (unitCh p.unit) (unitTgt p.unit) s)) ∧
  (∀ (s : State) (u : Nat) (ok : Bool), (s.media.erases.any (fun e => e.unit = u && running e.run)) = true →
    exec (.eraseStatus u ok true) s = exec (.eraseStatus u ok false) (rbDisagrees true (unitCh u) (unitTgt u) s)) ∧
  (∀ (s : State) (r : NRead) (words : List HardDecode) (row : List Nat), s.media.reads.find? (fun x => x.rid = r.rid) = some r → r.level = 0 →
      r.issued = true → words.length = r.left.length →
    exec (.nandReadComplete r.rid { result := words, rbHigh := true } row) s =
      exec (.nandReadComplete r.rid { result := words, rbHigh := false } row) (rbDisagrees true (unitCh r.unit) (unitTgt r.unit) s))) ∧
  ((∀ (s : State) (die ranUs : Nat), maySuspend s die ranUs = true →
    Does (.suspendComplete die ranUs) s (fun t => t = { s with media := t.media, out := t.out } ∧ t.media.nand = s.media.nand ∧
      runOn t die = (runOn s die).map (fun r => { r with suspends := r.suspends + 1, suspended := true }))) ∧
  (∀ (s : State) (die ranUs : Nat), maySuspend s die ranUs = false → Does (.suspendComplete die ranUs) s (fun t => t = s)) ∧
  (∀ (s : State) (die : Nat), dieHeld s die = true →
    Does (.suspendTimeout die) s (fun t =>
      (dieBusy s die = false → dieOpen s die = true → runOn t die = (runOn s die).map (fun r => { r with suspended := false, overdue := true })) ∧
      (dieBusy s die = true → runOn t die = (runOn s die).map (fun r => { r with overdue := true })) ∧
      t = { s with media := { s.media with erases := t.media.erases, progs := t.media.progs }, out := t.out })) ∧
  (∀ (s : State) (die : Nat), dieHeld s die = false → Does (.suspendTimeout die) s (fun t => t = s)))

/-- Read-level calibration (07 R212 to R214): a fid is asked for when due or by a host; a density outside 40.0 % to 60.0 % aborts it with NOTICE 8.9
and bars it for an hour; a sweep that ends at its edge is rejected and the levels stay; an accepted one puts its levels in force with INFO 8.0. The 10
ms window (06 R172; within a window times are not modelled, log entry 30): without an outstanding host command the idle time grows to 100 ms, and a
target whose R/B_N has read high while it is busy raises its NOTICE (07 R208). -/
def Obligations.CalibrationAndIdle : Prop :=
  ((∀ (s : State) (die bucket t0 : Nat) (r : ReadLevels), s.prm.readLevels = some r → kvGet s.media.fidAt (fidKey die bucket) = some t0 →
      t0 + 86400 * r.fidDays ≤ s.dev.secs → (fidSample s die bucket).isSome = true →
    Does (.fidDue die bucket) s (fun t => (die, bucket) ∈ t.media.fidWant ∧ t = { s with media := { s.media with fidWant := t.media.fidWant } })) ∧
  (∀ (s : State) (p : Port) (v : Word), bar2Open s p = true → v.getLsbD 31 = true →
    Does (.fidReq p v) s (fun t => (v.toNat % 512, v.toNat / 512 % 8) ∈ t.media.fidWant ∧ t = { s with media := { s.media with fidWant := t.media.fidWant } })) ∧
  (∀ (s : State) (die bucket u : Nat) (r : FidRun) (rl : ReadLevels) (e : SetE), (die, bucket) ∈ s.media.fidWant → fidBarred s die bucket = false → s.map.state = 3 →
      s.safe.stopper = false → dieIdle s die = true → s.prm.readLevels = some rl → fidSample s die bucket = some (u, e) →
    let ended (b : Nat) (t : State) := (die, bucket) ∉ t.media.fidWant ∧ kvGet t.media.fidAt (fidKey die bucket) = some s.dev.secs ∧ Shows t 8 b ∧
      t.map = s.map ∧ t.media.nand = s.media.nand ∧ t.exts = s.exts
    (∀ d, badDensity r.density = some d →
      Does (.fid die bucket r) s (fun t => ended 9 t ∧ t.media.levels = s.media.levels ∧ t.media.fidLast = 2 ∧
        kvGet t.media.fidBar (fidKey die bucket) = some s.dev.secs)) ∧
    (badDensity r.density = none →
      (proposed rl.sweep rl.sweepStep (levelsOf s die bucket) (levelsUsed s (slcUnit s u)) r.sweep = none →
        Does (.fid die bucket r) s (fun t => ended 10 t ∧ t.media.levels = s.media.levels ∧ t.media.fidLast = 3)) ∧
      (∀ l, proposed rl.sweep rl.sweepStep (levelsOf s die bucket) (levelsUsed s (slcUnit s u)) r.sweep = some l →
        (fidBetter r = true → Does (.fid die bucket r) s (fun t => ended 0 t ∧ levelsOf t die bucket = l ∧ t.media.fidLast = 1)) ∧
        (fidBetter r = false → Does (.fid die bucket r) s (fun t => ended 10 t ∧ t.media.levels = s.media.levels ∧ t.media.fidLast = 3)))))) ∧
  (∀ s : State,
    let idle : State := { s with map := { s.map with gcMs := if s.cmds = [] then min 100 (s.map.gcMs + 10) else 0 } }
    Does .window10ms s (fun t => t = idle))

/-- Acknowledgements (09 R240, R249 to R252, R256): an ACK or NAK frees the entries it covers and keeps the others in order; a NAK or an expired timer
sends what is left again from the oldest entry, and after 8 replays without progress, or for an ACK outside the window, the link is reset; ACK frames
carry the last sequence. Frames that are not accepted (09 R237, R240, R246, R248): foreign, badly formed and unknown ones are counted, a frame ahead
or with a bad trailer is answered by one NAK for each expected sequence, a duplicate by an ACK, and one beyond its credit resets the link. -/
def Obligations.LinkAcksAndRefusals : Prop :=
  ((∀ (s : State) (f : Sys2Proof.Frm) (k : Link), linkBy s f.port f.link = some k → framesFlow s = true → carries k = true →
    let reset (t : State) := ∃ k', linkBy t f.port f.link = some k' ∧ k'.state = .handshake ∧ k'.sent = k.sent ∧ k'.held = k.held ∧
      Shows t (peerGroup f.port) 2 ∧ Shows t (peerGroup f.port) 12 ∧ t.map = s.map ∧ t.media = s.media ∧ t.exts = s.exts
    let left := k.sent.drop (ackCovers k f.ack)
    (ackInWindow k f.ack = false → Does (.ack f) s reset ∧ Does (.nak f) s reset) ∧
    (ackInWindow k f.ack = true →
      Does (.ack f) s (fun t => ∃ k' new, linkBy t f.port f.link = some k' ∧ k'.sent.map (fun e => e.seq) = left.map (fun e => e.seq) ++ new ∧
        k'.state = k.state ∧ k'.expect = k.expect ∧ k'.replays = k.replays ∧ t.map = s.map ∧ t.media = s.media ∧
        (∀ p l, (p, l) ≠ (f.port, f.link) → linkBy t p l = linkBy s p l)) ∧
      (∀ e rest, left = e :: rest → k.state = .up → k.stopTx = false → k.noGain < 8 → k.resentTo ≠ some (f.ack + 1#24) →
        Does (.nak f) s (fun t => ∃ k' new, linkBy t f.port f.link = some k' ∧ k'.sent.map (fun e => e.seq) = left.map (fun e => e.seq) ++ new ∧
          k'.replays = inc 32 k.replays ∧ k'.resentTo = some e.seq ∧ t.map = s.map ∧ t.media = s.media ∧
          (∀ x ∈ left, x.due = false → ∃ a g, Out.frame f.port f.link a g (.data x.seq true x.vc x.msg) ∈ t.out))))) ∧
  (∀ (s : State) (p : Port) (l : Nat) (k : Link) (e : Sent), linkBy s p l = some k → framesFlow s = true → k.state = .up → k.stopTx = false → k.sent.head? = some e →
    (k.noGain < 8 → Does (.ackTimeout p l) s (fun t => ∃ k', linkBy t p l = some k' ∧ k'.sent.map (fun e => e.seq) = k.sent.map (fun e => e.seq) ∧
      k'.replays = inc 32 k.replays ∧ k'.noGain = k.noGain + 1 ∧ k'.resentTo = some e.seq ∧
      (∀ x ∈ k.sent, x.due = false → ∃ a g, Out.frame p l a g (.data x.seq true x.vc x.msg) ∈ t.out))) ∧
    (8 ≤ k.noGain → Does (.ackTimeout p l) s (fun t => ∃ k', linkBy t p l = some k' ∧ k'.state = .handshake ∧ k'.sent = k.sent ∧
      Shows t (peerGroup p) 1 ∧ Shows t (peerGroup p) 2))) ∧
  (∀ (s : State) (p : Port) (l : Nat) (k : Link), linkBy s p l = some k → framesFlow s = true → carries k = true →
    let acked (t : State) := t = { s with peer := t.peer, out := .frame p l (k.expect - 1#24) (grantField k) .ack :: s.out } ∧
      linkBy t p l = some { k with unacked := 0 } ∧ (∀ q m, (q, m) ≠ (p, l) → linkBy t q m = linkBy s q m)
    Does (.keepaliveTimer p l) s acked ∧
    (s.safe.stopper = false → 0 < k.unacked → Does (.ackDelayExpiry p l) s acked) ∧
    (k.unacked = 0 → Does (.ackDelayExpiry p l) s (fun t => t = s)))) ∧
  (∀ (s : State) (f : Sys2Proof.Frm), framesFlow s = true →
    let counted (t : State) := (t.peer.get f.port).discard = inc 32 (s.peer.get f.port).discard ∧ (t.peer.get f.port).links = (s.peer.get f.port).links ∧
      t = { s with peer := t.peer, evt := t.evt, ctl := t.ctl, out := t.out, fresh := t.fresh }
    Does (.frameDiscarded f .unknownType) s counted ∧
    (∀ why ∈ [Discard.ethertype, .vlan, .destination, .source, .tooLong, .lenBeyond, .version],
      (hears s f.port = true → Does (.frameDiscarded f why) s (fun t => counted t ∧ Shows t (peerGroup f.port) 5)) ∧
      (hears s f.port = false → Does (.frameDiscarded f why) s (fun t => t = s))) ∧
    (∀ len k s1, linkBy s f.port f.link = some k → carries k = true → s.safe.stopper = false → f.seq = k.expect → takeAck f s = some s1 →
        creditNeed len ≤ (k.vcs[2]).room →
      Does (.frameDiscarded f (.unknownOp len)) s (fun t => (t.peer.get f.port).discard = inc 32 (s.peer.get f.port).discard ∧
        (∃ k', linkBy t f.port f.link = some k' ∧ k'.expect = k.expect + 1#24 ∧ k'.nakFor = none ∧ (k'.vcs[2]).given = (k.vcs[2]).given + creditNeed len) ∧
        t = { s1 with peer := t.peer, out := t.out })) ∧
    (∀ k, linkBy s f.port f.link = some k → carries k = true → s.safe.stopper = false →
      (∀ why ∈ [Discard.trailer, .ahead],
        (k.nakFor ≠ some k.expect → Does (.frameDiscarded f why) s (fun t =>
          t = { s with peer := t.peer, out := .frame f.port f.link (k.expect - 1#24) (grantField k) .nak :: s.out } ∧
          linkBy t f.port f.link = some { k with nakFor := some k.expect, unacked := 0 })) ∧
        (k.nakFor = some k.expect → Does (.frameDiscarded f why) s (fun t => t = s))) ∧
      Does (.frameDiscarded f .behind) s (fun t =>
        t = { s with peer := t.peer, out := .frame f.port f.link (k.expect - 1#24) (grantField k) .ack :: s.out } ∧
        linkBy t f.port f.link = some { k with unacked := 0 }) ∧
      Does (.frameDiscarded f .overrun) s (fun t => ∃ k', linkBy t f.port f.link = some k' ∧ k'.state = .handshake ∧ k'.sent = k.sent ∧
        Shows t (peerGroup f.port) 2 ∧ Shows t (peerGroup f.port) 12)))

/-- The handshake (09 R253 to R256, R258): HELLO is sent by its timer; an unlisted node is ignored; a listed node's HELLO is answered by a HELLO_ACK
with the point it leads to, and HELLO_ACK sets the expected sequence; with both the link is UP on the opening grant; past the limit a lone link trains
again. -/
def Obligations.LinkHandshake : Prop :=
  ∀ (s : State) (p : Port), framesFlow s = true → s.safe.stopper = false → s.braid.asks = [] →
    (∀ l k, linkBy s p l = some k → k.state = .handshake →
      Does (.helloTimer p l) s (fun t => t = { s with out := .frame p l 0#24 [0, 0, 0, 0] (.hello (helloOf s k 0#24)) :: s.out })) ∧
    (∀ l h, linkOfNode s p h.nodeId = none → Does (.hello p l h) s (ReportsOnly s) ∧ Does (.helloAck p l h) s (ReportsOnly s)) ∧
    (∀ x l h k, linkOfNode s p h.nodeId = some l → linkBy s p l = some k → k.state = .handshake →
      (k.ackRcvd = false → Does (.hello p x h) s (fun t => ∃ k', linkBy t p l = some k' ∧ k'.state = .handshake ∧ k'.ackSent = true ∧
        k'.sent = k.sent.drop (resumeAt k h - txOldest k).toNat ∧ k'.peerStart = some h.startId ∧
        (∃ y, Out.frame p l 0#24 [0, 0, 0, 0] (.helloAck y) ∈ t.out ∧ y.resume = resumeAt k h) ∧ t = { s with peer := t.peer, out := t.out })) ∧
      (k.ackSent = false → Does (.helloAck p x h) s (fun t => ∃ k', linkBy t p l = some k' ∧ k'.state = .handshake ∧ k'.ackRcvd = true ∧
        k'.expect = h.resume ∧ k'.sent = k.sent ∧ t = { s with peer := t.peer })) ∧
      (k.ackRcvd = true → Does (.hello p x h) s (fun t => ∃ k', linkBy t p l = some k' ∧ k'.state = .up ∧ k'.expect = k.expect ∧ Shows t (peerGroup p) 0)) ∧
      (k.ackSent = true → Does (.helloAck p x h) s (fun t => ∃ k', linkBy t p l = some k' ∧ k'.state = .up ∧ k'.expect = h.resume ∧ Shows t (peerGroup p) 0))) ∧
    (∀ l k, linkBy s p l = some k → k.state = .handshake →
      ((s.peer.get p).links.length = 1 → Does (.handshakeTimeout p l) s (fun t => (t.peer.get p).phy = 1 ∧ ∃ k', linkBy t p l = some k' ∧ k'.state = .training ∧ k'.sent = k.sent)) ∧
      ((s.peer.get p).links.length ≠ 1 → Does (.handshakeTimeout p l) s (fun t => linkBy t p l = some { k with late := true } ∧ t = { s with peer := t.peer }))) ∧
    (∀ l k, linkBy s p l = some k → k.state = .up → Does (.livenessLost p l) s (fun t => ∃ k', linkBy t p l = some k' ∧ k'.state = .handshake ∧ k'.sent = k.sent ∧
      k'.expect = k.expect ∧ Shows t (peerGroup p) 1))

/-- PHY and wake bursts (09 R234, R255, R256, R262 to R264): a port that comes up starts the handshake on its links and one that loses its PHY trains
again; bursts go to direct peers whose tied-off links hold traffic; a pattern heard while running, and energy heard while not asleep, only count. -/
def Obligations.PhyAndBursts : Prop :=
  ∀ (s : State) (p : Port),
    (∀ slow, (s.peer.get p).phy = 1 → portEnabled s p = true → s.ps.state ≤ 1 → s.boot.hostReady = true → s.safe.stopper = false →
        (slow = true → ∃ x, s.prm.peer = some x ∧ x.slowOk = true) →
      Does (.phyUp p slow) s (fun t => (t.peer.get p).phy = 2 ∧ (t.peer.get p).slow = slow ∧ (t.peer.get p).trains = inc 16 (s.peer.get p).trains ∧
        (∀ k ∈ (t.peer.get p).links, k.state = .handshake ∨ k.state = .disabled) ∧ (slow = true → Shows t (peerGroup p) 6) ∧
        t = { s with peer := t.peer, evt := t.evt, ctl := t.ctl, out := t.out, fresh := t.fresh })) ∧
    ((s.peer.get p).phy = 2 → s.braid.asks = [] →
      Does (.phyLost p) s (fun t => (t.peer.get p).phy = 1 ∧ (t.peer.get p).energy = false ∧ ∀ k ∈ (t.peer.get p).links, k.state = .training ∨ k.state = .disabled)) ∧
    (∀ l k, burstsOk s p = true → linkBy s p l = some k → k.state = .training → direct s p k = true → holdsTraffic k = true → k.lastBurst = none →
      Does (.trainingAttemptTimeout p) s (fun t => Out.burst p (wakeAddrOf s k) ∈ t.out ∧ linkBy t p l = some { k with lastBurst := some s.dev.secs } ∧
        Shows t (peerGroup p) 9)) ∧
    (burstsOk s p = false → Does (.trainingAttemptTimeout p) s (fun t => t = s)) ∧
    (∀ v k, bar2Open s p = true → v.getLsbD 31 = true →
      let q := if v.getLsbD 8 then Port.b else Port.a
      (burstsOk s q = true → k ∈ (s.peer.get q).links → direct s q k = true →
        Does (.wakeSend p v) s (fun t => Out.burst q (v.toNat % 256) ∈ t.out ∧ Shows t (peerGroup q) 9 ∧ ReportsOnly (burstSent q (v.toNat % 256) s) t ∧
          ∀ l k', linkBy s q l = some k' → k'.state = .training → direct s q k' = true → wakeAddrOf s k' = v.toNat % 256 →
            linkBy t q l = some { k' with lastBurst := some s.dev.secs })) ∧
      (burstsOk s q = false → Does (.wakeSend p v) s (fun t => t = s))) ∧
    (∀ a c, portEnabled s p = true → s.ps.state ≤ 1 →
      Does (.wakePattern p a c) s (fun t => t = { s with peer := t.peer } ∧ (t.peer.get p).wakeIgnored = inc 16 (s.peer.get p).wakeIgnored)) ∧
    (portEnabled s p = true → s.ps.state ≠ 2 → s.ps.state ≠ 4 →
      Does (.signalEnergy p) s (fun t => t = { s with peer := t.peer } ∧ (t.peer.get p).energy = true))

/-- DATA frames (09 R246, R248, R249, R267): a frame in order is accepted, its credit granted again as its data leaves, and 16 owe an ACK frame; a
duplicate is acknowledged again, one ahead is answered by a NAK, one with an ACK outside the window resets the link; the stopper state discards all.
RESPONSE does no more. -/
def Obligations.DataFrames : Prop :=
  ∀ (s : State) (f : Sys2Proof.Frm) (m : Head) (st : Nat),
    (∀ s1, InOrder s f { msgOf 0x02 m 0 .none with status := st } s1 →
      Does (.response f m st) s (fun t => ∃ k k1 k', linkBy s f.port f.link = some k ∧ linkBy s1 f.port f.link = some k1 ∧ linkBy t f.port f.link = some k' ∧
        k'.expect = k.expect + 1#24 ∧ k'.nakFor = none ∧ k'.sent = k1.sent ∧ (k'.vcs[0]).given = (k1.vcs[0]).given + 1 ∧ (k'.vcs[0]).held = (k1.vcs[0]).held ∧
        (15 ≤ k1.unacked → k'.unacked = 0 ∧ ∃ g, Out.frame f.port f.link f.seq g .ack ∈ t.out) ∧ (k1.unacked < 15 → k'.unacked = k1.unacked + 1) ∧
        t = { s1 with peer := t.peer, out := t.out })) ∧
    (s.safe.stopper = true → Does (.response f m st) s (fun t => t = s)) ∧
    (∀ k, framesFlow s = true → s.safe.stopper = false → linkBy s f.port f.link = some k → carries k = true →
      (f.seq ≠ k.expect → (k.expect - f.seq).toNat ≤ 2 ^ 23 → Does (.response f m st) s (fun t =>
        t = { s with peer := t.peer, out := .frame f.port f.link (k.expect - 1#24) (grantField k) .ack :: s.out } ∧ linkBy t f.port f.link = some { k with unacked := 0 })) ∧
      (2 ^ 23 < (k.expect - f.seq).toNat → k.nakFor ≠ some k.expect → Does (.response f m st) s (fun t =>
        t = { s with peer := t.peer, out := .frame f.port f.link (k.expect - 1#24) (grantField k) .nak :: s.out } ∧
        linkBy t f.port f.link = some { k with nakFor := some k.expect, unacked := 0 })) ∧
      (f.seq = k.expect → ackInWindow k f.ack = false → Does (.response f m st) s (fun t => ∃ k', linkBy t f.port f.link = some k' ∧ k'.state = .handshake ∧
        k'.sent = k.sent ∧ k'.expect = k.expect ∧ Shows t (peerGroup f.port) 12)))

/-- Orders and status between bricks (09 R236, R243, R244; 05 R130, R132; the arguments' places are log entry 32): an order already answered is
answered as before, one that the entry does not permit is refused with NOTICE g.13, an order on write protection writes its record and is answered
when that is durable; STATUS is kept. -/
def Obligations.PeerOrders : Prop :=
  ∀ (s : State) (f : Sys2Proof.Frm) (m : Head) (s1 : State),
    let response (st : Nat) : Msg := { op := 2, status := st, head := { head0 with tag := m.tag }, arg := 0, body := .none }
    (∀ kind args, InOrder s f (msgOf 0x01 m kind (.args args)) s1 →
      (∀ a, answeredTag s f.port f.link m.tag = some a →
        Does (.order f m kind args) s (fun t => Queued t f.port f.link { response a.status with head := { head0 with tag := a.tag } } ∧
          t = { s1 with peer := t.peer, out := t.out })) ∧
      (answeredTag s f.port f.link m.tag = none → shakesFor s f.port f.link m.tag = true → Does (.order f m kind args) s (fun t =>
        t = { s1 with peer := t.peer, out := t.out })) ∧
      (answeredTag s f.port f.link m.tag = none → shakesFor s f.port f.link m.tag = false →
          (∀ o ∈ s.braid.owed, ¬ (o.port = f.port ∧ o.link = f.link ∧ o.msg.op = 2 ∧ o.msg.head.tag = m.tag)) →
        (permits s f.port f.link kind = false →
          Does (.order f m kind args) s (fun t => Queued t f.port f.link (response 2) ∧ Shows t (peerGroup f.port) 13 ∧
            t = { s1 with peer := t.peer, evt := t.evt, ctl := t.ctl, out := t.out, fresh := t.fresh })) ∧
        (kind = 2 → permits s f.port f.link 2 = true → (nsOf s m.nsid).isSome = true → rd args 0 1 ≤ 2 → protectLoses s m.nsid (rd args 0 1) = false → s.jrnl.state ≠ 5 →
          Does (.order f m kind args) s (fun t => Journaled t (.nsState m.nsid (rd args 0 1)) ∧
            (∃ o ∈ t.braid.owed, o.port = f.port ∧ o.link = f.link ∧ o.msg = response 0) ∧ t.map = s.map ∧ t.media = s.media ∧ t.exts = s.exts)))) ∧
    (InOrder s f (msgOf 0x30 m 0 .none) s1 →
      Does (.statusReq f m) s (fun t => Queued t f.port f.link { op := 0x31, status := 0, head := { head0 with tag := m.tag }, arg := 0, body := .args (statusArgs s) } ∧
        t = { s1 with peer := t.peer, out := t.out })) ∧
    (∀ ps stop gen crit, InOrder s f (msgOf 0x31 m 0 (.args (zeros 9))) s1 →
      Does (.status f m ps stop gen crit) s (fun t => (∃ k', linkBy t f.port f.link = some k' ∧ k'.status = some (ps, stop, gen, crit)) ∧
        t = { s1 with peer := t.peer, out := t.out }))

/-- Mirror copies (09 R243 to R245; 10 R281): a MIRROR_WRITE that has no place here, or whose check fails, is answered at once; one already held is
acknowledged; another becomes an extent with its blocks. A MIRROR_ACK ends the wait for that peer, a first CHECK_FAILED sends the extent again and a
second raises ERROR g.7; then, or where the DRAM copy fails its check too, a write that has completed raises DANGER 15.4, and one that has not ends with
0h/04h. -/
def Obligations.MirrorCopies : Prop :=
  let failed (s : State) (e : Extent) (t : State) := (acknowledged s e = true → Shows t 15 4) ∧
    (∀ key c, e.origin = .host key → cmdBy s key = some c → c.live = true → powerFails s = false → Out.cqe c.port c.sq c.cid 0 4 0 ∈ t.out)
  (∀ (s : State) (f : Sys2Proof.Frm) (m : Head) (extNlb1 extOff : Nat) (blks : List CheckedBlk) (s1 : State),
      InOrder s f (msgOf 0x10 m (extNlb1 + 256 * extOff) (.blocks blks)) s1 →
    let whole : Head := { m with slba := m.slba - extOff, nlb1 := extNlb1 }
    let acked (st : Nat) (t : State) := Queued t f.port f.link { op := 0x11, status := st, head := whole, arg := 0, body := .none } ∧ t.exts = s.exts ∧ t.map = s.map
    let good := (blks.zipIdx).all (fun b => checkOk s m.nsid (m.slba + b.2) b.1)
    (∀ st, rxRefusal s m isMirror = some st → Does (.mirrorWrite f m extNlb1 extOff blks) s (acked st)) ∧
    (rxRefusal s m isMirror = none → runReserve s m.nsid m.layout = none → extOff ≠ 0 → rxFailing s m whole.slba = true →
      Does (.mirrorWrite f m extNlb1 extOff blks) s (fun t =>
        t = { s1 with peer := t.peer, out := t.out, braid := { s1.braid with rxGseq := max s1.braid.rxGseq m.gseq } })) ∧
    (∀ r, rxRefusal s m isMirror = none → runReserve s m.nsid m.layout = some r → extOff = 0 ∨ rxFailing s m whole.slba = false →
      (good = false → Does (.mirrorWrite f m extNlb1 extOff blks) s (acked 5)) ∧
      (good = true → extOff = 0 → blks.length ≤ extNlb1 → Does (.mirrorWrite f m extNlb1 extOff blks) s (fun t => t.exts = s.exts ∧ t.map = s.map ∧
        { nsid := m.nsid, gseq := m.gseq, ext := m.ext, slba := m.slba, blks := blks } ∈ t.braid.runParts))) ∧
    (rxRefusal s m isMirror = none → runReserve s m.nsid m.layout = none → rxFind s (.mirror f.port f.link m.tag) m whole.slba = none →
        extOff = 0 ∨ rxFailing s m whole.slba = false →
      (good = false → Does (.mirrorWrite f m extNlb1 extOff blks) s (acked 5)) ∧
      (good = true → heldAlready s m.nsid whole.slba extNlb1 m.gseq = true → s.map.state = 3 → extNlb1 < extOff + blks.length →
        Does (.mirrorWrite f m extNlb1 extOff blks) s (acked 0)) ∧
      (good = true → heldAlready s m.nsid whole.slba extNlb1 m.gseq = false → (∀ e ∈ s.exts, e.id ≠ s.hx.nextKey) →
        Does (.mirrorWrite f m extNlb1 extOff blks) s (fun t => ∃ e, t.exts = s.exts ++ [e] ∧ e.origin = .mirror f.port f.link m.tag ∧ e.nsid = m.nsid ∧
          e.slba = whole.slba ∧ e.nlb1 = extNlb1 ∧ e.gseq = m.gseq ∧ e.recno = none ∧ t.braid.rxGseq = max s.braid.rxGseq m.gseq ∧
          (∀ i b, blks[i]? = some b → extOff + i ≤ extNlb1 → ∃ y, e.blks[extOff + i]? = some y ∧ y.blk = some (keptBlk s m.nsid b.blk) ∧ y.check = b.check) ∧
          t.map = s.map ∧ t.media = s.media ∧ t.jrnl = s.jrnl)))) ∧
  (∀ (s : State) (f : Sys2Proof.Frm) (m : Head) (status : Nat) (s1 : State), InOrder s f { msgOf 0x11 m 0 .none with status := status } s1 →
    let entry := entryOn s f.port f.link
    (∀ ok, ackedExt s m entry = none → Does (.mirrorAck f m { status := status, dramOk := ok }) s (fun t => t = { s1 with peer := t.peer, out := t.out })) ∧
    (∀ e ok, ackedExt s m entry = some e →
      (status = 0 → s.braid.splices = [] → Does (.mirrorAck f m { status := status, dramOk := ok }) s (fun t => (∀ x ∈ t.exts, x.id = e.id → ∃ y ∈ s.exts, y.id = e.id ∧
        x.waitOn = dropNat entry y.waitOn ∧ x.builders = y.builders.filter (fun b => b ≠ entry)) ∧ t.map = s.map ∧ t.media = s.media)) ∧
      (status ≠ 0 → has e.builders entry = false →
        (status = 5 → has e.resent entry = false → ok = true → Does (.mirrorAck f m { status := status, dramOk := ok }) s (fun t =>
          (∀ x ∈ t.exts, x.id = e.id → ∃ y ∈ s.exts, y.id = e.id ∧ x = { y with resent := entry :: y.resent }) ∧
          (∀ p l, linkFor s entry (hankOf s e.nsid e.slba) = some (p, l) → ∀ x ∈ extMsgs 0x10 0 e (wireBlks s e), ∃ tag,
            Queued t p l { x with head := { x.head with tag := tag } }) ∧ t.map = s.map ∧ t.evt = s.evt)) ∧
        (status = 5 → has e.resent entry = false → ok = false → Does (.mirrorAck f m { status := status, dramOk := ok }) s (failed s e)) ∧
        (status = 5 → has e.resent entry = true → Does (.mirrorAck f m { status := status, dramOk := ok }) s (fun t => Shows t (peerGroup f.port) 7 ∧ failed s e t)) ∧
        (status ≠ 5 → Does (.mirrorAck f m { status := status, dramOk := ok }) s (fun t => t = { s1 with peer := t.peer, out := t.out })))))

/-- Long-braid writes between bricks (10 R284, R285): a write without its layout, protected or with a bad check is answered at once; the holder keeps
a write as an extent; a parity holder applies a newer delta to the parity it holds; an LB_ACK ends the wait for that peer. -/
def Obligations.LongBraidMessages : Prop :=
  (∀ (s : State) (f : Sys2Proof.Frm) (m : Head) (dealloc : Bool) (extNlb1 extOff : Nat) (blks : List CheckedBlk) (s1 : State),
      InOrder s f (msgOf 0x20 m (extNlb1 + 256 * extOff) (.blocks blks)) s1 →
    let whole : Head := { m with slba := m.slba - extOff, nlb1 := extNlb1 }
    let l := (layoutBy s m.layout).getD (layout0 s)
    let acked (st : Nat) (t : State) := Queued t f.port f.link { op := 0x22, status := st, head := whole, arg := 0, body := .none } ∧ t.exts = s.exts ∧ t.map = s.map
    (nsOf s m.nsid = none → Does (.lbWrite f m dealloc extNlb1 extOff blks) s (acked 3)) ∧
    (∀ n, nsOf s m.nsid = some n → (isLong l && (nsLayout s m.nsid).id = m.layout && holderPos l m.slba = l.pos) = true →
      ((nsWp s n || s.map.capWp) = true → Does (.lbWrite f m dealloc extNlb1 extOff blks) s (acked 4)) ∧
      ((nsWp s n || s.map.capWp) = false → rxFind s (.longData f.port f.link m.tag) m whole.slba = none → (∀ e ∈ s.exts, e.id ≠ s.hx.nextKey) →
        dealloc = true ∨ ((extOff = 0 ∨ rxFailing s m whole.slba = false) ∧ (blks.zipIdx).all (fun b => checkOk s m.nsid (m.slba + b.2) b.1) = true ∧ heldAlready s m.nsid whole.slba extNlb1 m.gseq = false) →
        Does (.lbWrite f m dealloc extNlb1 extOff blks) s (fun t => ∃ e, t.exts = s.exts ++ [e] ∧ e.origin = .longData f.port f.link m.tag ∧ e.nsid = m.nsid ∧
          e.slba = whole.slba ∧ e.nlb1 = extNlb1 ∧ e.gseq = m.gseq ∧ e.mode.dealloc = dealloc ∧ e.recno = none ∧ t.map = s.map ∧ t.media = s.media)))) ∧
  (∀ (s : State) (f : Sys2Proof.Frm) (m : Head) (j : Nat) (blks : List CheckedBlk) (s1 : State), InOrder s f (msgOf 0x21 m j (.blocks blks)) s1 →
    let l := (layoutBy s m.layout).getD (layout0 s)
    let acked (st : Nat) (t : State) := Queued t f.port f.link { op := 0x22, status := st, head := m, arg := 0, body := .none } ∧ t.exts = s.exts ∧ t.map = s.map
    (nsOf s m.nsid = none → Does (.lbDelta f m j blks) s (acked 3)) ∧
    (∀ i, (nsOf s m.nsid).isSome = true → isLong l = true → (nsLayout s m.nsid).id = m.layout → myParity l m.slba = some i →
      let good := (blks.zipIdx).all (fun b => checkOk s m.nsid (m.slba + b.2) b.1)
      let news := (newParity s l i j m blks).filterMap id
      (good = false → Does (.lbDelta f m j blks) s (acked 5)) ∧
      (good = true → rxFind s (.longParity f.port f.link m.tag) m (parityLba l m.slba i) = none →
        (news = [] → Does (.lbDelta f m j blks) s (acked 0)) ∧
        (news ≠ [] → (∀ e ∈ s.exts, e.id ≠ s.hx.nextKey) → Does (.lbDelta f m j blks) s (fun t => ∃ e, t.exts = s.exts ++ [e] ∧
          e.origin = .longParity f.port f.link m.tag ∧ e.nsid = m.nsid ∧ e.slba = parityLba l m.slba i ∧ e.gseq = m.gseq ∧
          e.blks.map (fun b => b.blk) = news.map (fun b => some (keptBlk s m.nsid b)) ∧ t.map = s.map ∧ t.media = s.media))))) ∧
  (∀ (s : State) (f : Sys2Proof.Frm) (m : Head) (status : Nat) (s1 : State), InOrder s f { msgOf 0x22 m 0 .none with status := status } s1 →
    let entry := entryOn s f.port f.link
    (∀ ok, ackedExt s m entry = none → Does (.lbAck f m { status := status, dramOk := ok }) s (fun t => t = { s1 with peer := t.peer, out := t.out })) ∧
    (∀ e ok, ackedExt s m entry = some e →
      (status = 0 → s.braid.splices = [] → Does (.lbAck f m { status := status, dramOk := ok }) s (fun t => (∀ x ∈ t.exts, x.id = e.id → ∃ y ∈ s.exts, y.id = e.id ∧
        x.waitOn = dropNat entry y.waitOn ∧ x.builders = y.builders.filter (fun b => b ≠ entry)) ∧ t.map = s.map ∧ t.media = s.media)) ∧
      (status = 5 → has e.resent entry = true → Does (.lbAck f m { status := status, dramOk := ok }) s (fun t => Shows t (peerGroup f.port) 7)) ∧
      (status = 5 → has e.resent entry = false → ok = false → acknowledged s e = true → Does (.lbAck f m { status := status, dramOk := ok }) s (fun t => Shows t 15 4)) ∧
      (status ≠ 0 → status ≠ 5 → Does (.lbAck f m { status := status, dramOk := ok }) s (fun t => t = { s1 with peer := t.peer, out := t.out }))))

/-- Reads between bricks (10 R282, R287, R288): a READ_REQ for an unknown namespace is answered without records; a block in DRAM and an unmapped one
are answered at once, and a mapped one asks its page of the medium; a good READ_DATA record completes the read that waited for it, and one that nobody
waits for does nothing. -/
def Obligations.PeerReads : Prop :=
  (∀ (s : State) (f : Sys2Proof.Frm) (m : Head) (s1 : State), InOrder s f (msgOf 0x23 m 0 .none) s1 →
    let answered (r : BlockRec) (t : State) := Queued t f.port f.link
      { op := 0x24, status := 0, head := { head0 with tag := m.tag, nsid := m.nsid, slba := m.slba, nlb1 := 0 }, arg := 0, body := .recs [r] } ∧
      t.map = s.map ∧ t.media = s.media ∧ t.exts = s.exts
    (nsOf s m.nsid = none → Does (.readReq f m 0) s (fun t => Queued t f.port f.link { op := 0x24, status := 3, head := m, arg := 0, body := .recs [] } ∧
      t = { s1 with peer := t.peer, out := t.out })) ∧
    ((nsOf s m.nsid).isSome = true → m.nlb1 = 0 →
      (∀ b g, dramBlock s m.nsid m.slba = some (b, g) → Does (.readReq f m 0) s (answered (recordOf s m.nsid m.slba g (.got b) false))) ∧
      (dramBlock s m.nsid m.slba = none → look s m.nsid m.slba = .unmapped →
        Does (.readReq f m 0) s (answered (recordOf s m.nsid m.slba 0 (.got zeroBlk) true))) ∧
      (∀ a e u, dramBlock s m.nsid m.slba = none → look s m.nsid m.slba = .mapped a → setBy s a.set = some e → nth e.members (placeOf s e a.block).1 none = some u →
        Does (.readReq f m 0) s (fun t => (∃ r ∈ t.media.reads, ∃ w ∈ r.wants, w.reader = .peer f.port f.link m.tag ∧ w.idx = 0) ∧
          (∃ v ∈ t.braid.serves, v.port = f.port ∧ v.link = f.link ∧ v.tag = m.tag) ∧ t.map = s.map ∧ t.exts = s.exts)))) ∧
  (∀ (s : State) (f : Sys2Proof.Frm) (m : Head) (recs : List BlockRec) (s1 : State), InOrder s f (msgOf 0x24 m 0 (.recs recs)) s1 →
    (s.braid.asks.find? (fun a => a.port = f.port && a.link = f.link && a.tag = m.tag) = none →
      Does (.readData f m recs) s (fun t => t = { s1 with peer := t.peer, out := t.out })) ∧
    (∀ (a : Ask) (r : BlockRec) (c : HostCmd) (bs : List Blk), s.braid.asks.find? (fun a => a.port = f.port && a.link = f.link && a.tag = m.tag) = some a →
        recs[a.lba - m.slba]? = some r → recordGood s a r = true → r.unmapped = false → a.solve = none → a.reader = .cmd c.key → s.cmds = [c] → c.kind = .read →
        c.live = true → powerFails s = false → modAt c.found a.idx (fun _ => Found.got (keptBlk s a.nsid r.blk)) = bs.map Found.got →
      Does (.readData f m recs) s (fun t => Out.blocks c.port c.sq c.cid (bs.map (hostBlk s c.nsid)) ∈ t.out ∧ Out.cqe c.port c.sq c.cid 0 0 0 ∈ t.out ∧
        t.cmds = [] ∧ a ∉ t.braid.asks ∧ t.map = s.map ∧ t.media = s.media ∧ t.exts = s.exts)))

/-- A builder's and a member's part of a splice (10 R288, R291, R293, R297 to R300, R304): a builder reserves or refuses, keeps each copied record as
an extent, and reports folds; a phase is recorded and answered when its record is durable; RELEASE drops the copy and protects the namespace. -/
def Obligations.SpliceMessages : Prop :=
  ∀ (s : State) (f : Sys2Proof.Frm) (m : Head) (s1 : State),
    let replied (st : Nat) (b : MBody) (t : State) := Queued t f.port f.link { op := 0x26, status := st, head := m, arg := 0, body := b }
    (∀ id bytes, InOrder s f (msgOf 0x25 m id (.args (zeros 8))) s1 →
      (nsOf s m.nsid = none → Does (.splicePrepare f m id bytes) s (fun t => replied 3 .none t ∧ t = { s1 with peer := t.peer, out := t.out })) ∧
      (∀ n l, nsOf s m.nsid = some n → layoutBy s m.layout = some l →
        let others := s.braid.reserves.filter (fun r => r.nsid ≠ m.nsid)
        let freed := onBraid (fun b => { b with reserves := others }) s
        let run := buildsRun (nsLayout s m.nsid) l
        let runFits := run = true → spliceRun s + ceilDiv n.size 32 ≤ tableEntries s ∧ ∀ p ∈ s.braid.splices, p.localRun = false
        (runFits → fits freed (ceilDiv bytes 4096) = true →
          Does (.splicePrepare f m id bytes) s (fun t => replied 0 .none t ∧ t.map = s.map ∧ t.exts = s.exts ∧ t.braid = { s.braid with
            reserves := others ++ [{ entry := entryOn s f.port f.link, id := id, nsid := m.nsid, new := l.id, blocks := ceilDiv bytes 4096, run := run }] })) ∧
        (fits freed (ceilDiv bytes 4096) = false →
          Does (.splicePrepare f m id bytes) s (fun t => (∃ st, st ≠ 0 ∧ replied st .none t) ∧ t.map = s.map ∧ t.exts = s.exts ∧
            t.braid = { s.braid with reserves := others })))) ∧
    (∀ (again : Bool) id recs, InOrder s f (msgOf (if again then 0x2B else 0x27) m id (.recs recs)) s1 →
      let c : Instr := if again then .recopy f m id recs else .spliceCopy f m id recs
      (nsOf s m.nsid = none → Does c s (fun t => replied 3 .none t ∧ t.exts = s.exts)) ∧
      ((nsOf s m.nsid).isSome = true →
        let good := recs.zipIdx.all (fun r => recChecked s m.nsid (m.slba + r.2) r.1)
        (good = false → Does c s (fun t => replied 5 .none t ∧ t.exts = s.exts)) ∧
        (good = true → runReserve s m.nsid m.layout = none → (∀ l, layoutBy s m.layout = some l → buildsRun (nsLayout s m.nsid) l = false) → Does c s (fun t => ∃ l, t.exts = s.exts ++ l ∧
          l.map (fun e => (e.slba, e.gseq, e.mode.dealloc)) = recs.zipIdx.map (fun r => (m.slba + r.2, r.1.gseq, r.1.unmapped)) ∧
          (∀ e ∈ l, e.origin = .copy f.port f.link m.tag again ∧ e.nsid = m.nsid ∧ e.nlb1 = 0 ∧ e.recno = none) ∧ t.map = s.map ∧ t.media = s.media)))) ∧
    (∀ id hanks, InOrder s f (msgOf 0x28 m (id + 256 * hanks) .none) s1 →
      (nsOf s m.nsid = none → Does (.foldReq f m id hanks) s (fun t => replied 3 .none t)) ∧
      ((nsOf s m.nsid).isSome = true → (∀ h, kvGet s.map.hanks h ≠ some .invalid) → Does (.foldReq f m id hanks) s (fun t => t = { s1 with peer := t.peer, out := t.out } ∧
        replied 0 (.folds ((List.range hanks).map (fun i => builtFold s m.nsid m.layout (m.slba + 32 * i)))) t))) ∧
    (∀ id phase next, InOrder s f (msgOf 0x29 m (id + 256 * phase) (.args (zeros 8))) s1 →
      (phaseOfCode phase = none ∨ nsOf s m.nsid = none → Does (.splicePhase f m id phase next) s (fun t => replied 3 .none t ∧ t.map = s.map ∧ t.jrnl = s.jrnl)) ∧
      (∀ ph, phaseOfCode phase = some ph → (nsOf s m.nsid).isSome = true → s.jrnl.state ≠ 5 →
        let taken (t : State) := Journaled t (.splicePhase id ph m.nsid (memberOld s m.nsid) m.layout none (if ph = .release then some releaseEnd else none)) ∧
          (∃ o ∈ t.braid.owed, o.port = f.port ∧ o.link = f.link ∧ o.msg = { op := 0x26, status := 0, head := m, arg := 0, body := .none })
        (ph ≠ .switch → ph ≠ .aborted → Does (.splicePhase f m id phase next) s (fun t => taken t ∧ t.map = s.map ∧ t.hx = s.hx ∧
          t.braid.reserves = (if ph = .release then s.braid.reserves.filter (fun r => r.nsid ≠ m.nsid) else s.braid.reserves))) ∧
        (ph = .aborted → Does (.splicePhase f m id phase next) s (fun t => taken t ∧ t.braid.reserves = s.braid.reserves.filter (fun r => r.nsid ≠ m.nsid))) ∧
        (ph = .switch → (layoutBy s m.layout).isSome = true → (∃ r ∈ s.braid.reserves, r.nsid = m.nsid ∧ r.run = true) → runQuiet s m.nsid = false →
          Does (.splicePhase f m id phase next) s (fun t => t.map = s.map ∧ t.jrnl = s.jrnl ∧ t.braid = s.braid)) ∧
        (∀ l, ph = .switch → layoutBy s m.layout = some l →
            ((∀ r ∈ s.braid.reserves, r.nsid = m.nsid → r.run = false) ∨ runQuiet s m.nsid = true) →
          Does (.splicePhase f m id phase next) s (fun t => taken t ∧ t.map = s.map ∧
          t.hx.gseq = (if l.pos = 0 then max s.hx.gseq (max next (s.braid.rxGseq + 1)) else s.hx.gseq))))) ∧
    (InOrder s f (msgOf 0x2A m 0 .none) s1 →
      (nsOf s m.nsid = none → Does (.release f m) s (fun t => t = { s1 with peer := t.peer, out := t.out })) ∧
      ((nsOf s m.nsid).isSome = true → s.jrnl.state ≠ 5 → Does (.release f m) s (fun t => Journaled t (.nsState m.nsid 1) ∧ Shows t 11 15 ∧
        (∀ h ∈ t.map.hanks, ¬ (nsFirst s m.nsid ≤ h.1 ∧ ∀ n, nsOf s m.nsid = some n → h.1 < nsFirst s m.nsid + nsHanks s n)))))

/-- SPLICE_REPLY at the driver (10 R291, R297, R299; log entry 34): one that answers a phase is noted for its member; a refusal in PREPARE aborts the
splice and completes START with 7h/85h; a fold that differs makes the hank dirty, and the third in one hank pauses the splice with ERROR 11.4. -/
def Obligations.SpliceReplies : Prop :=
  ∀ (s : State) (f : Sys2Proof.Frm) (m : Head) (status : Nat) (folds : List Check) (s1 : State),
      InOrder s f { msgOf 0x26 m 0 (.folds folds) with status := status } s1 →
    let entry := entryOn s f.port f.link
    (spliceOf s m.nsid = none → Does (.spliceReply f m status folds) s (fun t => t = { s1 with peer := t.peer, out := t.out })) ∧
    (∀ p, spliceOf s m.nsid = some p → s.braid.splices.find? (fun q => q.id = p.id) = some p →
      let mine (x : Port × Nat × Nat) : Bool := x.1 = f.port && x.2.1 = f.link && x.2.2 = m.tag
      (p.phaseTags.any mine = true → status = 0 → Does (.spliceReply f m status folds) s (fun t =>
        (∃ q ∈ t.braid.splices, q = { p with told := insNat p.told entry }) ∧ t.map = s.map ∧ t.jrnl = s.jrnl)) ∧
      (p.phaseTags.any mine = false → has p.builders entry = true →
        (p.phase = .prepare → status ≠ 0 → s.jrnl.state ≠ 5 → powerFails s = false → Does (.spliceReply f m status folds) s (fun t =>
          (∀ q ∈ t.braid.splices, q.id ≠ p.id) ∧ kvCount t.braid.lastRefusal p.nsid = 2 ∧
          Journaled t (.splicePhase p.id .aborted p.nsid p.old p.new none (some p.progress)) ∧
          (∀ key c, p.cmd = some key → cmdBy s key = some c → c.live = true → Out.cqe c.port c.sq c.cid 7 0x85 2 ∈ t.out) ∧ t.map = s.map)) ∧
        (∀ c e, p.phase = .verify → folds = [c] → p.folds.find? (fun x => x.1 = entry && x.2.1 = m.slba) = some (entry, m.slba, [e]) → e ≠ c →
          let h := dataHank s p m.slba
          (kvCount p.diffAt h < 2 → Does (.spliceReply f m status folds) s (fun t => (∃ q ∈ t.braid.splices, q.id = p.id ∧ q.phase = .verify ∧
            h ∈ q.dirty ∧ q.diffs = inc 32 p.diffs ∧ kvCount q.diffAt h = kvCount p.diffAt h + 1) ∧ t.map = s.map)) ∧
          (2 ≤ kvCount p.diffAt h → Does (.spliceReply f m status folds) s (fun t => (∃ q ∈ t.braid.splices, q.id = p.id ∧ q.phase = .paused ∧
            h ∈ q.dirty ∧ q.diffs = inc 32 p.diffs) ∧ Shows t 11 4 ∧ t.map = s.map)))))

/-- Splice Control and Splice Status (10 R289, R291, R297, R298, R302, R305, R306): an accepted START records PREPARE; a refused order answers 7h/85h
with its reason; ABORT records ABORTED; SWITCH after VERIFY records SWITCH once drained; CONTINUE resumes a splice that three differences paused. -/
def Obligations.SpliceCommands : Prop :=
  ∀ (s : State) (h : Hdr) (nsid : Nat) (n : NsEntry), fetchAdmin s h = true → adminOk s = true →
    let a := acceptAdmin h s
    nsOf a nsid = some n → a.jrnl.state ≠ 5 → powerFails a = false →
    let refused (r : Nat) (t : State) := Completed t h 7 0x85 r ∧ kvCount t.braid.lastRefusal nsid = r ∧ t.braid.splices = a.braid.splices ∧ t.jrnl = a.jrnl
    (∀ new auto, spliceOf a nsid = none →
      (∀ r, startRefusal a n new = some r → Does (.start h nsid new auto) s (refused r)) ∧
      (∀ l, startRefusal a n new = none → layoutBy a new = some l → (∀ q ∈ a.braid.splices, q.id ≠ freeId a 256 a.braid.nextId) → Does (.start h nsid new auto) s (fun t =>
        let id := freeId a 256 a.braid.nextId
        Journaled t (.splicePhase id .prepare nsid (nsLayout a nsid).id l.id none (some 0)) ∧ Shows t 11 0 ∧
        (∃ p ∈ t.braid.splices, p.id = id ∧ p.nsid = nsid ∧ p.phase = .prepare ∧ p.new = l.id ∧ p.builders = buildersOf a (nsLayout a nsid) l ∧
          p.auto = auto ∧ p.cmd = some a.hx.nextKey) ∧
        (∃ c ∈ t.cmds, c.key = a.hx.nextKey ∧ c.cid = h.cid ∧ c.kind = .spliceStart) ∧ t.map = a.map ∧ t.exts = a.exts))) ∧
    (spliceOf a nsid = none → Does (.continue h nsid) s (refused 10) ∧ Does (.abortSplice h nsid) s (refused 10) ∧ Does (.switch h nsid) s (refused 10)) ∧
    (∀ p, spliceOf a nsid = some p → a.braid.splices.find? (fun q => q.id = p.id) = some p →
      (p.phase = .paused → p.paused2 = true → (∀ b ∈ p.builders, peerUp a b = true) → Does (.continue h nsid) s (fun t => Completed t h 0 0 p.id ∧
        (∃ q ∈ t.braid.splices, q.id = p.id ∧ q.phase = p.left ∧ q.paused2 = false) ∧ Journaled t (.splicePhase p.id p.left nsid p.old p.new none (some p.progress)) ∧
        t.map = a.map)) ∧
      (p.phase = .release ∨ p.phase = .switch → Does (.abortSplice h nsid) s (refused 9)) ∧
      (p.phase = .build ∨ p.phase = .verify ∨ p.phase = .prepare ∨ p.phase = .paused ∨ p.phase = .switching → Does (.abortSplice h nsid) s (fun t =>
        Journaled t (.splicePhase p.id .aborted nsid p.old p.new none (some p.progress)) ∧ (∃ q ∈ t.braid.splices, q.id = p.id ∧ q.phase = .aborted) ∧
        (∃ c ∈ t.cmds, c.cid = h.cid ∧ c.kind = .spliceAbort ∧ c.waitRec.isSome = true) ∧ t.map = a.map ∧ t.exts = a.exts)) ∧
      (p.phase ≠ .aborted → verifyEnded a p = false → Does (.switch h nsid) s (refused 11)) ∧
      (verifyEnded a p = true → drained a p = true → a.jrnl.runNum = none → Does (.switch h nsid) s (fun t =>
        Journaled t (.splicePhase p.id .switch nsid p.old p.new none (some p.progress)) ∧ (∃ q ∈ t.braid.splices, q.id = p.id ∧ q.phase = .switch) ∧
        (∃ c ∈ t.cmds, c.key = a.hx.nextKey ∧ c.cid = h.cid ∧ c.waitRec.isSome = true) ∧ t.map = a.map))) ∧
    Does (.spliceStatus h nsid) s (fun t => Completed t h 0 0 0 ∧ Out.bytes h.port h.sq h.cid (statusBytes a nsid) ∈ t.out ∧ ReportsOnly a t)

/-- A splice at work (10 R293, R294, R297 to R300): BUILD reads and copies the hank at PROGRESS, at once where nothing of it has to be read from the
NAND and else once every block is there, and ends in VERIFY; VERIFY reads the next hank in the same way and asks the builders for its fold (when a hank
has been read is the model's choice, log entry 78); a switch that has not drained in 10 s returns to VERIFY with NOTICE 11.14; RELEASE ends, with its
record, once every member has heard of the switch. -/
def Obligations.SpliceWork : Prop :=
  ∀ (s : State) (p : Splice), s.braid.splices.find? (fun q => q.id = p.id) = some p →
    let zeros (h : Nat) : Prop := (nsLayout s p.nsid).cross ≠ 5 ∧ ∀ lba ∈ hankLbas s p.nsid h, dramBelow none s p.nsid lba = none ∧ look s p.nsid lba = .unmapped
    let remote : Prop := p.localRun = false ∧ ((layoutBy s p.new).getD (layout0 s)).cross ≠ 5
    let goesOn (t : State) : Prop := (∃ q ∈ t.braid.splices, q.id = p.id ∧ q.progress = p.progress + 1 ∧
      (q.phase = .verify ↔ p.progress + 1 = hanksOf s p.nsid ∧ p.dirty = [])) ∧ t.map = s.map ∧ t.media = s.media ∧ t.exts = s.exts
    let asks (h : Nat) (f : Check) (t : State) : Prop := (∃ q ∈ t.braid.splices, q.id = p.id ∧ q.phase = .verify ∧ q.verified = p.verified + 1 ∧
      q.folds = p.folds ++ p.builders.map (fun b => (b, 32 * h, [f]))) ∧ t.map = s.map ∧ t.exts = s.exts
    (p.phase = .build → s.map.state = 3 → s.safe.stopper = false → partRuns s 3 = true → (∀ b ∈ p.builders, peerUp s b = true) → s.jrnl.state ≠ 5 →
      (hankRead s p.id = none → p.progress < hanksOf s p.nsid → remote → zeros p.progress → Does (.spliceBuild p.id) s goesOn) ∧
      (∀ r, hankRead s p.id = some r → (r.recs.all Option.isSome = false → Does (.spliceBuild p.id) s (fun t => t = s)) ∧
        (r.recs.all Option.isSome = true → r.copy = true → r.fold = false → r.hank = p.progress → p.progress < hanksOf s p.nsid → p.repair = false → remote →
          (∀ v ∈ s.braid.hankReads, v.splice = p.id → v = r) → Does (.spliceBuild p.id) s goesOn)) ∧
      (hankRead s p.id = none → hanksOf s p.nsid ≤ p.progress → p.dirty = [] → Does (.spliceBuild p.id) s (fun t =>
        (∃ q ∈ t.braid.splices, q = { p with phase := .verify }) ∧
        Journaled t (.splicePhase p.id .verify p.nsid p.old p.new none (some p.progress)) ∧ Shows t 11 0 ∧ t.map = s.map))) ∧
    (p.phase = .verify → s.map.state = 3 → s.safe.stopper = false → partRuns s 3 = true → (∀ b ∈ p.builders, peerUp s b = true) → p.repair = false → p.builders ≠ [] → remote →
      (hankRead s p.id = none → p.dirty = [] → p.verified < hanksOf s p.nsid → 32 * p.verified < 2 ^ 39 → zeros p.verified →
        Does (.spliceVerify p.id) s (asks p.verified (foldOf ((hankLbas s p.nsid p.verified).map (fun l => recordOf s p.nsid l 0 (.got zeroBlk) true))))) ∧
      (∀ r, hankRead s p.id = some r → r.recs.all Option.isSome = true → r.copy = false → r.fold = true → 32 * r.hank < 2 ^ 39 →
        Does (.spliceVerify p.id) s (asks r.hank (foldOf ((hankLbas s p.nsid r.hank).filterMap (hankRec r)))))) ∧
    (p.phase = .switching → Does (.switchTimeout p.id) s (fun t => (∃ q ∈ t.braid.splices, q = { p with phase := .verify, cmd := none, ready := true, auto := false }) ∧
      Shows t 11 14 ∧ t.map = s.map ∧ t.exts = s.exts ∧ t.jrnl = s.jrnl ∧
      (∀ key c, p.cmd = some key → cmdBy s key = some c → c.live = true → powerFails s = false → Out.cqe c.port c.sq c.cid 7 0x85 12 ∈ t.out))) ∧
    (p.phase ≠ .switching → Does (.switchTimeout p.id) s (fun t => t = s)) ∧
    (p.phase = .release → s.jrnl.state ≠ 5 → p.localRun = false →
      ((∀ e ∈ others s ((layoutBy s p.new).getD (layout0 s)), has p.told e = true) → Does (.spliceRelease p.id) s (fun t =>
        (∀ q ∈ t.braid.splices, q.id ≠ p.id) ∧ Shows t 11 6 ∧
        Journaled t (.splicePhase p.id .release p.nsid p.old p.new none (some (hanksOf s p.nsid))) ∧ t.exts = s.exts)) ∧
      (∀ e ∈ others s ((layoutBy s p.new).getD (layout0 s)), has p.told e = false →
        Does (.spliceRelease p.id) s (fun t => (∃ q ∈ t.braid.splices, q.id = p.id ∧ q.phase = .release) ∧ t.map = s.map ∧ t.jrnl = s.jrnl)))

/-- Orders of a power state (11 R313, R314, R316; 14 R395; 04 R120, R121): an operational state takes effect at once, a deeper one begins the
handshake, OFF is refused while WAKE_IN_N is low, the stopper state refuses sleep, and a deeper order loses to one that is pending; ceiling, query and
the patrol's restart answer the state. -/
def Obligations.PowerOrders : Prop :=
  (∀ (s : State) (h : Hdr), fetchAdmin s h = true → adminOk s = true →
    let a := acceptAdmin h s
    Does (.query h) s (fun t => Completed t h 0 0 (a.ps.state + 16 * a.prm.power.ceil) ∧ ReportsOnly a t) ∧
    (∀ st, st ≠ .off → Does (.setCeiling h st) s (fun t => Completed t h 0 0 (a.ps.state + 16 * pwrCode st) ∧
      ReportsOnly (onPrm (fun p => { p with power := { p.power with ceil := pwrCode st } }) a) t)) ∧
    Does (.setCeiling h .off) s (fun t => Completed t h 0 2 0 ∧ ReportsOnly a t) ∧
    Does (.patrolNow h) s (fun t => Completed t h 0 0 (a.ps.state + 16 * a.prm.power.ceil) ∧
      ReportsOnly { a with ps := { a.ps with pos := [0, 0, 0, 0], visited := [0, 0, 0, 0], due := [none, none, none, none] } } t) ∧
    (∀ st, s.ps.hs = none → a.ps.state = 0 →
      let begun (t : State) := t.ps.hs = some { want := st, asker := .host h.port a.hx.nextKey, part := 1, stopped := [], waiting := false, also := [] } ∧
        (∃ c ∈ t.cmds, c.key = a.hx.nextKey ∧ c.cid = h.cid ∧ c.kind = .powerOrder) ∧ t.ps.state = 0 ∧ t.map = a.map ∧ t.jrnl = a.jrnl ∧ t.media = a.media
      (st = .run ∨ st = .idle → (∀ c ∈ a.cmds, isPowerOrder c = false ∧ c.key ≠ a.hx.nextKey) →
        Does (.enter h st) s (fun t => Completed t h 0 0 (a.ps.state + 16 * a.prm.power.ceil) ∧ t.cmds = a.cmds ∧
          (t.ctl.get h.port).feat.ps = pwrCode st ∧ t.ps.ordered = none ∧ t.ps.state = 0 ∧ t.map = a.map)) ∧
      (a.safe.stopper = false → st = .sleep ∨ st = .deep ∨ (st = .off ∧ a.ps.wakeLow = false) → Does (.enter h st) s begun) ∧
      (a.safe.stopper = false → st = .off → a.ps.wakeLow = true → (∀ c ∈ a.cmds, c.key ≠ a.hx.nextKey) →
        Does (.enter h st) s (fun t => Completed t h 7 0x84 0x600 ∧ t.ps.hs = none ∧ t.ps.state = 0 ∧ Shows t 12 4 ∧ t.map = a.map)) ∧
      (a.safe.stopper = true → st = .sleep ∨ st = .deep ∨ st = .off → Does (.enter h st) s (fun t => Completed t h 7 0x84 0x100 ∧ ReportsOnly a t))) ∧
    (∀ st x, s.ps.hs = some x → isOrder x.asker = true → pwrCode x.want < pwrCode st → s.safe.stopper = false → (∀ c ∈ s.cmds, c.key ≠ s.hx.nextKey) →
      Does (.enter h st) s (fun t => Completed t h 7 0x82 0 ∧ t.ps.hs = some x ∧ Shows t (hostGroup h.port) 24 ∧ t.hx.conflicts = inc 16 s.hx.conflicts))) ∧
  (∀ (s : State) (st : Nat), smbAlive s = true → s.ps.hs = none →
    (4 < st → st < 8 → Does (.smbGo st) s (fun t => t = { s with ps := { s.ps with smbState := st } })) ∧
    (∀ want, codePwr st = some want → 2 ≤ st → s.ps.state = 0 → s.safe.stopper = false → (st = 4 → s.ps.wakeLow = false) →
      Does (.smbGo st) s (fun t => t = { s with
        ps := { s.ps with smbState := st, hs := some { want := want, asker := .smbus, part := 1, stopped := [], waiting := false, also := [] } } })))

/-- The sleep handshake (11 R309, R311, R315 to R318): each participant that agrees passes it on, and past the last the state is entered with INFO
12.0; a refusal, and a participant that does not answer, end it with NOTICE 12.4; the idle timers begin one for the deepest state whose threshold has
passed. -/
def Obligations.SleepHandshake : Prop :=
  (∀ (s : State) (h : Handshake), s.ps.hs = some h → s.pins.npwrEn.length = 4 →
    let ended (reason : Nat) (t : State) := t.ps.hs = none ∧ t.ps.state = s.ps.state ∧ t.ps.refPart = h.part ∧ t.ps.refReason = reason ∧
      t.ps.refState = pwrCode h.want ∧ t.ps.refusals = inc 32 s.ps.refusals ∧ Shows t 12 4 ∧ t.map = s.map ∧
      (h.asker = .timer → t.ps.backoff = min (2 * s.ps.backoff) 64)
    (∀ agree reason, ¬ (h.part = 2 ∧ noticesOpen s = true) → h.waiting = false →
      (∀ r, refuses s h = some r → r ≠ 7 → Does (.participantAnswer agree reason) s (ended r)) ∧
      (refuses s h = none →
        Does (.participantAnswer false reason) s (ended (max 1 (min reason 3))) ∧
        (∀ p, nextPart h.want h.part = some p → Does (.participantAnswer true reason) s (fun t =>
          t.ps.hs = some { h with stopped := h.part :: h.stopped, part := p, waiting := h.want = .off && p = 4 } ∧ t.ps.state = s.ps.state ∧ t.map = s.map ∧
          (h.part = 7 → h.want = .deep ∨ h.want = .off → t.pins.npwrEn = [false, false, false, false]) ∧
          (h.part = 8 → h.want = .off → 3 ≤ s.jrnl.state → t.jrnl.state = 5))) ∧
        (nextPart h.want h.part = none → Does (.participantAnswer true reason) s (fun t => t.ps.hs = none ∧ t.ps.state = pwrCode h.want ∧
          (h.want ≠ .off → t.ps.backoff = 1 ∧ Shows t 12 0 ∧ t.map = s.map) ∧
          (h.want = .sleep → t.ps.sleeps = inc 32 s.ps.sleeps ∧ t.ps.skip = skipMap s) ∧
          (h.want = .deep → t.ps.deeps = inc 32 s.ps.deeps ∧ t.pins.npwrEn = [false, false, false, false]) ∧
          (h.want = .off → t.hly.held.isSome = true ∧ t.media.nand = s.media.nand ∧ (gateDriven s.hly.breaker = true → t.hly.breaker = .held)))))) ∧
    (¬ (h.part = 2 ∧ noticesOpen s = true) → h.waiting = false → Does .participantTimeout s (fun t => ended 5 t ∧ Shows t 12 11)) ∧
    (h.part = 2 → noticesOpen s = true → Does .participantTimeout s (ended 3))) ∧
  (∀ (s : State) (us : Nat), s.ps.hs = none → s.safe.stopper = false → s.boot.hostReady = true → s.flush = none → s.ps.state < 4 → s.hx.perstHeld = false →
      s.ps.ordered = none →
    (timerState s us = none → Does (.idleTimerExpiry us) s (fun t => t = s)) ∧
    (∀ want, timerState s us = some want → s.ps.state < pwrCode want → s.ps.state ≠ 2 → Does (.idleTimerExpiry us) s (fun t =>
      t = { s with ps := { s.ps with hs := some { want := want, asker := .timer, part := 1, stopped := [], waiting := false, also := [] } } })))

/-- Waking (11 R317, R319, R320, R325; 09 R261, R263; 12 R348): a pattern with the brick's address, energy in SLEEP, PCIe activity and WAKE_IN_N end
SLEEP, DEEP and PATROL with INFO 12.1; a handshake in progress is abandoned with NOTICE 12.5; WAKE_IN_N low leaves OFF, and held low for 1 s raises
NOTICE 12.9. -/
def Obligations.Wakes : Prop :=
  ∀ s : State,
    let asleep := s.ps.hs = none ∧ (s.ps.state = 2 ∨ s.ps.state = 3 ∨ s.ps.state = 5)
    let woken (source : Nat) (t : State) := t.ps.state = 0 ∧ t.ps.lastWake = source ∧ t.ps.hs = none ∧ Shows t 12 1 ∧
      (∀ p, portEnabled s p = true → (t.peer.get p).phy = 1) ∧ (s.ps.state = 3 → t.pins.npwrEn = [true, true, true, true]) ∧
      t.map = s.map ∧ t.jrnl = s.jrnl ∧ t.exts = s.exts ∧ t.cmds = s.cmds
    (∀ p a, asleep → portEnabled s p = true → a.toNat = myWakeAddr s ∨ a = 0xFF#8 →
      Does (.wakePattern p a (~~~ a)) s (fun t => woken 4 t ∧ Shows t (peerGroup p) 10 ∧ t.aon.wakeSeen.get p = true)) ∧
    (∀ p a c, asleep → portEnabled s p = true → ¬ ((a.toNat = myWakeAddr s ∨ a = 0xFF#8) ∧ c = ~~~ a) → Does (.wakePattern p a c) s (fun t => t = s)) ∧
    (∀ p, s.ps.hs = none → s.ps.state = 2 → portEnabled s p = true → Does (.signalEnergy p) s (woken 3)) ∧
    (∀ p, asleep → Does (.l1Exit p) s (woken (1 + portNo p))) ∧
    (∀ p h, s.ps.hs = some h → s.ps.state < 4 → Does (.l1Exit p) s (fun t => t.ps.hs = none ∧ t.ps.refReason = 7 ∧ t.ps.state = s.ps.state ∧ Shows t 12 5 ∧ t.map = s.map)) ∧
    (∀ p, s.ps.state = 4 → Does (.l1Exit p) s (fun t => t = s)) ∧
    (¬ (s.aon.thermLatch = true ∧ s.hly.held = some .thermal) →
      (asleep → Does .wakeInNFall s (fun t => woken 5 t ∧ t.ps.wakeLow = true)) ∧
      (s.ps.state = 4 → s.hly.held = some .powerOff → s.hly.breaker = .held → s.hly.overVoltage = false →
        Does .wakeInNFall s (fun t => t.ps.state = 0 ∧ t.ps.lastWake = 5 ∧ t.hly.held = none ∧ t.hly.breaker = .check ∧
          t.dev.powerOn = (s.dev.powerOn + 1) % 2 ^ 32))) ∧
    (s.aon.thermLatch = true → s.hly.held = some .thermal → s.hly.breaker = .held → s.hly.overVoltage = false →
      Does .wakeInNFall s (fun t => t.hly.held = none ∧ t.hly.breaker = .check ∧ t.dev.powerOn = (s.dev.powerOn + 1) % 2 ^ 32)) ∧
    (s.ps.wakeLow = true → s.ps.wakeTold = false → Does .wakeInHeldTimeout s (fun t => Shows t 12 9 ∧ ReportsOnly { s with ps := { s.ps with wakeTold := true } } t)) ∧
    (s.ps.wakeLow = false ∨ s.ps.wakeTold = true → Does .wakeInHeldTimeout s (fun t => t = s))

/-- The patrol (11 R326 to R331; 07 R200, R206, R209): a visit waits for an idle die, reads the unit's header and counts the page, and passes a unit of a
target that has failed; a page that needed a soft decode, or none could correct, has its unit rewritten with cause 3; a cycle from SLEEP or DEEP serves
its group, in DEEP with the supply on for it only, and returns there, or rises to RUN when the journal asks for a checkpoint; what a cycle's channel starts find is its operand (log entry 76). -/
def Obligations.Patrol : Prop :=
  (∀ (s : State) (g a : Nat) (v : PatrolVisit), mayPatrol s = true → s.ps.state ≤ 1 → g ≤ 3 → Shaped s → 1 ≤ s.prm.power.rows →
      (patrolUnits s g).find? (fun x => nth s.ps.pos g 0 ≤ patrolKey x) = some a →
    (unitUsable s a = false → Does (.patrolRead g [v]) s (fun t => t.ps.ptPages = s.ps.ptPages ∧ nth t.ps.visited g 0 = 0 ∧ t.media = s.media ∧ t.map = s.map)) ∧
    (unitUsable s a = true → dieIdle s (unitDie a) = false → Does (.patrolRead g [v]) s (fun t => t.ps.ptPages = s.ps.ptPages ∧ t.ps.pos = s.ps.pos ∧
      t.ps.visited = s.ps.visited ∧ t.media = s.media ∧ t.map = s.map)) ∧
    (unitUsable s a = true → dieIdle s (unitDie a) = true → nth s.ps.visited g 0 = 0 → v.header = .copy 0 → v.pages = [] →
      Does (.patrolRead g [v]) s (fun t => t.ps.ptPages = inc 32 s.ps.ptPages ∧ nth t.ps.visited g 0 = 1 ∧ t.map = s.map ∧ t.exts = s.exts ∧ t.cmds = s.cmds)) ∧
    (unitUsable s a = true → dieIdle s (unitDie a) = true → nth s.ps.visited g 0 = 1 → (∀ r ∈ s.map.rewrites, r.1 ≠ a) →
        s.map.rewrites.length < Config.rewriteMax →
      let scheduled (t : State) := (a, 3) ∈ t.map.rewrites ∧ Journaled t (.rewrite a 3 0) ∧ t.ps.ptPages = inc 32 s.ps.ptPages ∧
        t.ps.ptRewrites = inc 32 s.ps.ptRewrites ∧ t.map.hanks = s.map.hanks ∧ t.exts = s.exts
      (∀ level words, v.pages = [.weak level words] → Does (.patrolRead g [v]) s (fun t => scheduled t ∧
        (level = 1 → t.media.soft1 = sat 32 (s.media.soft1 + words)))) ∧
      (v.pages = [.unrecovered false] → Does (.patrolRead g [v]) s (fun t => scheduled t ∧ t.ps.ptUnrecov = inc 32 s.ps.ptUnrecov ∧ Shows t 12 8 ∧ Shows t 8 4)))) ∧
  (∀ (s : State) (g : Nat) (vs : List PatrolVisit), mayPatrol s = false ∨ 1 < s.ps.state ∨ 3 < g → Does (.patrolRead g vs) s (fun t => t = s)) ∧
  (∀ (s : State) (a : Nat) (starts : List ChanStart) (v : PatrolVisit), mayPatrol s = true → s.ps.state = 2 → s.ps.hs = none →
    let g := s.ps.cycle % 4
    (s.ps.skip.filter (fun x => patrolGroup x = g)).find? (fun x => nth s.ps.pos g 0 ≤ patrolKey x) = some a → nth s.ps.visited g 0 = 0 →
      unitUsable s a = true → dieIdle s (unitDie a) = true → 1 ≤ s.prm.power.rows → 1 ≤ s.prm.power.patrolPages → v.header = .copy 0 → v.pages = [] →
      inFlight s = [] → s.jrnl.waiting = [] →
    (s.jrnl.trigger = none → s.map.rewrites.length < 1024 → s.evt.queue.length < 16 →
      Does (.patrolCycle g { starts := starts, visits := [v] }) s (fun t => t.ps.state = 2 ∧ t.ps.cycle = s.ps.cycle + 1 ∧ t.ps.ptPages = inc 32 s.ps.ptPages ∧ t.map = s.map ∧ t.jrnl = s.jrnl)) ∧
    (s.jrnl.trigger.isSome = true →
      Does (.patrolCycle g { starts := starts, visits := [v] }) s (fun t => t.ps.state = 0 ∧ t.ps.lastWake = 6 ∧ Shows t 12 1 ∧ t.ps.cycle = s.ps.cycle + 1 ∧ t.map = s.map ∧ t.jrnl = s.jrnl))) ∧
  (∀ (s : State) (pg : ParamPage), mayPatrol s = true → s.ps.state = 3 → s.ps.hs = none → Shaped s → inFlight s = [] → s.jrnl.waiting = [] →
      s.prm.readTiming.isSome = true → s.prm.writeTiming.isSome = true → paramSame (geo s) pg = true →
    let g := s.ps.cycle % 4
    (∀ i, i < 4 → (chan s (4 * g + i)).state = 0 ∧ nth (geo s).fitted (4 * g + i) 0 = 1 ∧ (tgtOf s (4 * g + i) 0).state = .uninit) →
      s.jrnl.trigger = none → s.map.rewrites.length < 1024 → s.evt.queue.length < 16 →
    Does (.patrolCycle g { starts := List.replicate 4 { targets := [{ target := 0, page := pg }], trainFails := 0 }, visits := [] }) s (fun t => t.ps.state = 3 ∧
      t.ps.cycle = s.ps.cycle + 1 ∧ nth t.pins.npwrEn g true = false ∧
      (∀ i, i < 4 → (chan t (4 * g + i)).state = 0 ∧ (chan t (4 * g + i)).trains = min ((chan s (4 * g + i)).trains + 1) 255) ∧ t.map = s.map ∧ t.jrnl = s.jrnl))

/-- A temperature sample (12 R334 to R339, R342, R344, R348): every fitted input takes its reading, a zone is the highest of its inputs, WARN and CRIT
follow at once and CRIT puts the die step at 3; a second sample at or above shutdown begins the shutdown; a latch that stays set while a zone is hot
holds the gate low, and else clears. -/
def Obligations.TemperatureSample : Prop :=
  ∀ (s : State) (rs : Vector Reading 8), 5 ≤ s.boot.phase → s.ps.state ≠ 4 → s.therm.shut = none → Shaped s →
    let t0 := takeMeans (takeZones ((List.range 8).foldl (sampleInput rs) s))
    let sampled (t : State) := t.therm.sampled = true ∧ (∀ z, z < 5 → zoneNow t z = zoneValue t z) ∧
      (∀ i (h : i < 8), inputAt t i = if inputRead s i then takeReading i rs[i] (inputAt s i) else inputAt s i) ∧
      (∀ i (h : i < 8), inputRead s i = true → (takeReading i rs[i] (inputAt s i)).broken = true → (inputAt s i).broken = false → Shows t 13 5) ∧
      (t.therm.warn = true ↔ ∃ z, z < 3 ∧ hot Config.dieWarn (zoneNow t z) = true) ∧ (t.therm.crit = true ↔ ∃ z, z < 3 ∧ hot Config.dieCrit (zoneNow t z) = true) ∧
      (t.therm.crit = true → stepNow t .die = 3) ∧ (∀ i, stepNow s i = 0 → stepHot t0 i = true → 1 ≤ stepNow t i) ∧ (∀ i, stepNow s i ≤ stepNow t i) ∧
      t.map = s.map ∧ t.exts = s.exts ∧ t.rf = s.rf
    (∀ z, (List.range 5).find? (fun z => 2 ≤ nth t0.therm.runs z 0) = some z → Does (.sensorSample rs) s (fun t =>
      t.aon.thermLatch = true ∧ t.aon.thermAt = some (zoneSource t0 z, (zoneNow t0 z).getD 0) ∧ (∃ x, t.therm.shut = some x ∧ x.grace = true ∧ x.source = zoneSource t0 z) ∧
      powerFails t = true ∧ (∃ f, t.flush = some f) ∧ t.map = s.map)) ∧
    ((∀ z, z < 5 → nth t0.therm.runs z 0 < 2) →
      (s.aon.thermLatch = false → Does (.sensorSample rs) s sampled) ∧
      (s.aon.thermLatch = true → s.boot.thermalOk = true →
        ((∃ z, z < 5 ∧ hot (offAt z) (zoneNow t0 z) = true) → Does (.sensorSample rs) s (fun t => t.aon.thermLatch = true ∧ t.hly.held = some .thermal ∧
          (gateDriven s.hly.breaker = true → t.hly.breaker = .held) ∧ t.media.nand = s.media.nand)) ∧
        ((∀ z, z < 5 → hot (offAt z) (zoneNow t0 z) = false) → Does (.sensorSample rs) s (fun t => t.aon.thermLatch = false ∧ Shows t 13 6 ∧
          ∀ i, 1 ≤ stepNow t i))))

/-- Throttle steps, DRAM temperatures and the end of a shutdown (12 R336, R340, R341, R346, R347): after STEP_MS a hot step rises and a cool one
falls, and each channel takes the lower duty; a DRAM refresh rate that changes raises INFO 13.9; the record abandons a program it waited for; the
grace's end seals the journal and holds the gate low. Compensation and calibration (12 R351, R352): each trim takes its table's value, interpolated at
its sensor, plus the calibration, within its reach, and NOTICE 13.10 where it saturates; calibration stores its offsets within 2000 ppm, and aborts
without CLK_REF or with a reference off by more than 300 ppm. -/
def Obligations.ThrottlingAndCompensation : Prop :=
  ((∀ (s : State) (i : StepId), Shaped s →
    let k := stepNow s i
    let put (n : Nat) (t : State) := stepNow t i = n ∧ (∀ j, j ≠ i → stepNow t j = stepNow s j) ∧ (∀ ch, ch < 16 → (chan t ch).duty = channelDuty t ch) ∧
      t.therm.stepChanges = inc 32 s.therm.stepChanges ∧ t.map = s.map ∧ t.exts = s.exts
    (1 ≤ k → k < 3 → stepHot s i = true → Does (.stepTimerExpiry i) s (fun t => put (k + 1) t ∧ Shows t 13 1)) ∧
    (1 ≤ k → stepHot s i = false → stepCool s i = true → Does (.stepTimerExpiry i) s (fun t => put (k - 1) t ∧ Shows t 13 2)) ∧
    (k = 0 ∨ (k = 3 ∧ stepHot s i = true) ∨ (stepHot s i = false ∧ stepCool s i = false) → Does (.stepTimerExpiry i) s (fun t => t = s))) ∧
  (∀ (s : State) (c0 c1 : Nat), 5 ≤ s.boot.phase → s.ps.state ≤ 1 → Does (.dramTemperatureRead c0 c1) s (fun t => t.therm.dram = [c0 % 16, c1 % 16] ∧
    ReportsOnly { s with therm := { s.therm with dram := [c0 % 16, c1 % 16] } } t ∧
    ((∃ i, i < 2 ∧ Config.dramRate (nth [c0 % 16, c1 % 16] i 0) ≠ Config.dramRate (nth s.therm.dram i 0)) → Shows t 13 9))) ∧
  (∀ (s : State) (x : Shutdown) (j : FlashJob) (r : HeatRec) (rest : List FlashJob), s.therm.shut = some x → x.waited = true → s.rf.queue = j :: rest → j.what = .heat r →
      j.bank < 2 → Does .thermalRecordWaitTimeout s (fun t => vecAt t.rf.busy j.bank none = some j ∧ t = { s with rf := t.rf } ∧ t.rf.banks = s.rf.banks)) ∧
  (∀ (s : State) (x : Shutdown), s.therm.shut = some x → (∀ c, s.hly.breaker ≠ .holdup c) → Does .thermalGraceExpiry s (fun t => t.hly.held = some .thermal ∧
    (gateDriven s.hly.breaker = true → t.hly.breaker = .held) ∧ t.aon = s.aon ∧ t.therm.shut = none ∧ t.media.nand = s.media.nand ∧ t.rf.banks = s.rf.banks ∧
    (s.boot.gates = true → s.safe.noSpill = false → 3 ≤ s.jrnl.state → s.jrnl.state ≠ 5 → s.jrnl.waiting = [] → headWaits s = false →
      ∃ r ∈ t.jrnl.recs, ∃ last us sp un, r.body = .shutdown 3 last us sp un s.dev.powerOn s.dev.secs)))) ∧
  ((∀ (s : State) (x : ThermalSec), s.boot.hostReady = true → s.ps.state ≠ 4 → s.prm.thermal = some x → Shaped s →
    let wanted (i : Nat) : Int := Config.fusedTrim i + (interpolate (nth x.comp i []) (inputAt s (itemSensor s i)).reading + calOffset s i)
    let reach (i : Nat) : Int := (Config.trimReach i : Nat)
    Does .compensation s (fun t => ReportsOnly { s with therm := { s.therm with trims := t.therm.trims } } t ∧
      ∀ i, i < 5 → Config.fusedTrim i + nth t.therm.trims i 0 = min (max (wanted i) (-(reach i))) (reach i) ∧
        (wanted i < -(reach i) ∨ reach i < wanted i → Shows t 13 10))) ∧
  (∀ (s : State) (aonPpm refInt refPpm : Int), s.boot.hostReady = true → s.ps.state ≠ 4 →
    (s.boot.clkRef = false → Does (.calibration aonPpm refInt refPpm) s (fun t => ReportsOnly { s with therm := { s.therm with calState := 2 } } t)) ∧
    (s.boot.clkRef = true → 300 < refPpm.natAbs →
      Does (.calibration aonPpm refInt refPpm) s (fun t => ReportsOnly { s with therm := { s.therm with calState := 3, refPpm := refPpm } } t)) ∧
    (s.boot.clkRef = true → refPpm.natAbs ≤ 300 → Does (.calibration aonPpm refInt refPpm) s (fun t =>
      t.therm = { s.therm with calState := 1, refPpm := refPpm } ∧ t.aon.calRefint = some (min (max refInt (-2000)) 2000) ∧
      t.aon.calAon = (if s.aon.xtal then s.aon.calAon else some (min (max aonPpm (-2000)) 2000)) ∧ Shows t 13 11 ∧ t.map = s.map ∧ t.ps = s.ps))))

/-- Tie-off notices and stale copies (09 R258 to R260, R265, R266; 10 R304): a notice puts its link in NOTIFIED with its cause, NOTICE g.11; a mirror
peer in tie-off for DEGRADE_MS is stale: NOTICE g.8, extents wait for it no longer, and a repair opens unless another splice of the namespace is in
progress. -/
def Obligations.TieOffAndStaleCopies : Prop :=
  (∀ (s : State) (f : Sys2Proof.Frm) (m : Head) (cause wake : Nat) (s1 : State), InOrder s f (msgOf 0x03 m (cause + 256 * wake) .none) s1 → s.braid.asks = [] →
    Does (.tieoffNotice f m cause wake) s (fun t => Shows t (peerGroup f.port) 11 ∧ (∃ k k', linkBy s f.port f.link = some k ∧ linkBy t f.port f.link = some k' ∧
      k'.state = .notified ∧ k'.cause = cause ∧ (k'.slept = true ↔ cause = 3 ∨ cause = 4) ∧ (cause = 4 → k'.wakeAddr = wake) ∧
      (k.state = .up → Shows t (peerGroup f.port) 1)) ∧ t.map = s.map ∧ t.exts = s.exts)) ∧
  (∀ (s : State) (p : Port) (l nsid : Nat) (k : Link) (n : NsEntry), linkBy s p l = some k → nsOf s nsid = some n →
    let due : Bool := s.boot.hostReady && n.degrade && isMirror (nsLayout s nsid) && isHome s nsid && has (others s (nsLayout s nsid)) k.entry &&
      !peerUp s k.entry && !isStale s k.entry nsid && degradeCounts s p k
    (due = true → Does (.degradeTimeout p l nsid) s (fun t => Shows t (peerGroup p) 8 ∧ isStale t k.entry nsid = true ∧
      (∀ x ∈ t.exts, x.nsid = nsid → k.entry ∉ x.waitOn) ∧ t.map = s.map ∧ t.media = s.media ∧
      (spliceOf s nsid = none → ∃ r ∈ t.braid.splices, r.nsid = nsid ∧ r.repair = true ∧ r.builders = [k.entry] ∧ r.old = r.new ∧ r.progress = hanksOf s nsid))) ∧
    (due = false → Does (.degradeTimeout p l nsid) s (fun t => t = s)))

/-- Lanyard's diagnostics (14 R386 to R393): each raises its DANGER event with what it names, unless its source is masked or the state is not watched;
corrected words are counted; one bad frequency window in a row is no fault; a self-test that passes raises INFO 15.0. -/
def Obligations.Diagnostics : Prop :=
  ∀ s : State, lanyardRuns s = true →
    (∀ n, (n < 30 → sourceMasked s n = false → Does (.heartbeatMissed n) s (Stops 15 2 n false s)) ∧
      (30 ≤ n ∨ sourceMasked s n = true → Does (.heartbeatMissed n) s (fun t => t = s))) ∧
    (∀ n, n < 4 → Does (.lockstepMismatch n) s (Stops 15 1 n false s)) ∧
    (∀ d, clockWatched s d = true → Does (.clockLost d) s (fun t => Stops 15 3 d false s t ∧ bit t.safe.clkFault d = true)) ∧
    (∀ d, clockWatched s d = false → Does (.clockLost d) s (fun t => t = s)) ∧
    (∀ d count nominal, clockWatched s d = true → d ≠ 11 →
      (offTolerance s count nominal = true → 1 ≤ nth s.safe.windows d 0 → Does (.frequencyCheckWindow d count nominal) s (fun t => Stops 15 3 (d + 256) false s t ∧
        bit t.safe.clkFault d = true)) ∧
      (offTolerance s count nominal = true → nth s.safe.windows d 0 = 0 → Does (.frequencyCheckWindow d count nominal) s (fun t =>
        t = { s with safe := { s.safe with windows := modAt s.safe.windows d (fun _ => 1) } })) ∧
      (offTolerance s count nominal = false → Does (.frequencyCheckWindow d count nominal) s (fun t =>
        t = { s with safe := { s.safe with windows := modAt s.safe.windows d (fun _ => 0) } }))) ∧
    (∀ n, n < 3 → Does (.supplyDisagree n) s (Stops 15 6 n false s)) ∧
    (∀ high lasted, (lasted = true → high = s.safe.stopper → Does (.faultNReadback high lasted) s (Stops 15 7 0 false s)) ∧
      (lasted = false ∨ high ≠ s.safe.stopper → Does (.faultNReadback high lasted) s (fun t => t = { s with safe := { s.safe with padHigh := high } }))) ∧
    (s.safe.stopper = false → Does .liveToggleLost s (Stops 15 8 0 true s)) ∧
    (s.safe.stopper = true → Does .liveToggleLost s (fun t => t = s)) ∧
    (∀ m, m < 3 → Does (.scrub [.corrected m]) s (ReportsOnly { s with
      safe := { s.safe with corrDram := (if m = 0 then inc 32 s.safe.corrDram else s.safe.corrDram), corrSram := (if m = 1 then inc 32 s.safe.corrSram else s.safe.corrSram), corrMram := (if m = 2 then inc 32 s.safe.corrMram else s.safe.corrMram) } })) ∧
    (∀ m a, m < 2 → Does (.scrub [.uncorrectable m a]) s (Stops 15 5 ((m + 4 * (a / 8)) % 2 ^ 32) false s)) ∧
    (∀ failing, (List.range 8).filter (has failing) = [] → Does (.selfTest failing) s (fun t => Shows t 15 0 ∧
      ReportsOnly { s with safe := { s.safe with stAge := 0, selftests := inc 32 s.safe.selftests } } t)) ∧
    (∀ failing c, (List.range 8).filter (has failing) = [c] → Does (.selfTest failing) s (fun t => Stops 15 9 c false s t ∧ bit t.safe.stFail c = true))

/-- The halt of the media and the order of a device reset (14 R394, R396, R398, R399): once the NAND work has ended the spill begins, unless none is
made; the value 0xA5C3 from a host or the SMBus, and STOP_HOLD_S, order the reset, but not after three in a row without host ready. -/
def Obligations.StopperHaltAndOrders : Prop :=
  (∀ s : State, s.safe.stopper = true → s.safe.halted = false → (∀ p ∈ s.media.progs, p.run.issued = false) → (∀ e ∈ s.media.erases, e.run.issued = false) →
    (s.safe.noSpill = true → Does .stopperMediaHalt s (fun t => t = { s with safe := { s.safe with halted := true, spilled := true } })) ∧
    (s.safe.noSpill = false → s.flush = none → s.therm.shut = none →
      Does .stopperMediaHalt s (fun t => t.safe.halted = true ∧ t.map = s.map ∧ t.exts = s.exts ∧
        (spillOrder s ≠ [] ∨ intentOpen s = true → ∃ f, t.flush = some f ∧ f.cause = 4 ∧ f.toSpill = spillOrder s ∧ t.safe.sealed = s.safe.sealed) ∧
        (spillOrder s = [] → intentOpen s = false → t.flush = none ∧ t.safe.sealed = true ∧ t.safe.spilled = true)))) ∧
  (∀ s : State, s.safe.stopper = false ∨ s.safe.halted = true ∨ (∃ p ∈ s.media.progs, p.run.issued = true) ∨ (∃ e ∈ s.media.erases, e.run.issued = true) →
    Does .stopperMediaHalt s (fun t => t = s)) ∧
  (∀ (s : State) (c : Instr), (∃ p v, c = .stopReset p v ∧ bar2Open s p = true ∧ stopCode v = true) ∨ (∃ v, c = .smbStopReset v ∧ smbAlive s = true ∧ stopCode v = true) ∨
      (c = .stopHoldExpiry ∧ s.prm.safety.stopHoldS ≠ 0) →
    (s.safe.stopper = true → s.aon.stopResets < 3 → Does c s (fun t => t = { s with safe := { s.safe with order := true } })) ∧
    (s.safe.stopper = false ∨ 3 ≤ s.aon.stopResets → Does c s (fun t => t = s))) ∧
  (∀ (s : State) (c : Instr), (∃ p v, c = .stopReset p v ∧ stopCode v = false) ∨ (∃ v, c = .smbStopReset v ∧ stopCode v = false) ∨
      (c = .stopHoldExpiry ∧ s.prm.safety.stopHoldS = 0) → Does c s (fun t => t = s))

/-- The SMBus sideband (04 R122 to R125; 00 R17; 11 R323; 15 R405, R411; layout and formats of R124 are log entry 39): the window reads without
clearing and moves on by 4, takes writes only where 04 R123 lists them, and answers nobody with a wrong PEC; the alert address answers once; the third
failed recovery in a row disables the SMBus. -/
def Obligations.SmbusSideband : Prop :=
  ∀ s : State,
    let nacked (t : State) := t = { s with out := .smbNack :: s.out }
    (smbAlive s = false → ∀ c ∈ [Instr.smbSelectBlock 0 true, .smbSetOffset 0 true, .smbRegisterRead, .smbRegisterWrite 0#32 true, .basicManagementCode0,
      .basicManagementCode8, .alertResponse], Does c s nacked) ∧
    (smbAlive s = true →
      (∀ code, code < 16 → Does (.smbSelectBlock code true) s (fun t => t = { s with smb := { s.smb with block := code } })) ∧
      (∀ code ok, 15 < code ∨ ok = false → Does (.smbSelectBlock code ok) s nacked) ∧
      (∀ off, Does (.smbSetOffset off true) s (fun t => t = { s with smb := { s.smb with offset := off % 65536 / 4 * 4 } })) ∧
      (∀ off v, Does (.smbSetOffset off false) s nacked ∧ Does (.smbRegisterWrite v false) s nacked) ∧
      Does .smbRegisterRead s (fun t => t.out = .smb (le 4 (regRead 2 (windowAt s) s).1.toNat) :: s.out ∧
        t = { s with smb := { s.smb with offset := (s.smb.offset + 4) % 65536 }, out := t.out, fresh := t.fresh, dev := { s.dev with latch := t.dev.latch } }) ∧
      (∀ v, windowAt s / 65536 ∉ [0, 10, 15] → Does (.smbRegisterWrite v true) s (fun t =>
        t = { s with smb := { s.smb with offset := (s.smb.offset + 4) % 65536, wrIgnored := true } })) ∧
      (∀ v, windowAt s = 0x34 → Does (.smbRegisterWrite v true) s (fun t =>
        t = { s with smb := { s.smb with offset := (s.smb.offset + 4) % 65536 }, dev := { s.dev with scratch := v } })) ∧
      (∀ v (g : Fin 16), windowAt s = 0xF0000 + 4 * g.val → Does (.smbRegisterWrite v true) s (fun t =>
        t.evt.status[g] = s.evt.status[g] &&& ~~~ v ∧ (∀ h : Fin 16, h ≠ g → t.evt.status[h] = s.evt.status[h]) ∧ t = { s with
          smb := { s.smb with offset := (s.smb.offset + 4) % 65536 }, evt := { s.evt with status := t.evt.status } })) ∧
      Does .basicManagementCode0 s (fun t => t = { s with
        out := .smb [6#8, s.smb.miFlags, s.smb.miCritical, BitVec.ofNat 8 (tempByte s.smb.miTemp), BitVec.ofNat 8 (sat 8 s.smb.miUsed), 0#8, 0#8] :: s.out }) ∧
      Does .basicManagementCode8 s (fun t => t = { s with out := .smb ([22#8] ++ (le 2 Config.vendorId).reverse ++ padText 20 (hostView s).sn) :: s.out }) ∧
      (s.evt.smbAlert = true → Does .alertResponse s (fun t => t = { s with
        evt := { s.evt with smbAlert := false }, out := .smb [BitVec.ofNat 8 (2 * (0x5C + s.boot.smbAddr))] :: s.out })) ∧
      (s.evt.smbAlert = false → Does .alertResponse s nacked)) ∧
    (s.pwr.railsOk = true → s.ps.state ≤ 2 → Does .nvmeMiRefresh s (fun t => t = { s with smb := t.smb, fresh := t.fresh } ∧
      t.smb = { s.smb with miFlags := t.smb.miFlags, miCritical := criticalWarning s, miTemp := composite s, miUsed := percentUsed s })) ∧
    (s.pwr.railsOk = true → 2 < s.ps.state → s.ps.state ≠ 4 → Does .nvmeMiRefresh s (fun t => t = { s with smb := { s.smb with miTemp := composite s } })) ∧
    (s.smb.off = false → s.pwr.railsOk = true → s.ps.state ≠ 4 →
      (s.smb.fails < 2 → Does (.smbusStuckTimeout true) s (fun t => Shows t 2 29 ∧ Out.smbRecover ∈ t.out ∧ ReportsOnly { s with
        smb := { s.smb with recoveries := inc 8 s.smb.recoveries, fails := s.smb.fails + 1 } } t)) ∧
      (2 ≤ s.smb.fails → Does (.smbusStuckTimeout true) s (fun t => Shows t 2 29 ∧ Shows t 2 30 ∧ t.smb.off = true ∧ smbAlive t = false ∧ t.map = s.map)) ∧
      Does (.smbusStuckTimeout false) s (fun t => Shows t 2 29 ∧ Out.smbRecover ∈ t.out ∧ ReportsOnly { s with
        smb := { s.smb with recoveries := inc 8 s.smb.recoveries, fails := 0 } } t)) ∧
    Does .smbusIdleTimeout s (fun t => t = { s with smb := { s.smb with fails := 0 } })

/-- Registers through BAR2 (00 R14, R15; 03 R98; 13 R366; 15 R404): an access that is not an aligned word reads as ones or is discarded with ERROR
g.5; a read clears the register's RC field and no other; a write to a read-only block or to RECWIN changes no register it shows; an RWS field takes a
legal value before the seal, NOTICE 1.9. -/
def Obligations.RegistersThroughBar2 : Prop :=
  ∀ (s : State) (p : Port), bar2Open s p = true →
    (∀ write off size, ¬ (size = 4 ∧ off % 4 = 0) → Does (.bar2MisalignedAccess p write off size) s (fun t => Shows t (hostGroup p) 5 ∧
      (write = false → Out.reg p 0xFFFFFFFF#32 ∈ t.out) ∧ ReportsOnly { s with dev := { s.dev with badOffset := off % 2 ^ 25, badPort := p } } t)) ∧
    (∀ write off, off % 4 = 0 → Does (.bar2MisalignedAccess p write off 4) s (fun t => t = s)) ∧
    Does (.rcRegisterRead p 0x30028) s (fun t => t = { s with hx := { s.hx with conflicts := 0 }, out := .reg p (BitVec.ofNat 32 (regValue s 0x30028)) :: s.out }) ∧
    (∀ off, off % 4 = 0 → off < 0x20000 → latchPairs.find? (fun x => x.1 = off || x.2 = off) = none →
      Does (.rcRegisterRead p off) s (fun t => t = { s with out := .reg p (BitVec.ofNat 32 (regValue s off)) :: s.out })) ∧
    (∀ off, off % 4 = 0 → 0x100000 ≤ off → off < 0x1000000 → Does (.rcRegisterRead p off) s (fun t => t = { s with out := .reg p 0#32 :: s.out })) ∧
    (∀ off v, off % 4 = 0 → 0x1000000 ≤ off → off < 0x2000000 → Does (.registerWrite p off v) s (fun t => t = { s with rf := { s.rf with wrIgnored := true } })) ∧
    (∀ off v, off % 4 = 0 → off < 0x1000000 → off / 65536 ∈ [2, 4, 13] → Does (.registerWrite p off v) s (fun t => t = s)) ∧
    (∀ v, Does (.registerWrite p 0x34 v) s (fun t => t = { s with dev := { s.dev with scratch := v } })) ∧
    (∀ v (g : Fin 16), Does (.registerWrite p (0xF0000 + 4 * g.val) v) s (fun t => t.evt.status[g] = s.evt.status[g] &&& ~~~ v ∧
      t = { s with evt := { s.evt with status := t.evt.status } })) ∧
    (∀ off v x, off % 4 = 0 → (rwsSection off).isSome = true →
      let takes := s.boot.sealed = false ∧ s.boot.hostOk = true ∧ level s = 0
      (¬ takes → Does (.rwsWrite p off v) s (fun t => t = s)) ∧
      (takes → rwsTake s.prm off v.toNat = some x → Does (.rwsWrite p off v) s (fun t => t.prm = x ∧ (off, v.toNat) ∈ t.boot.rwsTaken ∧ Shows t 1 9 ∧
        t.map = s.map ∧ t.exts = s.exts)) ∧
      (takes → rwsTake s.prm off v.toNat = none → Does (.rwsWrite p off v) s (fun t => Shows t 1 9 ∧ ReportsOnly s t)))

/-- Record flash at work (13 R359, R361, R363, R365, R367, R368; 15 R417, R419): an operation that ends well leaves its effect in its bank and the
other bank as it was; one that fails changes neither, ERROR 14.10; a waiting event is moved to the log under the next SEQ, and the last of the start-up
queue lets the image header be stored (03 R88); HOLD defers; a sector with a corrected word is refreshed. -/
def Obligations.RecordFlashWork : Prop :=
  (∀ (s : State) (b : Fin 2) (j : FlashJob), s.rf.busy[b] = some j → j.bank = b.val →
    let c (ok : Bool) : Instr := if isErase j.what then .recordFlashEraseDone b ok else .recordFlashProgramDone b ok
    let other (ok : Bool) : Instr := if isErase j.what then .recordFlashProgramDone b ok else .recordFlashEraseDone b ok
    let rest (t : State) := t = { s with rf := t.rf, evt := t.evt, ctl := t.ctl, out := t.out, fresh := t.fresh }
    Does (c true) s (fun t => t.rf.banks[b] = flashEffect j.what s.rf.banks[b] ∧ (∀ o : Fin 2, o ≠ b → t.rf.banks[o] = s.rf.banks[o]) ∧ rest t) ∧
    Does (c false) s (fun t => t.rf.banks = s.rf.banks ∧ Shows t 14 10 ∧ rest t) ∧
    (∀ ok, Does (other ok) s (fun t => t = s))) ∧
  (∀ (s : State) (b : Fin 2) (ok : Bool), s.rf.busy[b] = none → Does (.recordFlashProgramDone b ok) s (fun t => t = s) ∧ Does (.recordFlashEraseDone b ok) s (fun t => t = s)) ∧
  (∀ (s : State) (e : Entry), nextEntry s.evt.queue = some e → logOpen s = true → s.boot.release = none → Does .eventLogWrite s (fun t =>
    JobPending t (s.rf.logAt % 2) (.entry s.rf.logAt { e with seq := s.evt.nextSeq, queued := decide (e.secs + 1 < s.dev.secs) }) ∧
    t.evt = { s.evt with queue := dropFirst (fun y => decide (y = e)) s.evt.queue, nextSeq := (s.evt.nextSeq + 1) % 2 ^ 32, quiet := s.dev.secs } ∧
    t = { s with evt := t.evt, rf := t.rf } ∧ t.rf.banks = s.rf.banks)) ∧
  (∀ (s : State) (hdr : List Byte) (n : Nat), logOpen s = true → s.boot.release = some (hdr, n) →
    (1 < n → 1 < s.evt.queue.length → Does .eventLogWrite s (fun t => t.boot = { s.boot with release := some (hdr, n - 1) } ∧ t.rf.banks = s.rf.banks ∧
      t.evt.nextSeq = (s.evt.nextSeq + 1) % 2 ^ 32)) ∧
    (n ≤ 1 ∨ s.evt.queue.length = 1 → s.evt.queue ≠ [] → Does .eventLogWrite s (fun t => t.boot.release = none ∧
      (s.boot.genGood < s.boot.genUsed → Shows t 1 12) ∧ (s.boot.genUsed < s.boot.genGood → Shows t 1 6 ∧ t.boot.rollback = true) ∧
      (s.boot.genUsed ≠ s.boot.genGood → s.rf.banks[0].header = none → s.rf.banks[1].header = none → JobPending t (firstBank s) (.header hdr) ∨
        JobPending t (1 - firstBank s) (.header hdr)) ∧ t.rf.banks = s.rf.banks))) ∧
  (∀ s : State, s.evt.queue = [] ∨ logOpen s = false → Does .eventLogWrite s (fun t => t = s)) ∧
  (∀ (s : State) (b : Fin 2) (sector corr unc : Nat), mayRefresh s = true → sector < 2047 → Does (.refresh b sector corr unc) s (fun t =>
    t.rf.corrected = sat 16 (s.rf.corrected + corr) ∧ t.rf.uncorrected = sat 16 (s.rf.uncorrected + unc) ∧ (0 < unc → Shows t 14 6) ∧
    (0 < corr → JobPending t b.val (.refresh sector 0)) ∧ (corr = 0 → t.rf.queue = s.rf.queue ∧ t.rf.busy = s.rf.busy) ∧ t.rf.banks = s.rf.banks ∧ t.map = s.map)) ∧
  (∀ (s : State) (p : Port), bar2Open s p = true → s.rf.queue = [] → Does (.hold p) s (fun t => t = { s with rf := { s.rf with hold := true } })) ∧
  (∀ (s : State) (j : FlashJob), s.rf.queue = [j] → s.rf.busy = Vector.replicate 2 none → j.bank < 2 → isErase j.what = true → outwardOpen s = true →
    Does .holdExpiry s (fun t => t.rf.hold = false ∧ t.rf.queue = [] ∧ vecAt t.rf.busy j.bank none = some j ∧ t.rf.banks = s.rf.banks ∧ t = { s with rf := t.rf }) ∧
    (∀ p, bar2Open s p = true → ownErase j.what = true → Does (.hold p) s (fun t => t = { s with rf := { s.rf with hold := true } })))

/-- What hosts ask of record flash (13 R362, R364, R366, R369 to R371, R373): the window reads the bank's words and counts flipped bits, and faults
while its bank is busy; RECF_CMD programs or erases in the custodian area or says why not; raising a level writes its record, a confirmed lowering
erases first; a pin writes its record. At level 2 the boundary-scan port has BYPASS or IDCODE in force (R369; 16 R441; the port is log entry 65). -/
def Obligations.RecordFlashHost : Prop :=
  (∀ s : State, (level s = 2 → tapInstr s = .bypass ∨ tapInstr s = .idcode) ∧ (level s ≠ 2 → tapInstr s = s.tap.instr) ∧
    ∀ tms tdi, s.tap.state = .irUpdate → (tapClock tms tdi s).tap.instr = tapDecode s.tap.shift) ∧
  (∀ (s : State) (p : Port), bar2Open s p = true →
    (∀ off, windowFaults s off = true → Does (.recwinRead p off []) s (fun t => Out.abort p ∈ t.out ∧ Shows t 14 3 ∧
      ReportsOnly { s with rf := { s.rf with faults := inc 16 s.rf.faults } } t)) ∧
    (∀ off, windowFaults s off = false →
      Does (.recwinRead p off []) s (fun t => t = { s with out := .reg p (windowWord s off) :: s.out }) ∧
      (levelHides (level s) (off % 0x800000) = false → ∀ a b,
        Does (.recwinRead p off [a]) s (fun t => t = { s with rf := { s.rf with corrected := inc 16 s.rf.corrected }, out := .reg p (windowWord s off) :: s.out }) ∧
        Does (.recwinRead p off [a, b]) s (fun t => Shows t 14 6 ∧ Out.reg p (windowWord s off ^^^ flipped off [a, b]) ∈ t.out ∧
          ReportsOnly { s with rf := { s.rf with uncorrected := inc 16 s.rf.uncorrected } } t))) ∧
    (∀ off v, Does (.recwinWrite p off v) s (fun t => t = { s with rf := { s.rf with wrIgnored := true } })) ∧
    (∀ v, ∀ c ∈ [Instr.program p v, .erase p v],
      let op := field v.toNat 1 0
      let b := field v.toNat 2 2
      let sec := field v.toNat 13 3
      let page := field v.toNat 17 14
      (bit v.toNat 31 = false ∨ (op ≠ 1 ∧ op ≠ 2) → Does c s (fun t => t = s)) ∧
      (bit v.toNat 31 = true → op = 1 ∨ op = 2 →
        (∀ r, cmdRefusal s op b sec page = some r → Does c s (fun t => t = { s with rf := { s.rf with cmdState := 3, cmdErr := r } })) ∧
        (cmdRefusal s op b sec page = none → Does c s (fun t => t.rf.cmdState = 1 ∧ t.rf.cmdErr = 0 ∧ t.rf.banks = s.rf.banks ∧ t = { s with rf := t.rf } ∧
          JobPending t b (if op = 1 then .page (4096 * sec + 256 * page) s.rf.page else .eraseSector sec))))) ∧
    (∀ v, ∀ c ∈ [Instr.levelRaise p v, .levelLower p v],
      let new := v.toNat % 4
      (new = 3 ∨ new = level s → Does c s (fun t => t = s)) ∧
      (new ≠ 3 → level s < new → s.rf.lstate = 0 → Does c s (fun t => JobPending t (firstBank s) (.record (newRec s 0x4C new 0 0)) ∧ t = { s with rf := t.rf } ∧
        t.rf.banks = s.rf.banks)) ∧
      (new < level s → v.toNat / 65536 ≠ 0xE5A5 → Does c s (fun t => t = s)) ∧
      (new < level s → v.toNat / 65536 = 0xE5A5 →
        (s.safe.stopper = true ∨ s.rf.lstate ≠ 0 ∨ s.stage.isSome = true → Does c s (fun t => t = { s with rf := { s.rf with lowRefused := true } })) ∧
        (s.safe.stopper = false → s.rf.lstate = 0 → s.stage = none → Does c s (fun t => t.rf.lstate = 1 ∧ t.rf.lowTo = new ∧ JobPending t 1 (.eraseBank false) ∧
          (∀ i : Fin 16, t.cleat.ctx[i] = none) ∧ t.rf.banks = s.rf.banks ∧ t = { s with rf := t.rf, cleat := t.cleat })))) ∧
    (∀ v gen : Word, v.getLsbD 31 = true → s.rf.lstate = 0 →
      (v.getLsbD 1 = false →
        Does (.pin p v gen) s (fun t => t = { s with rf := t.rf } ∧ t.rf.pinGen = gen ∧ JobPending t (firstBank s) (.record (newRec s 0x50 (v.toNat % 2) 0 gen.toNat)))) ∧
      (v.getLsbD 1 = true → Does (.unpin p v) s (fun t => t = { s with rf := t.rf } ∧ JobPending t (firstBank s) (.record (newRec s 0x55 0 0 0))))))

/-- R225, R226, R228: the scrambler and the LDPC code. The keystream of a seed is the seed's 23 bits and then the recurrence, bit t of a segment is XORed with
bit t of it, and scrambling twice gives the segment back; each segment of a slot is scrambled with the seed of its place. Bit t of P^s(v) is bit (t + s) mod 512
of v; s_i is the XOR of P^shift(u_j) over the columns j with an entry in row i, p_0 is s_0 and p_i is s_i XOR p_(i-1), and the codeword is the scrambled
segments and then the parity segments; a word is a codeword exactly when every row's sum is zero, which of the words with given information segments only
the encoded one has. -/
def Obligations.ScramblerAndCode : Prop :=
  (∀ seed n : Nat, n < 512 → seed < 2 ^ 23 → (keyBits 512 seed).testBit n =
    if n < 23 then seed.testBit n else ((keyBits 512 seed).testBit (n - 5) ^^ (keyBits 512 seed).testBit (n - 23))) ∧
  (∀ (seed t : Nat) (v : Segment), t < 512 → (scramble seed v).getLsbD t = (v.getLsbD t ^^ (keyBits 512 seed).testBit t)) ∧
  (∀ (seed : Nat) (v : Segment), scramble seed (scramble seed v) = v) ∧
  (∀ addr page slot seg : Nat, addr < 2 ^ 23 → page * 1024 + slot * 128 + seg < 2 ^ 23 →
    scrSeed addr page slot seg = if addr = page * 1024 + slot * 128 + seg then 0x7FFFFF else addr ^^^ (page * 1024 + slot * 128 + seg)) ∧
  (∀ (addr page slot k : Nat) (x : Slot), k < 66 → (slotSegments addr page slot x)[k]? =
    some (scramble (scrSeed addr page slot k) (segOf (((infoPart x).drop (64 * k)).take 64)))) ∧
  (∀ (s t : Nat) (v : Segment), s < 512 → t < 512 → (segShift s v).getLsbD t = v.getLsbD ((t + s) % 512)) ∧
  (∀ (m i : Nat) (us : List Segment) (u : Segment), rowSum m i [] = 0#512 ∧ rowSum m i (us ++ [u]) =
    rowSum m i us ^^^ (if i ∈ ldpcRows m us.length then segShift (ldpcShift i us.length) u else 0#512)) ∧
  (∀ (m addr page slot : Nat) (x : Slot), codeword m addr page slot x =
    (slotSegments addr page slot x).flatMap segBytes ++ (ldpcParity m (slotSegments addr page slot x)).flatMap segBytes) ∧
  (∀ (m : Nat) (us ps : List Segment), isCodeword m us ps = true ↔ ∀ i < m,
    rowSum m i us ^^^ nth ps i 0#512 ^^^ (if i = 0 then 0#512 else nth ps (i - 1) 0#512) = 0#512) ∧
  (∀ (m : Nat) (us : List Segment), 0 < m → (ldpcParity m us).length = m ∧ (ldpcParity m us)[0]? = some (rowSum m 0 us) ∧
    (∀ i, i + 1 < m → ∃ p q, (ldpcParity m us)[i]? = some p ∧ (ldpcParity m us)[i + 1]? = some q ∧ q = rowSum m (i + 1) us ^^^ p) ∧
    ∀ ps : List Segment, ps.length = m → (isCodeword m us ps = true ↔ ps = ldpcParity m us))

/-- R373: a confirmed lowering is refused in the stopper state, and while a lowering or a staging runs; the refused write sets LOWER_REFUSED, and changes
nothing else. -/
def Obligations.LoweringRefused : Prop :=
  ∀ (s : State) (p : Port) (v : Word), bar2Open s p = true → v.toNat % 4 < level s → v.toNat / 65536 = 0xE5A5 →
      s.safe.stopper = true ∨ s.rf.lstate ≠ 0 ∨ s.stage.isSome = true →
    ∀ c ∈ [Instr.levelLower p v, .levelRaise p v, .registerWrite p 0xC0004 v],
      Does c s (fun t => t = { s with rf := { s.rf with lowRefused := true } })

/-- A step takes the command at the front of the queue and is exec of it on the state with the queue's rest. -/
def Obligations.StepRunsFront : Prop :=
  ∀ (c : Instr) (rest : List Instr) (s : State), step { s with pending := c :: rest } = exec c { s with pending := rest }

/-- The state after reset has the forms that every step keeps: the canonical custodian areas, new names, lists of their fixed lengths; its queue is empty, READY
is low, no event has been raised, and the LOG bits of ERROR and DANGER events are 1 (15 R409). -/
def Obligations.ResetForms : Prop :=
  (∀ b : Fin 2, Memory.wf State.reset.rf.banks[b].cust = true) ∧ NamesNew State.reset ∧ FusedWait State.reset ∧ Shaped State.reset ∧
  State.reset.pending = [] ∧ State.reset.boot.ready = false ∧ (∀ g : Fin 16, State.reset.evt.status[g] = 0#32) ∧
  (∀ g : Fin 16, State.reset.evt.log[g] &&& severeMask g.val = severeMask g.val)

/-- Every step keeps the custodian areas of record flash in canonical form: offsets rising, and no byte listed that reads as erased (13 R359, R366). -/
def Obligations.CustodianFormKept : Prop :=
  ∀ s t : State, (∀ b : Fin 2, Memory.wf s.rf.banks[b].cust = true) → step s = .next t → ∀ b : Fin 2, Memory.wf t.rf.banks[b].cust = true

/-- Every step keeps the names of commands and extents apart and below the next one, and every fused pair that has not completed waits for its block (01 R27; 04
R113; the names are the model's own). -/
def Obligations.NamesKept : Prop :=
  ∀ s t : State, NamesNew s → FusedWait s → step s = .next t → NamesNew t ∧ FusedWait t

/-- Every step keeps the lists that stand for a fixed number of like things at their lengths, and the throttle steps at most 3 (07 R198; 11 R326, R329; 12
R333, R340, R351). No well-formed command stops: in every state exec of it answers a next state. -/
def Obligations.ShapeKept : Prop :=
  (∀ s t : State, Shaped s → step s = .next t → Shaped t) ∧ (∀ (c : Instr) (s : State), wellFormed c = true → ∃ t, exec c s = .next t)
end

