-- ==== Sys2Proof/Laws/Custodian.lean ====
section
/-! SUPPORT. Every operation on a custodian area keeps its canonical form, and a byte written is the byte read (13 R359, R366): `custPut`, `custWrite`,
`custErase`, and with them every effect of a record-flash operation. -/

namespace Sys2Proof.Machine

open Sys2Proof

/-- The canonical form of a longer list: what it says of the head, and the form of the rest. -/
theorem wf_cons (c : Host.Cell) (m : List Host.Cell) :
    Memory.wf (c :: m) = true ↔ c.2 ≠ 0xFF#8 ∧ (∀ d ∈ m, c.1 < d.1) ∧ Memory.wf m = true := by
  induction m generalizing c with
  | nil => simp [Memory.wf]
  | cons d m ih =>
    simp only [Memory.wf, Bool.and_eq_true, decide_eq_true_eq]
    rw [ih d]
    constructor
    · rintro ⟨⟨h1, h2⟩, h3, h4, h5⟩
      refine ⟨h2, ?_, h3, h4, h5⟩
      intro e he
      rcases List.mem_cons.mp he with rfl | he
      · exact h1
      · exact Nat.lt_trans h1 (h4 e he)
    · rintro ⟨h2, h1, h3, h4, h5⟩
      exact ⟨⟨h1 d (List.mem_cons_self ..), h2⟩, h3, h4, h5⟩

theorem wf_nil : Memory.wf [] = true := rfl

/-- A part of a list in canonical form is in canonical form. -/
theorem wf_filter (p : Host.Cell → Bool) (m : List Host.Cell) (h : Memory.wf m = true) : Memory.wf (m.filter p) = true := by
  induction m with
  | nil => rfl
  | cons c m ih =>
    obtain ⟨h1, h2, h3⟩ := (wf_cons c m).mp h
    rw [List.filter_cons]
    split
    · exact (wf_cons _ _).mpr ⟨h1, fun d hd => h2 d (List.mem_filter.mp hd).1, ih h3⟩
    · exact ih h3

theorem kvPut_mem {α : Type} (m : List (Nat × α)) (k : Nat) (v : α) (d : Nat × α) (h : d ∈ kvPut m k v) : d = (k, v) ∨ d ∈ m := by
  induction m with
  | nil => simpa [kvPut] using h
  | cons c m ih =>
    obtain ⟨c1, c2⟩ := c
    unfold kvPut at h
    split at h
    · simpa using h
    · split at h
      · rcases List.mem_cons.mp h with h | h
        · exact .inl h
        · exact .inr (List.mem_cons_of_mem _ h)
      · rcases List.mem_cons.mp h with h | h
        · exact .inr (h ▸ List.mem_cons_self ..)
        · exact (ih h).imp id (List.mem_cons_of_mem _)

theorem wf_kvPut (m : List Host.Cell) (k : Nat) (v : Byte) (hv : v ≠ 0xFF#8) (h : Memory.wf m = true) :
    Memory.wf (kvPut m k v : List Host.Cell) = true := by
  induction m with
  | nil => simp [kvPut, Memory.wf, hv]
  | cons c m ih =>
    obtain ⟨h1, h2, h3⟩ := (wf_cons c m).mp h
    obtain ⟨c1, c2⟩ := c
    unfold kvPut
    split
    · refine (wf_cons _ _).mpr ⟨hv, fun d hd => ?_, h⟩
      rcases List.mem_cons.mp hd with rfl | hd
      · assumption
      · exact Nat.lt_trans (by assumption) (h2 d hd)
    · split
      · rename_i _ he
        exact (wf_cons _ _).mpr ⟨hv, fun d hd => he ▸ h2 d hd, h3⟩
      · refine (wf_cons _ _).mpr ⟨h1, fun d hd => ?_, ih h3⟩
        rcases kvPut_mem m k v d hd with rfl | hd
        · show c1 < k; omega
        · exact h2 d hd

/-- One byte written keeps the canonical form. -/
theorem wf_custPut (m : List Host.Cell) (off : Nat) (b : Byte) (h : Memory.wf m = true) : Memory.wf (custPut m off b) = true := by
  unfold custPut
  split
  · exact wf_filter _ m h
  · exact wf_kvPut m off b (by assumption) h

/-- Bytes written keep the canonical form. -/
theorem wf_custWrite (bs : List Byte) (m : List Host.Cell) (off : Nat) (h : Memory.wf m = true) : Memory.wf (custWrite m off bs) = true := by
  induction bs generalizing m off with
  | nil => exact h
  | cons b bs ih => exact ih _ _ (wf_custPut m off b h)

/-- A range erased keeps the canonical form. -/
theorem wf_custErase (m : List Host.Cell) (off n : Nat) (h : Memory.wf m = true) : Memory.wf (custErase m off n) = true := wf_filter _ m h

/-- A sector erased keeps the canonical form. -/
theorem wf_eraseSectorOf (n : Nat) (b : Bank) (h : Memory.wf b.cust = true) : Memory.wf (eraseSectorOf n b).cust = true := by
  unfold eraseSectorOf
  repeat' split
  all_goals first | exact h | exact wf_custErase _ _ _ h

/-- Every effect of a record-flash operation keeps the canonical form. -/
theorem wf_flashEffect (w : FlashWhat) (b : Bank) (h : Memory.wf b.cust = true) : Memory.wf (flashEffect w b).cust = true := by
  unfold flashEffect
  split
  all_goals first
    | exact h
    | exact wf_custWrite _ _ _ h
    | exact wf_eraseSectorOf _ _ h
    | (split <;> first | exact h | rfl)

theorem kvGet_kvPut {α : Type} (m : List (Nat × α)) (k j : Nat) (v : α) : kvGet (kvPut m k v) j = if j = k then some v else kvGet m j := by
  induction m with
  | nil => simp [kvPut, kvGet, eq_comm]
  | cons c m ih =>
    obtain ⟨c1, c2⟩ := c
    unfold kvPut
    split
    · simp [kvGet, eq_comm]
    · split
      · simp only [kvGet]; grind
      · simp only [kvGet]; rw [ih]; grind

theorem kvGet_kvDel {α : Type} (m : List (Nat × α)) (k j : Nat) : kvGet (kvDel m k) j = if j = k then none else kvGet m j := by
  unfold kvDel
  induction m with
  | nil => simp [kvGet]
  | cons c m ih =>
    obtain ⟨c1, c2⟩ := c
    rw [List.filter_cons]
    split <;> simp only [kvGet] <;> grind

/-- A byte read after one byte is written: the byte written at its offset, and at every other offset the byte as before. -/
theorem custByte_put (b : Bank) (off j : Nat) (v : Byte) :
    custByte { b with cust := custPut b.cust off v } j = if j = off then v else custByte b j := by
  unfold custByte custPut
  split
  · rename_i h
    show ((kvGet (kvDel b.cust off) j).getD 0xFF#8) = _
    rw [kvGet_kvDel, h]; split <;> rfl
  · show ((kvGet (kvPut b.cust off v) j).getD 0xFF#8) = _
    rw [kvGet_kvPut]; split <;> rfl

end Sys2Proof.Machine
end

