-- ==== Sys2Proof/Laws/State.lean ====
section
/-! SUPPORT. One lemma for each field after each single-field update: the field that the update names is the function of
what it was, and every other field is unchanged. -/

namespace Sys2Proof.Machine

variable (s : State)

@[simp] theorem onHly_hly (f : Halyard → Halyard) : (onHly f s).hly = f s.hly := rfl
@[simp] theorem onHly_pwr (f : Halyard → Halyard) : (onHly f s).pwr = s.pwr := rfl
@[simp] theorem onHly_flush (f : Halyard → Halyard) : (onHly f s).flush = s.flush := rfl
@[simp] theorem onHly_cfg (f : Halyard → Halyard) : (onHly f s).cfg = s.cfg := rfl
@[simp] theorem onHly_boot (f : Halyard → Halyard) : (onHly f s).boot = s.boot := rfl
@[simp] theorem onHly_stage (f : Halyard → Halyard) : (onHly f s).stage = s.stage := rfl
@[simp] theorem onHly_prm (f : Halyard → Halyard) : (onHly f s).prm = s.prm := rfl
@[simp] theorem onHly_ctl (f : Halyard → Halyard) : (onHly f s).ctl = s.ctl := rfl
@[simp] theorem onHly_cmds (f : Halyard → Halyard) : (onHly f s).cmds = s.cmds := rfl
@[simp] theorem onHly_resv (f : Halyard → Halyard) : (onHly f s).resv = s.resv := rfl
@[simp] theorem onHly_hold (f : Halyard → Halyard) : (onHly f s).hold = s.hold := rfl
@[simp] theorem onHly_ptpl (f : Halyard → Halyard) : (onHly f s).ptpl = s.ptpl := rfl
@[simp] theorem onHly_orders (f : Halyard → Halyard) : (onHly f s).orders = s.orders := rfl
@[simp] theorem onHly_exts (f : Halyard → Halyard) : (onHly f s).exts = s.exts := rfl
@[simp] theorem onHly_smb (f : Halyard → Halyard) : (onHly f s).smb = s.smb := rfl
@[simp] theorem onHly_hx (f : Halyard → Halyard) : (onHly f s).hx = s.hx := rfl
@[simp] theorem onHly_jrnl (f : Halyard → Halyard) : (onHly f s).jrnl = s.jrnl := rfl
@[simp] theorem onHly_map (f : Halyard → Halyard) : (onHly f s).map = s.map := rfl
@[simp] theorem onHly_media (f : Halyard → Halyard) : (onHly f s).media = s.media := rfl
@[simp] theorem onHly_peer (f : Halyard → Halyard) : (onHly f s).peer = s.peer := rfl
@[simp] theorem onHly_braid (f : Halyard → Halyard) : (onHly f s).braid = s.braid := rfl
@[simp] theorem onHly_ps (f : Halyard → Halyard) : (onHly f s).ps = s.ps := rfl
@[simp] theorem onHly_therm (f : Halyard → Halyard) : (onHly f s).therm = s.therm := rfl
@[simp] theorem onHly_rf (f : Halyard → Halyard) : (onHly f s).rf = s.rf := rfl
@[simp] theorem onHly_cleat (f : Halyard → Halyard) : (onHly f s).cleat = s.cleat := rfl
@[simp] theorem onHly_safe (f : Halyard → Halyard) : (onHly f s).safe = s.safe := rfl
@[simp] theorem onHly_evt (f : Halyard → Halyard) : (onHly f s).evt = s.evt := rfl
@[simp] theorem onHly_dev (f : Halyard → Halyard) : (onHly f s).dev = s.dev := rfl
@[simp] theorem onHly_aon (f : Halyard → Halyard) : (onHly f s).aon = s.aon := rfl
@[simp] theorem onHly_pins (f : Halyard → Halyard) : (onHly f s).pins = s.pins := rfl
@[simp] theorem onHly_tap (f : Halyard → Halyard) : (onHly f s).tap = s.tap := rfl
@[simp] theorem onHly_out (f : Halyard → Halyard) : (onHly f s).out = s.out := rfl
@[simp] theorem onHly_fresh (f : Halyard → Halyard) : (onHly f s).fresh = s.fresh := rfl
@[simp] theorem onHly_pending (f : Halyard → Halyard) : (onHly f s).pending = s.pending := rfl
@[simp] theorem onPwr_hly (f : Power → Power) : (onPwr f s).hly = s.hly := rfl
@[simp] theorem onPwr_pwr (f : Power → Power) : (onPwr f s).pwr = f s.pwr := rfl
@[simp] theorem onPwr_flush (f : Power → Power) : (onPwr f s).flush = s.flush := rfl
@[simp] theorem onPwr_cfg (f : Power → Power) : (onPwr f s).cfg = s.cfg := rfl
@[simp] theorem onPwr_boot (f : Power → Power) : (onPwr f s).boot = s.boot := rfl
@[simp] theorem onPwr_stage (f : Power → Power) : (onPwr f s).stage = s.stage := rfl
@[simp] theorem onPwr_prm (f : Power → Power) : (onPwr f s).prm = s.prm := rfl
@[simp] theorem onPwr_ctl (f : Power → Power) : (onPwr f s).ctl = s.ctl := rfl
@[simp] theorem onPwr_cmds (f : Power → Power) : (onPwr f s).cmds = s.cmds := rfl
@[simp] theorem onPwr_resv (f : Power → Power) : (onPwr f s).resv = s.resv := rfl
@[simp] theorem onPwr_hold (f : Power → Power) : (onPwr f s).hold = s.hold := rfl
@[simp] theorem onPwr_ptpl (f : Power → Power) : (onPwr f s).ptpl = s.ptpl := rfl
@[simp] theorem onPwr_orders (f : Power → Power) : (onPwr f s).orders = s.orders := rfl
@[simp] theorem onPwr_exts (f : Power → Power) : (onPwr f s).exts = s.exts := rfl
@[simp] theorem onPwr_smb (f : Power → Power) : (onPwr f s).smb = s.smb := rfl
@[simp] theorem onPwr_hx (f : Power → Power) : (onPwr f s).hx = s.hx := rfl
@[simp] theorem onPwr_jrnl (f : Power → Power) : (onPwr f s).jrnl = s.jrnl := rfl
@[simp] theorem onPwr_map (f : Power → Power) : (onPwr f s).map = s.map := rfl
@[simp] theorem onPwr_media (f : Power → Power) : (onPwr f s).media = s.media := rfl
@[simp] theorem onPwr_peer (f : Power → Power) : (onPwr f s).peer = s.peer := rfl
@[simp] theorem onPwr_braid (f : Power → Power) : (onPwr f s).braid = s.braid := rfl
@[simp] theorem onPwr_ps (f : Power → Power) : (onPwr f s).ps = s.ps := rfl
@[simp] theorem onPwr_therm (f : Power → Power) : (onPwr f s).therm = s.therm := rfl
@[simp] theorem onPwr_rf (f : Power → Power) : (onPwr f s).rf = s.rf := rfl
@[simp] theorem onPwr_cleat (f : Power → Power) : (onPwr f s).cleat = s.cleat := rfl
@[simp] theorem onPwr_safe (f : Power → Power) : (onPwr f s).safe = s.safe := rfl
@[simp] theorem onPwr_evt (f : Power → Power) : (onPwr f s).evt = s.evt := rfl
@[simp] theorem onPwr_dev (f : Power → Power) : (onPwr f s).dev = s.dev := rfl
@[simp] theorem onPwr_aon (f : Power → Power) : (onPwr f s).aon = s.aon := rfl
@[simp] theorem onPwr_pins (f : Power → Power) : (onPwr f s).pins = s.pins := rfl
@[simp] theorem onPwr_tap (f : Power → Power) : (onPwr f s).tap = s.tap := rfl
@[simp] theorem onPwr_out (f : Power → Power) : (onPwr f s).out = s.out := rfl
@[simp] theorem onPwr_fresh (f : Power → Power) : (onPwr f s).fresh = s.fresh := rfl
@[simp] theorem onPwr_pending (f : Power → Power) : (onPwr f s).pending = s.pending := rfl
@[simp] theorem onFlush_hly (f : Option Flush → Option Flush) : (onFlush f s).hly = s.hly := rfl
@[simp] theorem onFlush_pwr (f : Option Flush → Option Flush) : (onFlush f s).pwr = s.pwr := rfl
@[simp] theorem onFlush_flush (f : Option Flush → Option Flush) : (onFlush f s).flush = f s.flush := rfl
@[simp] theorem onFlush_cfg (f : Option Flush → Option Flush) : (onFlush f s).cfg = s.cfg := rfl
@[simp] theorem onFlush_boot (f : Option Flush → Option Flush) : (onFlush f s).boot = s.boot := rfl
@[simp] theorem onFlush_stage (f : Option Flush → Option Flush) : (onFlush f s).stage = s.stage := rfl
@[simp] theorem onFlush_prm (f : Option Flush → Option Flush) : (onFlush f s).prm = s.prm := rfl
@[simp] theorem onFlush_ctl (f : Option Flush → Option Flush) : (onFlush f s).ctl = s.ctl := rfl
@[simp] theorem onFlush_cmds (f : Option Flush → Option Flush) : (onFlush f s).cmds = s.cmds := rfl
@[simp] theorem onFlush_resv (f : Option Flush → Option Flush) : (onFlush f s).resv = s.resv := rfl
@[simp] theorem onFlush_hold (f : Option Flush → Option Flush) : (onFlush f s).hold = s.hold := rfl
@[simp] theorem onFlush_ptpl (f : Option Flush → Option Flush) : (onFlush f s).ptpl = s.ptpl := rfl
@[simp] theorem onFlush_orders (f : Option Flush → Option Flush) : (onFlush f s).orders = s.orders := rfl
@[simp] theorem onFlush_exts (f : Option Flush → Option Flush) : (onFlush f s).exts = s.exts := rfl
@[simp] theorem onFlush_smb (f : Option Flush → Option Flush) : (onFlush f s).smb = s.smb := rfl
@[simp] theorem onFlush_hx (f : Option Flush → Option Flush) : (onFlush f s).hx = s.hx := rfl
@[simp] theorem onFlush_jrnl (f : Option Flush → Option Flush) : (onFlush f s).jrnl = s.jrnl := rfl
@[simp] theorem onFlush_map (f : Option Flush → Option Flush) : (onFlush f s).map = s.map := rfl
@[simp] theorem onFlush_media (f : Option Flush → Option Flush) : (onFlush f s).media = s.media := rfl
@[simp] theorem onFlush_peer (f : Option Flush → Option Flush) : (onFlush f s).peer = s.peer := rfl
@[simp] theorem onFlush_braid (f : Option Flush → Option Flush) : (onFlush f s).braid = s.braid := rfl
@[simp] theorem onFlush_ps (f : Option Flush → Option Flush) : (onFlush f s).ps = s.ps := rfl
@[simp] theorem onFlush_therm (f : Option Flush → Option Flush) : (onFlush f s).therm = s.therm := rfl
@[simp] theorem onFlush_rf (f : Option Flush → Option Flush) : (onFlush f s).rf = s.rf := rfl
@[simp] theorem onFlush_cleat (f : Option Flush → Option Flush) : (onFlush f s).cleat = s.cleat := rfl
@[simp] theorem onFlush_safe (f : Option Flush → Option Flush) : (onFlush f s).safe = s.safe := rfl
@[simp] theorem onFlush_evt (f : Option Flush → Option Flush) : (onFlush f s).evt = s.evt := rfl
@[simp] theorem onFlush_dev (f : Option Flush → Option Flush) : (onFlush f s).dev = s.dev := rfl
@[simp] theorem onFlush_aon (f : Option Flush → Option Flush) : (onFlush f s).aon = s.aon := rfl
@[simp] theorem onFlush_pins (f : Option Flush → Option Flush) : (onFlush f s).pins = s.pins := rfl
@[simp] theorem onFlush_tap (f : Option Flush → Option Flush) : (onFlush f s).tap = s.tap := rfl
@[simp] theorem onFlush_out (f : Option Flush → Option Flush) : (onFlush f s).out = s.out := rfl
@[simp] theorem onFlush_fresh (f : Option Flush → Option Flush) : (onFlush f s).fresh = s.fresh := rfl
@[simp] theorem onFlush_pending (f : Option Flush → Option Flush) : (onFlush f s).pending = s.pending := rfl
@[simp] theorem onCfg_hly (f : Vector (List (List Byte)) 2 → Vector (List (List Byte)) 2) : (onCfg f s).hly = s.hly := rfl
@[simp] theorem onCfg_pwr (f : Vector (List (List Byte)) 2 → Vector (List (List Byte)) 2) : (onCfg f s).pwr = s.pwr := rfl
@[simp] theorem onCfg_flush (f : Vector (List (List Byte)) 2 → Vector (List (List Byte)) 2) : (onCfg f s).flush = s.flush := rfl
@[simp] theorem onCfg_cfg (f : Vector (List (List Byte)) 2 → Vector (List (List Byte)) 2) : (onCfg f s).cfg = f s.cfg := rfl
@[simp] theorem onCfg_boot (f : Vector (List (List Byte)) 2 → Vector (List (List Byte)) 2) : (onCfg f s).boot = s.boot := rfl
@[simp] theorem onCfg_stage (f : Vector (List (List Byte)) 2 → Vector (List (List Byte)) 2) : (onCfg f s).stage = s.stage := rfl
@[simp] theorem onCfg_prm (f : Vector (List (List Byte)) 2 → Vector (List (List Byte)) 2) : (onCfg f s).prm = s.prm := rfl
@[simp] theorem onCfg_ctl (f : Vector (List (List Byte)) 2 → Vector (List (List Byte)) 2) : (onCfg f s).ctl = s.ctl := rfl
@[simp] theorem onCfg_cmds (f : Vector (List (List Byte)) 2 → Vector (List (List Byte)) 2) : (onCfg f s).cmds = s.cmds := rfl
@[simp] theorem onCfg_resv (f : Vector (List (List Byte)) 2 → Vector (List (List Byte)) 2) : (onCfg f s).resv = s.resv := rfl
@[simp] theorem onCfg_hold (f : Vector (List (List Byte)) 2 → Vector (List (List Byte)) 2) : (onCfg f s).hold = s.hold := rfl
@[simp] theorem onCfg_ptpl (f : Vector (List (List Byte)) 2 → Vector (List (List Byte)) 2) : (onCfg f s).ptpl = s.ptpl := rfl
@[simp] theorem onCfg_orders (f : Vector (List (List Byte)) 2 → Vector (List (List Byte)) 2) : (onCfg f s).orders = s.orders := rfl
@[simp] theorem onCfg_exts (f : Vector (List (List Byte)) 2 → Vector (List (List Byte)) 2) : (onCfg f s).exts = s.exts := rfl
@[simp] theorem onCfg_smb (f : Vector (List (List Byte)) 2 → Vector (List (List Byte)) 2) : (onCfg f s).smb = s.smb := rfl
@[simp] theorem onCfg_hx (f : Vector (List (List Byte)) 2 → Vector (List (List Byte)) 2) : (onCfg f s).hx = s.hx := rfl
@[simp] theorem onCfg_jrnl (f : Vector (List (List Byte)) 2 → Vector (List (List Byte)) 2) : (onCfg f s).jrnl = s.jrnl := rfl
@[simp] theorem onCfg_map (f : Vector (List (List Byte)) 2 → Vector (List (List Byte)) 2) : (onCfg f s).map = s.map := rfl
@[simp] theorem onCfg_media (f : Vector (List (List Byte)) 2 → Vector (List (List Byte)) 2) : (onCfg f s).media = s.media := rfl
@[simp] theorem onCfg_peer (f : Vector (List (List Byte)) 2 → Vector (List (List Byte)) 2) : (onCfg f s).peer = s.peer := rfl
@[simp] theorem onCfg_braid (f : Vector (List (List Byte)) 2 → Vector (List (List Byte)) 2) : (onCfg f s).braid = s.braid := rfl
@[simp] theorem onCfg_ps (f : Vector (List (List Byte)) 2 → Vector (List (List Byte)) 2) : (onCfg f s).ps = s.ps := rfl
@[simp] theorem onCfg_therm (f : Vector (List (List Byte)) 2 → Vector (List (List Byte)) 2) : (onCfg f s).therm = s.therm := rfl
@[simp] theorem onCfg_rf (f : Vector (List (List Byte)) 2 → Vector (List (List Byte)) 2) : (onCfg f s).rf = s.rf := rfl
@[simp] theorem onCfg_cleat (f : Vector (List (List Byte)) 2 → Vector (List (List Byte)) 2) : (onCfg f s).cleat = s.cleat := rfl
@[simp] theorem onCfg_safe (f : Vector (List (List Byte)) 2 → Vector (List (List Byte)) 2) : (onCfg f s).safe = s.safe := rfl
@[simp] theorem onCfg_evt (f : Vector (List (List Byte)) 2 → Vector (List (List Byte)) 2) : (onCfg f s).evt = s.evt := rfl
@[simp] theorem onCfg_dev (f : Vector (List (List Byte)) 2 → Vector (List (List Byte)) 2) : (onCfg f s).dev = s.dev := rfl
@[simp] theorem onCfg_aon (f : Vector (List (List Byte)) 2 → Vector (List (List Byte)) 2) : (onCfg f s).aon = s.aon := rfl
@[simp] theorem onCfg_pins (f : Vector (List (List Byte)) 2 → Vector (List (List Byte)) 2) : (onCfg f s).pins = s.pins := rfl
@[simp] theorem onCfg_tap (f : Vector (List (List Byte)) 2 → Vector (List (List Byte)) 2) : (onCfg f s).tap = s.tap := rfl
@[simp] theorem onCfg_out (f : Vector (List (List Byte)) 2 → Vector (List (List Byte)) 2) : (onCfg f s).out = s.out := rfl
@[simp] theorem onCfg_fresh (f : Vector (List (List Byte)) 2 → Vector (List (List Byte)) 2) : (onCfg f s).fresh = s.fresh := rfl
@[simp] theorem onCfg_pending (f : Vector (List (List Byte)) 2 → Vector (List (List Byte)) 2) : (onCfg f s).pending = s.pending := rfl
@[simp] theorem onBoot_hly (f : Boot → Boot) : (onBoot f s).hly = s.hly := rfl
@[simp] theorem onBoot_pwr (f : Boot → Boot) : (onBoot f s).pwr = s.pwr := rfl
@[simp] theorem onBoot_flush (f : Boot → Boot) : (onBoot f s).flush = s.flush := rfl
@[simp] theorem onBoot_cfg (f : Boot → Boot) : (onBoot f s).cfg = s.cfg := rfl
@[simp] theorem onBoot_boot (f : Boot → Boot) : (onBoot f s).boot = f s.boot := rfl
@[simp] theorem onBoot_stage (f : Boot → Boot) : (onBoot f s).stage = s.stage := rfl
@[simp] theorem onBoot_prm (f : Boot → Boot) : (onBoot f s).prm = s.prm := rfl
@[simp] theorem onBoot_ctl (f : Boot → Boot) : (onBoot f s).ctl = s.ctl := rfl
@[simp] theorem onBoot_cmds (f : Boot → Boot) : (onBoot f s).cmds = s.cmds := rfl
@[simp] theorem onBoot_resv (f : Boot → Boot) : (onBoot f s).resv = s.resv := rfl
@[simp] theorem onBoot_hold (f : Boot → Boot) : (onBoot f s).hold = s.hold := rfl
@[simp] theorem onBoot_ptpl (f : Boot → Boot) : (onBoot f s).ptpl = s.ptpl := rfl
@[simp] theorem onBoot_orders (f : Boot → Boot) : (onBoot f s).orders = s.orders := rfl
@[simp] theorem onBoot_exts (f : Boot → Boot) : (onBoot f s).exts = s.exts := rfl
@[simp] theorem onBoot_smb (f : Boot → Boot) : (onBoot f s).smb = s.smb := rfl
@[simp] theorem onBoot_hx (f : Boot → Boot) : (onBoot f s).hx = s.hx := rfl
@[simp] theorem onBoot_jrnl (f : Boot → Boot) : (onBoot f s).jrnl = s.jrnl := rfl
@[simp] theorem onBoot_map (f : Boot → Boot) : (onBoot f s).map = s.map := rfl
@[simp] theorem onBoot_media (f : Boot → Boot) : (onBoot f s).media = s.media := rfl
@[simp] theorem onBoot_peer (f : Boot → Boot) : (onBoot f s).peer = s.peer := rfl
@[simp] theorem onBoot_braid (f : Boot → Boot) : (onBoot f s).braid = s.braid := rfl
@[simp] theorem onBoot_ps (f : Boot → Boot) : (onBoot f s).ps = s.ps := rfl
@[simp] theorem onBoot_therm (f : Boot → Boot) : (onBoot f s).therm = s.therm := rfl
@[simp] theorem onBoot_rf (f : Boot → Boot) : (onBoot f s).rf = s.rf := rfl
@[simp] theorem onBoot_cleat (f : Boot → Boot) : (onBoot f s).cleat = s.cleat := rfl
@[simp] theorem onBoot_safe (f : Boot → Boot) : (onBoot f s).safe = s.safe := rfl
@[simp] theorem onBoot_evt (f : Boot → Boot) : (onBoot f s).evt = s.evt := rfl
@[simp] theorem onBoot_dev (f : Boot → Boot) : (onBoot f s).dev = s.dev := rfl
@[simp] theorem onBoot_aon (f : Boot → Boot) : (onBoot f s).aon = s.aon := rfl
@[simp] theorem onBoot_pins (f : Boot → Boot) : (onBoot f s).pins = s.pins := rfl
@[simp] theorem onBoot_tap (f : Boot → Boot) : (onBoot f s).tap = s.tap := rfl
@[simp] theorem onBoot_out (f : Boot → Boot) : (onBoot f s).out = s.out := rfl
@[simp] theorem onBoot_fresh (f : Boot → Boot) : (onBoot f s).fresh = s.fresh := rfl
@[simp] theorem onBoot_pending (f : Boot → Boot) : (onBoot f s).pending = s.pending := rfl
@[simp] theorem onStage_hly (f : Option Staging → Option Staging) : (onStage f s).hly = s.hly := rfl
@[simp] theorem onStage_pwr (f : Option Staging → Option Staging) : (onStage f s).pwr = s.pwr := rfl
@[simp] theorem onStage_flush (f : Option Staging → Option Staging) : (onStage f s).flush = s.flush := rfl
@[simp] theorem onStage_cfg (f : Option Staging → Option Staging) : (onStage f s).cfg = s.cfg := rfl
@[simp] theorem onStage_boot (f : Option Staging → Option Staging) : (onStage f s).boot = s.boot := rfl
@[simp] theorem onStage_stage (f : Option Staging → Option Staging) : (onStage f s).stage = f s.stage := rfl
@[simp] theorem onStage_prm (f : Option Staging → Option Staging) : (onStage f s).prm = s.prm := rfl
@[simp] theorem onStage_ctl (f : Option Staging → Option Staging) : (onStage f s).ctl = s.ctl := rfl
@[simp] theorem onStage_cmds (f : Option Staging → Option Staging) : (onStage f s).cmds = s.cmds := rfl
@[simp] theorem onStage_resv (f : Option Staging → Option Staging) : (onStage f s).resv = s.resv := rfl
@[simp] theorem onStage_hold (f : Option Staging → Option Staging) : (onStage f s).hold = s.hold := rfl
@[simp] theorem onStage_ptpl (f : Option Staging → Option Staging) : (onStage f s).ptpl = s.ptpl := rfl
@[simp] theorem onStage_orders (f : Option Staging → Option Staging) : (onStage f s).orders = s.orders := rfl
@[simp] theorem onStage_exts (f : Option Staging → Option Staging) : (onStage f s).exts = s.exts := rfl
@[simp] theorem onStage_smb (f : Option Staging → Option Staging) : (onStage f s).smb = s.smb := rfl
@[simp] theorem onStage_hx (f : Option Staging → Option Staging) : (onStage f s).hx = s.hx := rfl
@[simp] theorem onStage_jrnl (f : Option Staging → Option Staging) : (onStage f s).jrnl = s.jrnl := rfl
@[simp] theorem onStage_map (f : Option Staging → Option Staging) : (onStage f s).map = s.map := rfl
@[simp] theorem onStage_media (f : Option Staging → Option Staging) : (onStage f s).media = s.media := rfl
@[simp] theorem onStage_peer (f : Option Staging → Option Staging) : (onStage f s).peer = s.peer := rfl
@[simp] theorem onStage_braid (f : Option Staging → Option Staging) : (onStage f s).braid = s.braid := rfl
@[simp] theorem onStage_ps (f : Option Staging → Option Staging) : (onStage f s).ps = s.ps := rfl
@[simp] theorem onStage_therm (f : Option Staging → Option Staging) : (onStage f s).therm = s.therm := rfl
@[simp] theorem onStage_rf (f : Option Staging → Option Staging) : (onStage f s).rf = s.rf := rfl
@[simp] theorem onStage_cleat (f : Option Staging → Option Staging) : (onStage f s).cleat = s.cleat := rfl
@[simp] theorem onStage_safe (f : Option Staging → Option Staging) : (onStage f s).safe = s.safe := rfl
@[simp] theorem onStage_evt (f : Option Staging → Option Staging) : (onStage f s).evt = s.evt := rfl
@[simp] theorem onStage_dev (f : Option Staging → Option Staging) : (onStage f s).dev = s.dev := rfl
@[simp] theorem onStage_aon (f : Option Staging → Option Staging) : (onStage f s).aon = s.aon := rfl
@[simp] theorem onStage_pins (f : Option Staging → Option Staging) : (onStage f s).pins = s.pins := rfl
@[simp] theorem onStage_tap (f : Option Staging → Option Staging) : (onStage f s).tap = s.tap := rfl
@[simp] theorem onStage_out (f : Option Staging → Option Staging) : (onStage f s).out = s.out := rfl
@[simp] theorem onStage_fresh (f : Option Staging → Option Staging) : (onStage f s).fresh = s.fresh := rfl
@[simp] theorem onStage_pending (f : Option Staging → Option Staging) : (onStage f s).pending = s.pending := rfl
@[simp] theorem onPrm_hly (f : Params → Params) : (onPrm f s).hly = s.hly := rfl
@[simp] theorem onPrm_pwr (f : Params → Params) : (onPrm f s).pwr = s.pwr := rfl
@[simp] theorem onPrm_flush (f : Params → Params) : (onPrm f s).flush = s.flush := rfl
@[simp] theorem onPrm_cfg (f : Params → Params) : (onPrm f s).cfg = s.cfg := rfl
@[simp] theorem onPrm_boot (f : Params → Params) : (onPrm f s).boot = s.boot := rfl
@[simp] theorem onPrm_stage (f : Params → Params) : (onPrm f s).stage = s.stage := rfl
@[simp] theorem onPrm_prm (f : Params → Params) : (onPrm f s).prm = f s.prm := rfl
@[simp] theorem onPrm_ctl (f : Params → Params) : (onPrm f s).ctl = s.ctl := rfl
@[simp] theorem onPrm_cmds (f : Params → Params) : (onPrm f s).cmds = s.cmds := rfl
@[simp] theorem onPrm_resv (f : Params → Params) : (onPrm f s).resv = s.resv := rfl
@[simp] theorem onPrm_hold (f : Params → Params) : (onPrm f s).hold = s.hold := rfl
@[simp] theorem onPrm_ptpl (f : Params → Params) : (onPrm f s).ptpl = s.ptpl := rfl
@[simp] theorem onPrm_orders (f : Params → Params) : (onPrm f s).orders = s.orders := rfl
@[simp] theorem onPrm_exts (f : Params → Params) : (onPrm f s).exts = s.exts := rfl
@[simp] theorem onPrm_smb (f : Params → Params) : (onPrm f s).smb = s.smb := rfl
@[simp] theorem onPrm_hx (f : Params → Params) : (onPrm f s).hx = s.hx := rfl
@[simp] theorem onPrm_jrnl (f : Params → Params) : (onPrm f s).jrnl = s.jrnl := rfl
@[simp] theorem onPrm_map (f : Params → Params) : (onPrm f s).map = s.map := rfl
@[simp] theorem onPrm_media (f : Params → Params) : (onPrm f s).media = s.media := rfl
@[simp] theorem onPrm_peer (f : Params → Params) : (onPrm f s).peer = s.peer := rfl
@[simp] theorem onPrm_braid (f : Params → Params) : (onPrm f s).braid = s.braid := rfl
@[simp] theorem onPrm_ps (f : Params → Params) : (onPrm f s).ps = s.ps := rfl
@[simp] theorem onPrm_therm (f : Params → Params) : (onPrm f s).therm = s.therm := rfl
@[simp] theorem onPrm_rf (f : Params → Params) : (onPrm f s).rf = s.rf := rfl
@[simp] theorem onPrm_cleat (f : Params → Params) : (onPrm f s).cleat = s.cleat := rfl
@[simp] theorem onPrm_safe (f : Params → Params) : (onPrm f s).safe = s.safe := rfl
@[simp] theorem onPrm_evt (f : Params → Params) : (onPrm f s).evt = s.evt := rfl
@[simp] theorem onPrm_dev (f : Params → Params) : (onPrm f s).dev = s.dev := rfl
@[simp] theorem onPrm_aon (f : Params → Params) : (onPrm f s).aon = s.aon := rfl
@[simp] theorem onPrm_pins (f : Params → Params) : (onPrm f s).pins = s.pins := rfl
@[simp] theorem onPrm_tap (f : Params → Params) : (onPrm f s).tap = s.tap := rfl
@[simp] theorem onPrm_out (f : Params → Params) : (onPrm f s).out = s.out := rfl
@[simp] theorem onPrm_fresh (f : Params → Params) : (onPrm f s).fresh = s.fresh := rfl
@[simp] theorem onPrm_pending (f : Params → Params) : (onPrm f s).pending = s.pending := rfl
@[simp] theorem onCtl_hly (f : PerPort Ctl → PerPort Ctl) : (onCtl f s).hly = s.hly := rfl
@[simp] theorem onCtl_pwr (f : PerPort Ctl → PerPort Ctl) : (onCtl f s).pwr = s.pwr := rfl
@[simp] theorem onCtl_flush (f : PerPort Ctl → PerPort Ctl) : (onCtl f s).flush = s.flush := rfl
@[simp] theorem onCtl_cfg (f : PerPort Ctl → PerPort Ctl) : (onCtl f s).cfg = s.cfg := rfl
@[simp] theorem onCtl_boot (f : PerPort Ctl → PerPort Ctl) : (onCtl f s).boot = s.boot := rfl
@[simp] theorem onCtl_stage (f : PerPort Ctl → PerPort Ctl) : (onCtl f s).stage = s.stage := rfl
@[simp] theorem onCtl_prm (f : PerPort Ctl → PerPort Ctl) : (onCtl f s).prm = s.prm := rfl
@[simp] theorem onCtl_ctl (f : PerPort Ctl → PerPort Ctl) : (onCtl f s).ctl = f s.ctl := rfl
@[simp] theorem onCtl_cmds (f : PerPort Ctl → PerPort Ctl) : (onCtl f s).cmds = s.cmds := rfl
@[simp] theorem onCtl_resv (f : PerPort Ctl → PerPort Ctl) : (onCtl f s).resv = s.resv := rfl
@[simp] theorem onCtl_hold (f : PerPort Ctl → PerPort Ctl) : (onCtl f s).hold = s.hold := rfl
@[simp] theorem onCtl_ptpl (f : PerPort Ctl → PerPort Ctl) : (onCtl f s).ptpl = s.ptpl := rfl
@[simp] theorem onCtl_orders (f : PerPort Ctl → PerPort Ctl) : (onCtl f s).orders = s.orders := rfl
@[simp] theorem onCtl_exts (f : PerPort Ctl → PerPort Ctl) : (onCtl f s).exts = s.exts := rfl
@[simp] theorem onCtl_smb (f : PerPort Ctl → PerPort Ctl) : (onCtl f s).smb = s.smb := rfl
@[simp] theorem onCtl_hx (f : PerPort Ctl → PerPort Ctl) : (onCtl f s).hx = s.hx := rfl
@[simp] theorem onCtl_jrnl (f : PerPort Ctl → PerPort Ctl) : (onCtl f s).jrnl = s.jrnl := rfl
@[simp] theorem onCtl_map (f : PerPort Ctl → PerPort Ctl) : (onCtl f s).map = s.map := rfl
@[simp] theorem onCtl_media (f : PerPort Ctl → PerPort Ctl) : (onCtl f s).media = s.media := rfl
@[simp] theorem onCtl_peer (f : PerPort Ctl → PerPort Ctl) : (onCtl f s).peer = s.peer := rfl
@[simp] theorem onCtl_braid (f : PerPort Ctl → PerPort Ctl) : (onCtl f s).braid = s.braid := rfl
@[simp] theorem onCtl_ps (f : PerPort Ctl → PerPort Ctl) : (onCtl f s).ps = s.ps := rfl
@[simp] theorem onCtl_therm (f : PerPort Ctl → PerPort Ctl) : (onCtl f s).therm = s.therm := rfl
@[simp] theorem onCtl_rf (f : PerPort Ctl → PerPort Ctl) : (onCtl f s).rf = s.rf := rfl
@[simp] theorem onCtl_cleat (f : PerPort Ctl → PerPort Ctl) : (onCtl f s).cleat = s.cleat := rfl
@[simp] theorem onCtl_safe (f : PerPort Ctl → PerPort Ctl) : (onCtl f s).safe = s.safe := rfl
@[simp] theorem onCtl_evt (f : PerPort Ctl → PerPort Ctl) : (onCtl f s).evt = s.evt := rfl
@[simp] theorem onCtl_dev (f : PerPort Ctl → PerPort Ctl) : (onCtl f s).dev = s.dev := rfl
@[simp] theorem onCtl_aon (f : PerPort Ctl → PerPort Ctl) : (onCtl f s).aon = s.aon := rfl
@[simp] theorem onCtl_pins (f : PerPort Ctl → PerPort Ctl) : (onCtl f s).pins = s.pins := rfl
@[simp] theorem onCtl_tap (f : PerPort Ctl → PerPort Ctl) : (onCtl f s).tap = s.tap := rfl
@[simp] theorem onCtl_out (f : PerPort Ctl → PerPort Ctl) : (onCtl f s).out = s.out := rfl
@[simp] theorem onCtl_fresh (f : PerPort Ctl → PerPort Ctl) : (onCtl f s).fresh = s.fresh := rfl
@[simp] theorem onCtl_pending (f : PerPort Ctl → PerPort Ctl) : (onCtl f s).pending = s.pending := rfl
@[simp] theorem onCmds_hly (f : List HostCmd → List HostCmd) : (onCmds f s).hly = s.hly := rfl
@[simp] theorem onCmds_pwr (f : List HostCmd → List HostCmd) : (onCmds f s).pwr = s.pwr := rfl
@[simp] theorem onCmds_flush (f : List HostCmd → List HostCmd) : (onCmds f s).flush = s.flush := rfl
@[simp] theorem onCmds_cfg (f : List HostCmd → List HostCmd) : (onCmds f s).cfg = s.cfg := rfl
@[simp] theorem onCmds_boot (f : List HostCmd → List HostCmd) : (onCmds f s).boot = s.boot := rfl
@[simp] theorem onCmds_stage (f : List HostCmd → List HostCmd) : (onCmds f s).stage = s.stage := rfl
@[simp] theorem onCmds_prm (f : List HostCmd → List HostCmd) : (onCmds f s).prm = s.prm := rfl
@[simp] theorem onCmds_ctl (f : List HostCmd → List HostCmd) : (onCmds f s).ctl = s.ctl := rfl
@[simp] theorem onCmds_cmds (f : List HostCmd → List HostCmd) : (onCmds f s).cmds = f s.cmds := rfl
@[simp] theorem onCmds_resv (f : List HostCmd → List HostCmd) : (onCmds f s).resv = s.resv := rfl
@[simp] theorem onCmds_hold (f : List HostCmd → List HostCmd) : (onCmds f s).hold = s.hold := rfl
@[simp] theorem onCmds_ptpl (f : List HostCmd → List HostCmd) : (onCmds f s).ptpl = s.ptpl := rfl
@[simp] theorem onCmds_orders (f : List HostCmd → List HostCmd) : (onCmds f s).orders = s.orders := rfl
@[simp] theorem onCmds_exts (f : List HostCmd → List HostCmd) : (onCmds f s).exts = s.exts := rfl
@[simp] theorem onCmds_smb (f : List HostCmd → List HostCmd) : (onCmds f s).smb = s.smb := rfl
@[simp] theorem onCmds_hx (f : List HostCmd → List HostCmd) : (onCmds f s).hx = s.hx := rfl
@[simp] theorem onCmds_jrnl (f : List HostCmd → List HostCmd) : (onCmds f s).jrnl = s.jrnl := rfl
@[simp] theorem onCmds_map (f : List HostCmd → List HostCmd) : (onCmds f s).map = s.map := rfl
@[simp] theorem onCmds_media (f : List HostCmd → List HostCmd) : (onCmds f s).media = s.media := rfl
@[simp] theorem onCmds_peer (f : List HostCmd → List HostCmd) : (onCmds f s).peer = s.peer := rfl
@[simp] theorem onCmds_braid (f : List HostCmd → List HostCmd) : (onCmds f s).braid = s.braid := rfl
@[simp] theorem onCmds_ps (f : List HostCmd → List HostCmd) : (onCmds f s).ps = s.ps := rfl
@[simp] theorem onCmds_therm (f : List HostCmd → List HostCmd) : (onCmds f s).therm = s.therm := rfl
@[simp] theorem onCmds_rf (f : List HostCmd → List HostCmd) : (onCmds f s).rf = s.rf := rfl
@[simp] theorem onCmds_cleat (f : List HostCmd → List HostCmd) : (onCmds f s).cleat = s.cleat := rfl
@[simp] theorem onCmds_safe (f : List HostCmd → List HostCmd) : (onCmds f s).safe = s.safe := rfl
@[simp] theorem onCmds_evt (f : List HostCmd → List HostCmd) : (onCmds f s).evt = s.evt := rfl
@[simp] theorem onCmds_dev (f : List HostCmd → List HostCmd) : (onCmds f s).dev = s.dev := rfl
@[simp] theorem onCmds_aon (f : List HostCmd → List HostCmd) : (onCmds f s).aon = s.aon := rfl
@[simp] theorem onCmds_pins (f : List HostCmd → List HostCmd) : (onCmds f s).pins = s.pins := rfl
@[simp] theorem onCmds_tap (f : List HostCmd → List HostCmd) : (onCmds f s).tap = s.tap := rfl
@[simp] theorem onCmds_out (f : List HostCmd → List HostCmd) : (onCmds f s).out = s.out := rfl
@[simp] theorem onCmds_fresh (f : List HostCmd → List HostCmd) : (onCmds f s).fresh = s.fresh := rfl
@[simp] theorem onCmds_pending (f : List HostCmd → List HostCmd) : (onCmds f s).pending = s.pending := rfl
@[simp] theorem onResv_hly (f : List Registrant → List Registrant) : (onResv f s).hly = s.hly := rfl
@[simp] theorem onResv_pwr (f : List Registrant → List Registrant) : (onResv f s).pwr = s.pwr := rfl
@[simp] theorem onResv_flush (f : List Registrant → List Registrant) : (onResv f s).flush = s.flush := rfl
@[simp] theorem onResv_cfg (f : List Registrant → List Registrant) : (onResv f s).cfg = s.cfg := rfl
@[simp] theorem onResv_boot (f : List Registrant → List Registrant) : (onResv f s).boot = s.boot := rfl
@[simp] theorem onResv_stage (f : List Registrant → List Registrant) : (onResv f s).stage = s.stage := rfl
@[simp] theorem onResv_prm (f : List Registrant → List Registrant) : (onResv f s).prm = s.prm := rfl
@[simp] theorem onResv_ctl (f : List Registrant → List Registrant) : (onResv f s).ctl = s.ctl := rfl
@[simp] theorem onResv_cmds (f : List Registrant → List Registrant) : (onResv f s).cmds = s.cmds := rfl
@[simp] theorem onResv_resv (f : List Registrant → List Registrant) : (onResv f s).resv = f s.resv := rfl
@[simp] theorem onResv_hold (f : List Registrant → List Registrant) : (onResv f s).hold = s.hold := rfl
@[simp] theorem onResv_ptpl (f : List Registrant → List Registrant) : (onResv f s).ptpl = s.ptpl := rfl
@[simp] theorem onResv_orders (f : List Registrant → List Registrant) : (onResv f s).orders = s.orders := rfl
@[simp] theorem onResv_exts (f : List Registrant → List Registrant) : (onResv f s).exts = s.exts := rfl
@[simp] theorem onResv_smb (f : List Registrant → List Registrant) : (onResv f s).smb = s.smb := rfl
@[simp] theorem onResv_hx (f : List Registrant → List Registrant) : (onResv f s).hx = s.hx := rfl
@[simp] theorem onResv_jrnl (f : List Registrant → List Registrant) : (onResv f s).jrnl = s.jrnl := rfl
@[simp] theorem onResv_map (f : List Registrant → List Registrant) : (onResv f s).map = s.map := rfl
@[simp] theorem onResv_media (f : List Registrant → List Registrant) : (onResv f s).media = s.media := rfl
@[simp] theorem onResv_peer (f : List Registrant → List Registrant) : (onResv f s).peer = s.peer := rfl
@[simp] theorem onResv_braid (f : List Registrant → List Registrant) : (onResv f s).braid = s.braid := rfl
@[simp] theorem onResv_ps (f : List Registrant → List Registrant) : (onResv f s).ps = s.ps := rfl
@[simp] theorem onResv_therm (f : List Registrant → List Registrant) : (onResv f s).therm = s.therm := rfl
@[simp] theorem onResv_rf (f : List Registrant → List Registrant) : (onResv f s).rf = s.rf := rfl
@[simp] theorem onResv_cleat (f : List Registrant → List Registrant) : (onResv f s).cleat = s.cleat := rfl
@[simp] theorem onResv_safe (f : List Registrant → List Registrant) : (onResv f s).safe = s.safe := rfl
@[simp] theorem onResv_evt (f : List Registrant → List Registrant) : (onResv f s).evt = s.evt := rfl
@[simp] theorem onResv_dev (f : List Registrant → List Registrant) : (onResv f s).dev = s.dev := rfl
@[simp] theorem onResv_aon (f : List Registrant → List Registrant) : (onResv f s).aon = s.aon := rfl
@[simp] theorem onResv_pins (f : List Registrant → List Registrant) : (onResv f s).pins = s.pins := rfl
@[simp] theorem onResv_tap (f : List Registrant → List Registrant) : (onResv f s).tap = s.tap := rfl
@[simp] theorem onResv_out (f : List Registrant → List Registrant) : (onResv f s).out = s.out := rfl
@[simp] theorem onResv_fresh (f : List Registrant → List Registrant) : (onResv f s).fresh = s.fresh := rfl
@[simp] theorem onResv_pending (f : List Registrant → List Registrant) : (onResv f s).pending = s.pending := rfl
@[simp] theorem onHold_hly (f : List Holder → List Holder) : (onHold f s).hly = s.hly := rfl
@[simp] theorem onHold_pwr (f : List Holder → List Holder) : (onHold f s).pwr = s.pwr := rfl
@[simp] theorem onHold_flush (f : List Holder → List Holder) : (onHold f s).flush = s.flush := rfl
@[simp] theorem onHold_cfg (f : List Holder → List Holder) : (onHold f s).cfg = s.cfg := rfl
@[simp] theorem onHold_boot (f : List Holder → List Holder) : (onHold f s).boot = s.boot := rfl
@[simp] theorem onHold_stage (f : List Holder → List Holder) : (onHold f s).stage = s.stage := rfl
@[simp] theorem onHold_prm (f : List Holder → List Holder) : (onHold f s).prm = s.prm := rfl
@[simp] theorem onHold_ctl (f : List Holder → List Holder) : (onHold f s).ctl = s.ctl := rfl
@[simp] theorem onHold_cmds (f : List Holder → List Holder) : (onHold f s).cmds = s.cmds := rfl
@[simp] theorem onHold_resv (f : List Holder → List Holder) : (onHold f s).resv = s.resv := rfl
@[simp] theorem onHold_hold (f : List Holder → List Holder) : (onHold f s).hold = f s.hold := rfl
@[simp] theorem onHold_ptpl (f : List Holder → List Holder) : (onHold f s).ptpl = s.ptpl := rfl
@[simp] theorem onHold_orders (f : List Holder → List Holder) : (onHold f s).orders = s.orders := rfl
@[simp] theorem onHold_exts (f : List Holder → List Holder) : (onHold f s).exts = s.exts := rfl
@[simp] theorem onHold_smb (f : List Holder → List Holder) : (onHold f s).smb = s.smb := rfl
@[simp] theorem onHold_hx (f : List Holder → List Holder) : (onHold f s).hx = s.hx := rfl
@[simp] theorem onHold_jrnl (f : List Holder → List Holder) : (onHold f s).jrnl = s.jrnl := rfl
@[simp] theorem onHold_map (f : List Holder → List Holder) : (onHold f s).map = s.map := rfl
@[simp] theorem onHold_media (f : List Holder → List Holder) : (onHold f s).media = s.media := rfl
@[simp] theorem onHold_peer (f : List Holder → List Holder) : (onHold f s).peer = s.peer := rfl
@[simp] theorem onHold_braid (f : List Holder → List Holder) : (onHold f s).braid = s.braid := rfl
@[simp] theorem onHold_ps (f : List Holder → List Holder) : (onHold f s).ps = s.ps := rfl
@[simp] theorem onHold_therm (f : List Holder → List Holder) : (onHold f s).therm = s.therm := rfl
@[simp] theorem onHold_rf (f : List Holder → List Holder) : (onHold f s).rf = s.rf := rfl
@[simp] theorem onHold_cleat (f : List Holder → List Holder) : (onHold f s).cleat = s.cleat := rfl
@[simp] theorem onHold_safe (f : List Holder → List Holder) : (onHold f s).safe = s.safe := rfl
@[simp] theorem onHold_evt (f : List Holder → List Holder) : (onHold f s).evt = s.evt := rfl
@[simp] theorem onHold_dev (f : List Holder → List Holder) : (onHold f s).dev = s.dev := rfl
@[simp] theorem onHold_aon (f : List Holder → List Holder) : (onHold f s).aon = s.aon := rfl
@[simp] theorem onHold_pins (f : List Holder → List Holder) : (onHold f s).pins = s.pins := rfl
@[simp] theorem onHold_tap (f : List Holder → List Holder) : (onHold f s).tap = s.tap := rfl
@[simp] theorem onHold_out (f : List Holder → List Holder) : (onHold f s).out = s.out := rfl
@[simp] theorem onHold_fresh (f : List Holder → List Holder) : (onHold f s).fresh = s.fresh := rfl
@[simp] theorem onHold_pending (f : List Holder → List Holder) : (onHold f s).pending = s.pending := rfl
@[simp] theorem onPtpl_hly (f : List Nat → List Nat) : (onPtpl f s).hly = s.hly := rfl
@[simp] theorem onPtpl_pwr (f : List Nat → List Nat) : (onPtpl f s).pwr = s.pwr := rfl
@[simp] theorem onPtpl_flush (f : List Nat → List Nat) : (onPtpl f s).flush = s.flush := rfl
@[simp] theorem onPtpl_cfg (f : List Nat → List Nat) : (onPtpl f s).cfg = s.cfg := rfl
@[simp] theorem onPtpl_boot (f : List Nat → List Nat) : (onPtpl f s).boot = s.boot := rfl
@[simp] theorem onPtpl_stage (f : List Nat → List Nat) : (onPtpl f s).stage = s.stage := rfl
@[simp] theorem onPtpl_prm (f : List Nat → List Nat) : (onPtpl f s).prm = s.prm := rfl
@[simp] theorem onPtpl_ctl (f : List Nat → List Nat) : (onPtpl f s).ctl = s.ctl := rfl
@[simp] theorem onPtpl_cmds (f : List Nat → List Nat) : (onPtpl f s).cmds = s.cmds := rfl
@[simp] theorem onPtpl_resv (f : List Nat → List Nat) : (onPtpl f s).resv = s.resv := rfl
@[simp] theorem onPtpl_hold (f : List Nat → List Nat) : (onPtpl f s).hold = s.hold := rfl
@[simp] theorem onPtpl_ptpl (f : List Nat → List Nat) : (onPtpl f s).ptpl = f s.ptpl := rfl
@[simp] theorem onPtpl_orders (f : List Nat → List Nat) : (onPtpl f s).orders = s.orders := rfl
@[simp] theorem onPtpl_exts (f : List Nat → List Nat) : (onPtpl f s).exts = s.exts := rfl
@[simp] theorem onPtpl_smb (f : List Nat → List Nat) : (onPtpl f s).smb = s.smb := rfl
@[simp] theorem onPtpl_hx (f : List Nat → List Nat) : (onPtpl f s).hx = s.hx := rfl
@[simp] theorem onPtpl_jrnl (f : List Nat → List Nat) : (onPtpl f s).jrnl = s.jrnl := rfl
@[simp] theorem onPtpl_map (f : List Nat → List Nat) : (onPtpl f s).map = s.map := rfl
@[simp] theorem onPtpl_media (f : List Nat → List Nat) : (onPtpl f s).media = s.media := rfl
@[simp] theorem onPtpl_peer (f : List Nat → List Nat) : (onPtpl f s).peer = s.peer := rfl
@[simp] theorem onPtpl_braid (f : List Nat → List Nat) : (onPtpl f s).braid = s.braid := rfl
@[simp] theorem onPtpl_ps (f : List Nat → List Nat) : (onPtpl f s).ps = s.ps := rfl
@[simp] theorem onPtpl_therm (f : List Nat → List Nat) : (onPtpl f s).therm = s.therm := rfl
@[simp] theorem onPtpl_rf (f : List Nat → List Nat) : (onPtpl f s).rf = s.rf := rfl
@[simp] theorem onPtpl_cleat (f : List Nat → List Nat) : (onPtpl f s).cleat = s.cleat := rfl
@[simp] theorem onPtpl_safe (f : List Nat → List Nat) : (onPtpl f s).safe = s.safe := rfl
@[simp] theorem onPtpl_evt (f : List Nat → List Nat) : (onPtpl f s).evt = s.evt := rfl
@[simp] theorem onPtpl_dev (f : List Nat → List Nat) : (onPtpl f s).dev = s.dev := rfl
@[simp] theorem onPtpl_aon (f : List Nat → List Nat) : (onPtpl f s).aon = s.aon := rfl
@[simp] theorem onPtpl_pins (f : List Nat → List Nat) : (onPtpl f s).pins = s.pins := rfl
@[simp] theorem onPtpl_tap (f : List Nat → List Nat) : (onPtpl f s).tap = s.tap := rfl
@[simp] theorem onPtpl_out (f : List Nat → List Nat) : (onPtpl f s).out = s.out := rfl
@[simp] theorem onPtpl_fresh (f : List Nat → List Nat) : (onPtpl f s).fresh = s.fresh := rfl
@[simp] theorem onPtpl_pending (f : List Nat → List Nat) : (onPtpl f s).pending = s.pending := rfl
@[simp] theorem onOrders_hly (f : List OrderRec → List OrderRec) : (onOrders f s).hly = s.hly := rfl
@[simp] theorem onOrders_pwr (f : List OrderRec → List OrderRec) : (onOrders f s).pwr = s.pwr := rfl
@[simp] theorem onOrders_flush (f : List OrderRec → List OrderRec) : (onOrders f s).flush = s.flush := rfl
@[simp] theorem onOrders_cfg (f : List OrderRec → List OrderRec) : (onOrders f s).cfg = s.cfg := rfl
@[simp] theorem onOrders_boot (f : List OrderRec → List OrderRec) : (onOrders f s).boot = s.boot := rfl
@[simp] theorem onOrders_stage (f : List OrderRec → List OrderRec) : (onOrders f s).stage = s.stage := rfl
@[simp] theorem onOrders_prm (f : List OrderRec → List OrderRec) : (onOrders f s).prm = s.prm := rfl
@[simp] theorem onOrders_ctl (f : List OrderRec → List OrderRec) : (onOrders f s).ctl = s.ctl := rfl
@[simp] theorem onOrders_cmds (f : List OrderRec → List OrderRec) : (onOrders f s).cmds = s.cmds := rfl
@[simp] theorem onOrders_resv (f : List OrderRec → List OrderRec) : (onOrders f s).resv = s.resv := rfl
@[simp] theorem onOrders_hold (f : List OrderRec → List OrderRec) : (onOrders f s).hold = s.hold := rfl
@[simp] theorem onOrders_ptpl (f : List OrderRec → List OrderRec) : (onOrders f s).ptpl = s.ptpl := rfl
@[simp] theorem onOrders_orders (f : List OrderRec → List OrderRec) : (onOrders f s).orders = f s.orders := rfl
@[simp] theorem onOrders_exts (f : List OrderRec → List OrderRec) : (onOrders f s).exts = s.exts := rfl
@[simp] theorem onOrders_smb (f : List OrderRec → List OrderRec) : (onOrders f s).smb = s.smb := rfl
@[simp] theorem onOrders_hx (f : List OrderRec → List OrderRec) : (onOrders f s).hx = s.hx := rfl
@[simp] theorem onOrders_jrnl (f : List OrderRec → List OrderRec) : (onOrders f s).jrnl = s.jrnl := rfl
@[simp] theorem onOrders_map (f : List OrderRec → List OrderRec) : (onOrders f s).map = s.map := rfl
@[simp] theorem onOrders_media (f : List OrderRec → List OrderRec) : (onOrders f s).media = s.media := rfl
@[simp] theorem onOrders_peer (f : List OrderRec → List OrderRec) : (onOrders f s).peer = s.peer := rfl
@[simp] theorem onOrders_braid (f : List OrderRec → List OrderRec) : (onOrders f s).braid = s.braid := rfl
@[simp] theorem onOrders_ps (f : List OrderRec → List OrderRec) : (onOrders f s).ps = s.ps := rfl
@[simp] theorem onOrders_therm (f : List OrderRec → List OrderRec) : (onOrders f s).therm = s.therm := rfl
@[simp] theorem onOrders_rf (f : List OrderRec → List OrderRec) : (onOrders f s).rf = s.rf := rfl
@[simp] theorem onOrders_cleat (f : List OrderRec → List OrderRec) : (onOrders f s).cleat = s.cleat := rfl
@[simp] theorem onOrders_safe (f : List OrderRec → List OrderRec) : (onOrders f s).safe = s.safe := rfl
@[simp] theorem onOrders_evt (f : List OrderRec → List OrderRec) : (onOrders f s).evt = s.evt := rfl
@[simp] theorem onOrders_dev (f : List OrderRec → List OrderRec) : (onOrders f s).dev = s.dev := rfl
@[simp] theorem onOrders_aon (f : List OrderRec → List OrderRec) : (onOrders f s).aon = s.aon := rfl
@[simp] theorem onOrders_pins (f : List OrderRec → List OrderRec) : (onOrders f s).pins = s.pins := rfl
@[simp] theorem onOrders_tap (f : List OrderRec → List OrderRec) : (onOrders f s).tap = s.tap := rfl
@[simp] theorem onOrders_out (f : List OrderRec → List OrderRec) : (onOrders f s).out = s.out := rfl
@[simp] theorem onOrders_fresh (f : List OrderRec → List OrderRec) : (onOrders f s).fresh = s.fresh := rfl
@[simp] theorem onOrders_pending (f : List OrderRec → List OrderRec) : (onOrders f s).pending = s.pending := rfl
@[simp] theorem onExts_hly (f : List Extent → List Extent) : (onExts f s).hly = s.hly := rfl
@[simp] theorem onExts_pwr (f : List Extent → List Extent) : (onExts f s).pwr = s.pwr := rfl
@[simp] theorem onExts_flush (f : List Extent → List Extent) : (onExts f s).flush = s.flush := rfl
@[simp] theorem onExts_cfg (f : List Extent → List Extent) : (onExts f s).cfg = s.cfg := rfl
@[simp] theorem onExts_boot (f : List Extent → List Extent) : (onExts f s).boot = s.boot := rfl
@[simp] theorem onExts_stage (f : List Extent → List Extent) : (onExts f s).stage = s.stage := rfl
@[simp] theorem onExts_prm (f : List Extent → List Extent) : (onExts f s).prm = s.prm := rfl
@[simp] theorem onExts_ctl (f : List Extent → List Extent) : (onExts f s).ctl = s.ctl := rfl
@[simp] theorem onExts_cmds (f : List Extent → List Extent) : (onExts f s).cmds = s.cmds := rfl
@[simp] theorem onExts_resv (f : List Extent → List Extent) : (onExts f s).resv = s.resv := rfl
@[simp] theorem onExts_hold (f : List Extent → List Extent) : (onExts f s).hold = s.hold := rfl
@[simp] theorem onExts_ptpl (f : List Extent → List Extent) : (onExts f s).ptpl = s.ptpl := rfl
@[simp] theorem onExts_orders (f : List Extent → List Extent) : (onExts f s).orders = s.orders := rfl
@[simp] theorem onExts_exts (f : List Extent → List Extent) : (onExts f s).exts = f s.exts := rfl
@[simp] theorem onExts_smb (f : List Extent → List Extent) : (onExts f s).smb = s.smb := rfl
@[simp] theorem onExts_hx (f : List Extent → List Extent) : (onExts f s).hx = s.hx := rfl
@[simp] theorem onExts_jrnl (f : List Extent → List Extent) : (onExts f s).jrnl = s.jrnl := rfl
@[simp] theorem onExts_map (f : List Extent → List Extent) : (onExts f s).map = s.map := rfl
@[simp] theorem onExts_media (f : List Extent → List Extent) : (onExts f s).media = s.media := rfl
@[simp] theorem onExts_peer (f : List Extent → List Extent) : (onExts f s).peer = s.peer := rfl
@[simp] theorem onExts_braid (f : List Extent → List Extent) : (onExts f s).braid = s.braid := rfl
@[simp] theorem onExts_ps (f : List Extent → List Extent) : (onExts f s).ps = s.ps := rfl
@[simp] theorem onExts_therm (f : List Extent → List Extent) : (onExts f s).therm = s.therm := rfl
@[simp] theorem onExts_rf (f : List Extent → List Extent) : (onExts f s).rf = s.rf := rfl
@[simp] theorem onExts_cleat (f : List Extent → List Extent) : (onExts f s).cleat = s.cleat := rfl
@[simp] theorem onExts_safe (f : List Extent → List Extent) : (onExts f s).safe = s.safe := rfl
@[simp] theorem onExts_evt (f : List Extent → List Extent) : (onExts f s).evt = s.evt := rfl
@[simp] theorem onExts_dev (f : List Extent → List Extent) : (onExts f s).dev = s.dev := rfl
@[simp] theorem onExts_aon (f : List Extent → List Extent) : (onExts f s).aon = s.aon := rfl
@[simp] theorem onExts_pins (f : List Extent → List Extent) : (onExts f s).pins = s.pins := rfl
@[simp] theorem onExts_tap (f : List Extent → List Extent) : (onExts f s).tap = s.tap := rfl
@[simp] theorem onExts_out (f : List Extent → List Extent) : (onExts f s).out = s.out := rfl
@[simp] theorem onExts_fresh (f : List Extent → List Extent) : (onExts f s).fresh = s.fresh := rfl
@[simp] theorem onExts_pending (f : List Extent → List Extent) : (onExts f s).pending = s.pending := rfl
@[simp] theorem onSmb_hly (f : Smb → Smb) : (onSmb f s).hly = s.hly := rfl
@[simp] theorem onSmb_pwr (f : Smb → Smb) : (onSmb f s).pwr = s.pwr := rfl
@[simp] theorem onSmb_flush (f : Smb → Smb) : (onSmb f s).flush = s.flush := rfl
@[simp] theorem onSmb_cfg (f : Smb → Smb) : (onSmb f s).cfg = s.cfg := rfl
@[simp] theorem onSmb_boot (f : Smb → Smb) : (onSmb f s).boot = s.boot := rfl
@[simp] theorem onSmb_stage (f : Smb → Smb) : (onSmb f s).stage = s.stage := rfl
@[simp] theorem onSmb_prm (f : Smb → Smb) : (onSmb f s).prm = s.prm := rfl
@[simp] theorem onSmb_ctl (f : Smb → Smb) : (onSmb f s).ctl = s.ctl := rfl
@[simp] theorem onSmb_cmds (f : Smb → Smb) : (onSmb f s).cmds = s.cmds := rfl
@[simp] theorem onSmb_resv (f : Smb → Smb) : (onSmb f s).resv = s.resv := rfl
@[simp] theorem onSmb_hold (f : Smb → Smb) : (onSmb f s).hold = s.hold := rfl
@[simp] theorem onSmb_ptpl (f : Smb → Smb) : (onSmb f s).ptpl = s.ptpl := rfl
@[simp] theorem onSmb_orders (f : Smb → Smb) : (onSmb f s).orders = s.orders := rfl
@[simp] theorem onSmb_exts (f : Smb → Smb) : (onSmb f s).exts = s.exts := rfl
@[simp] theorem onSmb_smb (f : Smb → Smb) : (onSmb f s).smb = f s.smb := rfl
@[simp] theorem onSmb_hx (f : Smb → Smb) : (onSmb f s).hx = s.hx := rfl
@[simp] theorem onSmb_jrnl (f : Smb → Smb) : (onSmb f s).jrnl = s.jrnl := rfl
@[simp] theorem onSmb_map (f : Smb → Smb) : (onSmb f s).map = s.map := rfl
@[simp] theorem onSmb_media (f : Smb → Smb) : (onSmb f s).media = s.media := rfl
@[simp] theorem onSmb_peer (f : Smb → Smb) : (onSmb f s).peer = s.peer := rfl
@[simp] theorem onSmb_braid (f : Smb → Smb) : (onSmb f s).braid = s.braid := rfl
@[simp] theorem onSmb_ps (f : Smb → Smb) : (onSmb f s).ps = s.ps := rfl
@[simp] theorem onSmb_therm (f : Smb → Smb) : (onSmb f s).therm = s.therm := rfl
@[simp] theorem onSmb_rf (f : Smb → Smb) : (onSmb f s).rf = s.rf := rfl
@[simp] theorem onSmb_cleat (f : Smb → Smb) : (onSmb f s).cleat = s.cleat := rfl
@[simp] theorem onSmb_safe (f : Smb → Smb) : (onSmb f s).safe = s.safe := rfl
@[simp] theorem onSmb_evt (f : Smb → Smb) : (onSmb f s).evt = s.evt := rfl
@[simp] theorem onSmb_dev (f : Smb → Smb) : (onSmb f s).dev = s.dev := rfl
@[simp] theorem onSmb_aon (f : Smb → Smb) : (onSmb f s).aon = s.aon := rfl
@[simp] theorem onSmb_pins (f : Smb → Smb) : (onSmb f s).pins = s.pins := rfl
@[simp] theorem onSmb_tap (f : Smb → Smb) : (onSmb f s).tap = s.tap := rfl
@[simp] theorem onSmb_out (f : Smb → Smb) : (onSmb f s).out = s.out := rfl
@[simp] theorem onSmb_fresh (f : Smb → Smb) : (onSmb f s).fresh = s.fresh := rfl
@[simp] theorem onSmb_pending (f : Smb → Smb) : (onSmb f s).pending = s.pending := rfl
@[simp] theorem onHx_hly (f : HostX → HostX) : (onHx f s).hly = s.hly := rfl
@[simp] theorem onHx_pwr (f : HostX → HostX) : (onHx f s).pwr = s.pwr := rfl
@[simp] theorem onHx_flush (f : HostX → HostX) : (onHx f s).flush = s.flush := rfl
@[simp] theorem onHx_cfg (f : HostX → HostX) : (onHx f s).cfg = s.cfg := rfl
@[simp] theorem onHx_boot (f : HostX → HostX) : (onHx f s).boot = s.boot := rfl
@[simp] theorem onHx_stage (f : HostX → HostX) : (onHx f s).stage = s.stage := rfl
@[simp] theorem onHx_prm (f : HostX → HostX) : (onHx f s).prm = s.prm := rfl
@[simp] theorem onHx_ctl (f : HostX → HostX) : (onHx f s).ctl = s.ctl := rfl
@[simp] theorem onHx_cmds (f : HostX → HostX) : (onHx f s).cmds = s.cmds := rfl
@[simp] theorem onHx_resv (f : HostX → HostX) : (onHx f s).resv = s.resv := rfl
@[simp] theorem onHx_hold (f : HostX → HostX) : (onHx f s).hold = s.hold := rfl
@[simp] theorem onHx_ptpl (f : HostX → HostX) : (onHx f s).ptpl = s.ptpl := rfl
@[simp] theorem onHx_orders (f : HostX → HostX) : (onHx f s).orders = s.orders := rfl
@[simp] theorem onHx_exts (f : HostX → HostX) : (onHx f s).exts = s.exts := rfl
@[simp] theorem onHx_smb (f : HostX → HostX) : (onHx f s).smb = s.smb := rfl
@[simp] theorem onHx_hx (f : HostX → HostX) : (onHx f s).hx = f s.hx := rfl
@[simp] theorem onHx_jrnl (f : HostX → HostX) : (onHx f s).jrnl = s.jrnl := rfl
@[simp] theorem onHx_map (f : HostX → HostX) : (onHx f s).map = s.map := rfl
@[simp] theorem onHx_media (f : HostX → HostX) : (onHx f s).media = s.media := rfl
@[simp] theorem onHx_peer (f : HostX → HostX) : (onHx f s).peer = s.peer := rfl
@[simp] theorem onHx_braid (f : HostX → HostX) : (onHx f s).braid = s.braid := rfl
@[simp] theorem onHx_ps (f : HostX → HostX) : (onHx f s).ps = s.ps := rfl
@[simp] theorem onHx_therm (f : HostX → HostX) : (onHx f s).therm = s.therm := rfl
@[simp] theorem onHx_rf (f : HostX → HostX) : (onHx f s).rf = s.rf := rfl
@[simp] theorem onHx_cleat (f : HostX → HostX) : (onHx f s).cleat = s.cleat := rfl
@[simp] theorem onHx_safe (f : HostX → HostX) : (onHx f s).safe = s.safe := rfl
@[simp] theorem onHx_evt (f : HostX → HostX) : (onHx f s).evt = s.evt := rfl
@[simp] theorem onHx_dev (f : HostX → HostX) : (onHx f s).dev = s.dev := rfl
@[simp] theorem onHx_aon (f : HostX → HostX) : (onHx f s).aon = s.aon := rfl
@[simp] theorem onHx_pins (f : HostX → HostX) : (onHx f s).pins = s.pins := rfl
@[simp] theorem onHx_tap (f : HostX → HostX) : (onHx f s).tap = s.tap := rfl
@[simp] theorem onHx_out (f : HostX → HostX) : (onHx f s).out = s.out := rfl
@[simp] theorem onHx_fresh (f : HostX → HostX) : (onHx f s).fresh = s.fresh := rfl
@[simp] theorem onHx_pending (f : HostX → HostX) : (onHx f s).pending = s.pending := rfl
@[simp] theorem onJrnl_hly (f : Jrnl → Jrnl) : (onJrnl f s).hly = s.hly := rfl
@[simp] theorem onJrnl_pwr (f : Jrnl → Jrnl) : (onJrnl f s).pwr = s.pwr := rfl
@[simp] theorem onJrnl_flush (f : Jrnl → Jrnl) : (onJrnl f s).flush = s.flush := rfl
@[simp] theorem onJrnl_cfg (f : Jrnl → Jrnl) : (onJrnl f s).cfg = s.cfg := rfl
@[simp] theorem onJrnl_boot (f : Jrnl → Jrnl) : (onJrnl f s).boot = s.boot := rfl
@[simp] theorem onJrnl_stage (f : Jrnl → Jrnl) : (onJrnl f s).stage = s.stage := rfl
@[simp] theorem onJrnl_prm (f : Jrnl → Jrnl) : (onJrnl f s).prm = s.prm := rfl
@[simp] theorem onJrnl_ctl (f : Jrnl → Jrnl) : (onJrnl f s).ctl = s.ctl := rfl
@[simp] theorem onJrnl_cmds (f : Jrnl → Jrnl) : (onJrnl f s).cmds = s.cmds := rfl
@[simp] theorem onJrnl_resv (f : Jrnl → Jrnl) : (onJrnl f s).resv = s.resv := rfl
@[simp] theorem onJrnl_hold (f : Jrnl → Jrnl) : (onJrnl f s).hold = s.hold := rfl
@[simp] theorem onJrnl_ptpl (f : Jrnl → Jrnl) : (onJrnl f s).ptpl = s.ptpl := rfl
@[simp] theorem onJrnl_orders (f : Jrnl → Jrnl) : (onJrnl f s).orders = s.orders := rfl
@[simp] theorem onJrnl_exts (f : Jrnl → Jrnl) : (onJrnl f s).exts = s.exts := rfl
@[simp] theorem onJrnl_smb (f : Jrnl → Jrnl) : (onJrnl f s).smb = s.smb := rfl
@[simp] theorem onJrnl_hx (f : Jrnl → Jrnl) : (onJrnl f s).hx = s.hx := rfl
@[simp] theorem onJrnl_jrnl (f : Jrnl → Jrnl) : (onJrnl f s).jrnl = f s.jrnl := rfl
@[simp] theorem onJrnl_map (f : Jrnl → Jrnl) : (onJrnl f s).map = s.map := rfl
@[simp] theorem onJrnl_media (f : Jrnl → Jrnl) : (onJrnl f s).media = s.media := rfl
@[simp] theorem onJrnl_peer (f : Jrnl → Jrnl) : (onJrnl f s).peer = s.peer := rfl
@[simp] theorem onJrnl_braid (f : Jrnl → Jrnl) : (onJrnl f s).braid = s.braid := rfl
@[simp] theorem onJrnl_ps (f : Jrnl → Jrnl) : (onJrnl f s).ps = s.ps := rfl
@[simp] theorem onJrnl_therm (f : Jrnl → Jrnl) : (onJrnl f s).therm = s.therm := rfl
@[simp] theorem onJrnl_rf (f : Jrnl → Jrnl) : (onJrnl f s).rf = s.rf := rfl
@[simp] theorem onJrnl_cleat (f : Jrnl → Jrnl) : (onJrnl f s).cleat = s.cleat := rfl
@[simp] theorem onJrnl_safe (f : Jrnl → Jrnl) : (onJrnl f s).safe = s.safe := rfl
@[simp] theorem onJrnl_evt (f : Jrnl → Jrnl) : (onJrnl f s).evt = s.evt := rfl
@[simp] theorem onJrnl_dev (f : Jrnl → Jrnl) : (onJrnl f s).dev = s.dev := rfl
@[simp] theorem onJrnl_aon (f : Jrnl → Jrnl) : (onJrnl f s).aon = s.aon := rfl
@[simp] theorem onJrnl_pins (f : Jrnl → Jrnl) : (onJrnl f s).pins = s.pins := rfl
@[simp] theorem onJrnl_tap (f : Jrnl → Jrnl) : (onJrnl f s).tap = s.tap := rfl
@[simp] theorem onJrnl_out (f : Jrnl → Jrnl) : (onJrnl f s).out = s.out := rfl
@[simp] theorem onJrnl_fresh (f : Jrnl → Jrnl) : (onJrnl f s).fresh = s.fresh := rfl
@[simp] theorem onJrnl_pending (f : Jrnl → Jrnl) : (onJrnl f s).pending = s.pending := rfl
@[simp] theorem onMap_hly (f : Motur → Motur) : (onMap f s).hly = s.hly := rfl
@[simp] theorem onMap_pwr (f : Motur → Motur) : (onMap f s).pwr = s.pwr := rfl
@[simp] theorem onMap_flush (f : Motur → Motur) : (onMap f s).flush = s.flush := rfl
@[simp] theorem onMap_cfg (f : Motur → Motur) : (onMap f s).cfg = s.cfg := rfl
@[simp] theorem onMap_boot (f : Motur → Motur) : (onMap f s).boot = s.boot := rfl
@[simp] theorem onMap_stage (f : Motur → Motur) : (onMap f s).stage = s.stage := rfl
@[simp] theorem onMap_prm (f : Motur → Motur) : (onMap f s).prm = s.prm := rfl
@[simp] theorem onMap_ctl (f : Motur → Motur) : (onMap f s).ctl = s.ctl := rfl
@[simp] theorem onMap_cmds (f : Motur → Motur) : (onMap f s).cmds = s.cmds := rfl
@[simp] theorem onMap_resv (f : Motur → Motur) : (onMap f s).resv = s.resv := rfl
@[simp] theorem onMap_hold (f : Motur → Motur) : (onMap f s).hold = s.hold := rfl
@[simp] theorem onMap_ptpl (f : Motur → Motur) : (onMap f s).ptpl = s.ptpl := rfl
@[simp] theorem onMap_orders (f : Motur → Motur) : (onMap f s).orders = s.orders := rfl
@[simp] theorem onMap_exts (f : Motur → Motur) : (onMap f s).exts = s.exts := rfl
@[simp] theorem onMap_smb (f : Motur → Motur) : (onMap f s).smb = s.smb := rfl
@[simp] theorem onMap_hx (f : Motur → Motur) : (onMap f s).hx = s.hx := rfl
@[simp] theorem onMap_jrnl (f : Motur → Motur) : (onMap f s).jrnl = s.jrnl := rfl
@[simp] theorem onMap_map (f : Motur → Motur) : (onMap f s).map = f s.map := rfl
@[simp] theorem onMap_media (f : Motur → Motur) : (onMap f s).media = s.media := rfl
@[simp] theorem onMap_peer (f : Motur → Motur) : (onMap f s).peer = s.peer := rfl
@[simp] theorem onMap_braid (f : Motur → Motur) : (onMap f s).braid = s.braid := rfl
@[simp] theorem onMap_ps (f : Motur → Motur) : (onMap f s).ps = s.ps := rfl
@[simp] theorem onMap_therm (f : Motur → Motur) : (onMap f s).therm = s.therm := rfl
@[simp] theorem onMap_rf (f : Motur → Motur) : (onMap f s).rf = s.rf := rfl
@[simp] theorem onMap_cleat (f : Motur → Motur) : (onMap f s).cleat = s.cleat := rfl
@[simp] theorem onMap_safe (f : Motur → Motur) : (onMap f s).safe = s.safe := rfl
@[simp] theorem onMap_evt (f : Motur → Motur) : (onMap f s).evt = s.evt := rfl
@[simp] theorem onMap_dev (f : Motur → Motur) : (onMap f s).dev = s.dev := rfl
@[simp] theorem onMap_aon (f : Motur → Motur) : (onMap f s).aon = s.aon := rfl
@[simp] theorem onMap_pins (f : Motur → Motur) : (onMap f s).pins = s.pins := rfl
@[simp] theorem onMap_tap (f : Motur → Motur) : (onMap f s).tap = s.tap := rfl
@[simp] theorem onMap_out (f : Motur → Motur) : (onMap f s).out = s.out := rfl
@[simp] theorem onMap_fresh (f : Motur → Motur) : (onMap f s).fresh = s.fresh := rfl
@[simp] theorem onMap_pending (f : Motur → Motur) : (onMap f s).pending = s.pending := rfl
@[simp] theorem onMedia_hly (f : Media → Media) : (onMedia f s).hly = s.hly := rfl
@[simp] theorem onMedia_pwr (f : Media → Media) : (onMedia f s).pwr = s.pwr := rfl
@[simp] theorem onMedia_flush (f : Media → Media) : (onMedia f s).flush = s.flush := rfl
@[simp] theorem onMedia_cfg (f : Media → Media) : (onMedia f s).cfg = s.cfg := rfl
@[simp] theorem onMedia_boot (f : Media → Media) : (onMedia f s).boot = s.boot := rfl
@[simp] theorem onMedia_stage (f : Media → Media) : (onMedia f s).stage = s.stage := rfl
@[simp] theorem onMedia_prm (f : Media → Media) : (onMedia f s).prm = s.prm := rfl
@[simp] theorem onMedia_ctl (f : Media → Media) : (onMedia f s).ctl = s.ctl := rfl
@[simp] theorem onMedia_cmds (f : Media → Media) : (onMedia f s).cmds = s.cmds := rfl
@[simp] theorem onMedia_resv (f : Media → Media) : (onMedia f s).resv = s.resv := rfl
@[simp] theorem onMedia_hold (f : Media → Media) : (onMedia f s).hold = s.hold := rfl
@[simp] theorem onMedia_ptpl (f : Media → Media) : (onMedia f s).ptpl = s.ptpl := rfl
@[simp] theorem onMedia_orders (f : Media → Media) : (onMedia f s).orders = s.orders := rfl
@[simp] theorem onMedia_exts (f : Media → Media) : (onMedia f s).exts = s.exts := rfl
@[simp] theorem onMedia_smb (f : Media → Media) : (onMedia f s).smb = s.smb := rfl
@[simp] theorem onMedia_hx (f : Media → Media) : (onMedia f s).hx = s.hx := rfl
@[simp] theorem onMedia_jrnl (f : Media → Media) : (onMedia f s).jrnl = s.jrnl := rfl
@[simp] theorem onMedia_map (f : Media → Media) : (onMedia f s).map = s.map := rfl
@[simp] theorem onMedia_media (f : Media → Media) : (onMedia f s).media = f s.media := rfl
@[simp] theorem onMedia_peer (f : Media → Media) : (onMedia f s).peer = s.peer := rfl
@[simp] theorem onMedia_braid (f : Media → Media) : (onMedia f s).braid = s.braid := rfl
@[simp] theorem onMedia_ps (f : Media → Media) : (onMedia f s).ps = s.ps := rfl
@[simp] theorem onMedia_therm (f : Media → Media) : (onMedia f s).therm = s.therm := rfl
@[simp] theorem onMedia_rf (f : Media → Media) : (onMedia f s).rf = s.rf := rfl
@[simp] theorem onMedia_cleat (f : Media → Media) : (onMedia f s).cleat = s.cleat := rfl
@[simp] theorem onMedia_safe (f : Media → Media) : (onMedia f s).safe = s.safe := rfl
@[simp] theorem onMedia_evt (f : Media → Media) : (onMedia f s).evt = s.evt := rfl
@[simp] theorem onMedia_dev (f : Media → Media) : (onMedia f s).dev = s.dev := rfl
@[simp] theorem onMedia_aon (f : Media → Media) : (onMedia f s).aon = s.aon := rfl
@[simp] theorem onMedia_pins (f : Media → Media) : (onMedia f s).pins = s.pins := rfl
@[simp] theorem onMedia_tap (f : Media → Media) : (onMedia f s).tap = s.tap := rfl
@[simp] theorem onMedia_out (f : Media → Media) : (onMedia f s).out = s.out := rfl
@[simp] theorem onMedia_fresh (f : Media → Media) : (onMedia f s).fresh = s.fresh := rfl
@[simp] theorem onMedia_pending (f : Media → Media) : (onMedia f s).pending = s.pending := rfl
@[simp] theorem onPeer_hly (f : PerPort PeerPort → PerPort PeerPort) : (onPeer f s).hly = s.hly := rfl
@[simp] theorem onPeer_pwr (f : PerPort PeerPort → PerPort PeerPort) : (onPeer f s).pwr = s.pwr := rfl
@[simp] theorem onPeer_flush (f : PerPort PeerPort → PerPort PeerPort) : (onPeer f s).flush = s.flush := rfl
@[simp] theorem onPeer_cfg (f : PerPort PeerPort → PerPort PeerPort) : (onPeer f s).cfg = s.cfg := rfl
@[simp] theorem onPeer_boot (f : PerPort PeerPort → PerPort PeerPort) : (onPeer f s).boot = s.boot := rfl
@[simp] theorem onPeer_stage (f : PerPort PeerPort → PerPort PeerPort) : (onPeer f s).stage = s.stage := rfl
@[simp] theorem onPeer_prm (f : PerPort PeerPort → PerPort PeerPort) : (onPeer f s).prm = s.prm := rfl
@[simp] theorem onPeer_ctl (f : PerPort PeerPort → PerPort PeerPort) : (onPeer f s).ctl = s.ctl := rfl
@[simp] theorem onPeer_cmds (f : PerPort PeerPort → PerPort PeerPort) : (onPeer f s).cmds = s.cmds := rfl
@[simp] theorem onPeer_resv (f : PerPort PeerPort → PerPort PeerPort) : (onPeer f s).resv = s.resv := rfl
@[simp] theorem onPeer_hold (f : PerPort PeerPort → PerPort PeerPort) : (onPeer f s).hold = s.hold := rfl
@[simp] theorem onPeer_ptpl (f : PerPort PeerPort → PerPort PeerPort) : (onPeer f s).ptpl = s.ptpl := rfl
@[simp] theorem onPeer_orders (f : PerPort PeerPort → PerPort PeerPort) : (onPeer f s).orders = s.orders := rfl
@[simp] theorem onPeer_exts (f : PerPort PeerPort → PerPort PeerPort) : (onPeer f s).exts = s.exts := rfl
@[simp] theorem onPeer_smb (f : PerPort PeerPort → PerPort PeerPort) : (onPeer f s).smb = s.smb := rfl
@[simp] theorem onPeer_hx (f : PerPort PeerPort → PerPort PeerPort) : (onPeer f s).hx = s.hx := rfl
@[simp] theorem onPeer_jrnl (f : PerPort PeerPort → PerPort PeerPort) : (onPeer f s).jrnl = s.jrnl := rfl
@[simp] theorem onPeer_map (f : PerPort PeerPort → PerPort PeerPort) : (onPeer f s).map = s.map := rfl
@[simp] theorem onPeer_media (f : PerPort PeerPort → PerPort PeerPort) : (onPeer f s).media = s.media := rfl
@[simp] theorem onPeer_peer (f : PerPort PeerPort → PerPort PeerPort) : (onPeer f s).peer = f s.peer := rfl
@[simp] theorem onPeer_braid (f : PerPort PeerPort → PerPort PeerPort) : (onPeer f s).braid = s.braid := rfl
@[simp] theorem onPeer_ps (f : PerPort PeerPort → PerPort PeerPort) : (onPeer f s).ps = s.ps := rfl
@[simp] theorem onPeer_therm (f : PerPort PeerPort → PerPort PeerPort) : (onPeer f s).therm = s.therm := rfl
@[simp] theorem onPeer_rf (f : PerPort PeerPort → PerPort PeerPort) : (onPeer f s).rf = s.rf := rfl
@[simp] theorem onPeer_cleat (f : PerPort PeerPort → PerPort PeerPort) : (onPeer f s).cleat = s.cleat := rfl
@[simp] theorem onPeer_safe (f : PerPort PeerPort → PerPort PeerPort) : (onPeer f s).safe = s.safe := rfl
@[simp] theorem onPeer_evt (f : PerPort PeerPort → PerPort PeerPort) : (onPeer f s).evt = s.evt := rfl
@[simp] theorem onPeer_dev (f : PerPort PeerPort → PerPort PeerPort) : (onPeer f s).dev = s.dev := rfl
@[simp] theorem onPeer_aon (f : PerPort PeerPort → PerPort PeerPort) : (onPeer f s).aon = s.aon := rfl
@[simp] theorem onPeer_pins (f : PerPort PeerPort → PerPort PeerPort) : (onPeer f s).pins = s.pins := rfl
@[simp] theorem onPeer_tap (f : PerPort PeerPort → PerPort PeerPort) : (onPeer f s).tap = s.tap := rfl
@[simp] theorem onPeer_out (f : PerPort PeerPort → PerPort PeerPort) : (onPeer f s).out = s.out := rfl
@[simp] theorem onPeer_fresh (f : PerPort PeerPort → PerPort PeerPort) : (onPeer f s).fresh = s.fresh := rfl
@[simp] theorem onPeer_pending (f : PerPort PeerPort → PerPort PeerPort) : (onPeer f s).pending = s.pending := rfl
@[simp] theorem onBraid_hly (f : Braid → Braid) : (onBraid f s).hly = s.hly := rfl
@[simp] theorem onBraid_pwr (f : Braid → Braid) : (onBraid f s).pwr = s.pwr := rfl
@[simp] theorem onBraid_flush (f : Braid → Braid) : (onBraid f s).flush = s.flush := rfl
@[simp] theorem onBraid_cfg (f : Braid → Braid) : (onBraid f s).cfg = s.cfg := rfl
@[simp] theorem onBraid_boot (f : Braid → Braid) : (onBraid f s).boot = s.boot := rfl
@[simp] theorem onBraid_stage (f : Braid → Braid) : (onBraid f s).stage = s.stage := rfl
@[simp] theorem onBraid_prm (f : Braid → Braid) : (onBraid f s).prm = s.prm := rfl
@[simp] theorem onBraid_ctl (f : Braid → Braid) : (onBraid f s).ctl = s.ctl := rfl
@[simp] theorem onBraid_cmds (f : Braid → Braid) : (onBraid f s).cmds = s.cmds := rfl
@[simp] theorem onBraid_resv (f : Braid → Braid) : (onBraid f s).resv = s.resv := rfl
@[simp] theorem onBraid_hold (f : Braid → Braid) : (onBraid f s).hold = s.hold := rfl
@[simp] theorem onBraid_ptpl (f : Braid → Braid) : (onBraid f s).ptpl = s.ptpl := rfl
@[simp] theorem onBraid_orders (f : Braid → Braid) : (onBraid f s).orders = s.orders := rfl
@[simp] theorem onBraid_exts (f : Braid → Braid) : (onBraid f s).exts = s.exts := rfl
@[simp] theorem onBraid_smb (f : Braid → Braid) : (onBraid f s).smb = s.smb := rfl
@[simp] theorem onBraid_hx (f : Braid → Braid) : (onBraid f s).hx = s.hx := rfl
@[simp] theorem onBraid_jrnl (f : Braid → Braid) : (onBraid f s).jrnl = s.jrnl := rfl
@[simp] theorem onBraid_map (f : Braid → Braid) : (onBraid f s).map = s.map := rfl
@[simp] theorem onBraid_media (f : Braid → Braid) : (onBraid f s).media = s.media := rfl
@[simp] theorem onBraid_peer (f : Braid → Braid) : (onBraid f s).peer = s.peer := rfl
@[simp] theorem onBraid_braid (f : Braid → Braid) : (onBraid f s).braid = f s.braid := rfl
@[simp] theorem onBraid_ps (f : Braid → Braid) : (onBraid f s).ps = s.ps := rfl
@[simp] theorem onBraid_therm (f : Braid → Braid) : (onBraid f s).therm = s.therm := rfl
@[simp] theorem onBraid_rf (f : Braid → Braid) : (onBraid f s).rf = s.rf := rfl
@[simp] theorem onBraid_cleat (f : Braid → Braid) : (onBraid f s).cleat = s.cleat := rfl
@[simp] theorem onBraid_safe (f : Braid → Braid) : (onBraid f s).safe = s.safe := rfl
@[simp] theorem onBraid_evt (f : Braid → Braid) : (onBraid f s).evt = s.evt := rfl
@[simp] theorem onBraid_dev (f : Braid → Braid) : (onBraid f s).dev = s.dev := rfl
@[simp] theorem onBraid_aon (f : Braid → Braid) : (onBraid f s).aon = s.aon := rfl
@[simp] theorem onBraid_pins (f : Braid → Braid) : (onBraid f s).pins = s.pins := rfl
@[simp] theorem onBraid_tap (f : Braid → Braid) : (onBraid f s).tap = s.tap := rfl
@[simp] theorem onBraid_out (f : Braid → Braid) : (onBraid f s).out = s.out := rfl
@[simp] theorem onBraid_fresh (f : Braid → Braid) : (onBraid f s).fresh = s.fresh := rfl
@[simp] theorem onBraid_pending (f : Braid → Braid) : (onBraid f s).pending = s.pending := rfl
@[simp] theorem onPs_hly (f : PState → PState) : (onPs f s).hly = s.hly := rfl
@[simp] theorem onPs_pwr (f : PState → PState) : (onPs f s).pwr = s.pwr := rfl
@[simp] theorem onPs_flush (f : PState → PState) : (onPs f s).flush = s.flush := rfl
@[simp] theorem onPs_cfg (f : PState → PState) : (onPs f s).cfg = s.cfg := rfl
@[simp] theorem onPs_boot (f : PState → PState) : (onPs f s).boot = s.boot := rfl
@[simp] theorem onPs_stage (f : PState → PState) : (onPs f s).stage = s.stage := rfl
@[simp] theorem onPs_prm (f : PState → PState) : (onPs f s).prm = s.prm := rfl
@[simp] theorem onPs_ctl (f : PState → PState) : (onPs f s).ctl = s.ctl := rfl
@[simp] theorem onPs_cmds (f : PState → PState) : (onPs f s).cmds = s.cmds := rfl
@[simp] theorem onPs_resv (f : PState → PState) : (onPs f s).resv = s.resv := rfl
@[simp] theorem onPs_hold (f : PState → PState) : (onPs f s).hold = s.hold := rfl
@[simp] theorem onPs_ptpl (f : PState → PState) : (onPs f s).ptpl = s.ptpl := rfl
@[simp] theorem onPs_orders (f : PState → PState) : (onPs f s).orders = s.orders := rfl
@[simp] theorem onPs_exts (f : PState → PState) : (onPs f s).exts = s.exts := rfl
@[simp] theorem onPs_smb (f : PState → PState) : (onPs f s).smb = s.smb := rfl
@[simp] theorem onPs_hx (f : PState → PState) : (onPs f s).hx = s.hx := rfl
@[simp] theorem onPs_jrnl (f : PState → PState) : (onPs f s).jrnl = s.jrnl := rfl
@[simp] theorem onPs_map (f : PState → PState) : (onPs f s).map = s.map := rfl
@[simp] theorem onPs_media (f : PState → PState) : (onPs f s).media = s.media := rfl
@[simp] theorem onPs_peer (f : PState → PState) : (onPs f s).peer = s.peer := rfl
@[simp] theorem onPs_braid (f : PState → PState) : (onPs f s).braid = s.braid := rfl
@[simp] theorem onPs_ps (f : PState → PState) : (onPs f s).ps = f s.ps := rfl
@[simp] theorem onPs_therm (f : PState → PState) : (onPs f s).therm = s.therm := rfl
@[simp] theorem onPs_rf (f : PState → PState) : (onPs f s).rf = s.rf := rfl
@[simp] theorem onPs_cleat (f : PState → PState) : (onPs f s).cleat = s.cleat := rfl
@[simp] theorem onPs_safe (f : PState → PState) : (onPs f s).safe = s.safe := rfl
@[simp] theorem onPs_evt (f : PState → PState) : (onPs f s).evt = s.evt := rfl
@[simp] theorem onPs_dev (f : PState → PState) : (onPs f s).dev = s.dev := rfl
@[simp] theorem onPs_aon (f : PState → PState) : (onPs f s).aon = s.aon := rfl
@[simp] theorem onPs_pins (f : PState → PState) : (onPs f s).pins = s.pins := rfl
@[simp] theorem onPs_tap (f : PState → PState) : (onPs f s).tap = s.tap := rfl
@[simp] theorem onPs_out (f : PState → PState) : (onPs f s).out = s.out := rfl
@[simp] theorem onPs_fresh (f : PState → PState) : (onPs f s).fresh = s.fresh := rfl
@[simp] theorem onPs_pending (f : PState → PState) : (onPs f s).pending = s.pending := rfl
@[simp] theorem onTherm_hly (f : Therm → Therm) : (onTherm f s).hly = s.hly := rfl
@[simp] theorem onTherm_pwr (f : Therm → Therm) : (onTherm f s).pwr = s.pwr := rfl
@[simp] theorem onTherm_flush (f : Therm → Therm) : (onTherm f s).flush = s.flush := rfl
@[simp] theorem onTherm_cfg (f : Therm → Therm) : (onTherm f s).cfg = s.cfg := rfl
@[simp] theorem onTherm_boot (f : Therm → Therm) : (onTherm f s).boot = s.boot := rfl
@[simp] theorem onTherm_stage (f : Therm → Therm) : (onTherm f s).stage = s.stage := rfl
@[simp] theorem onTherm_prm (f : Therm → Therm) : (onTherm f s).prm = s.prm := rfl
@[simp] theorem onTherm_ctl (f : Therm → Therm) : (onTherm f s).ctl = s.ctl := rfl
@[simp] theorem onTherm_cmds (f : Therm → Therm) : (onTherm f s).cmds = s.cmds := rfl
@[simp] theorem onTherm_resv (f : Therm → Therm) : (onTherm f s).resv = s.resv := rfl
@[simp] theorem onTherm_hold (f : Therm → Therm) : (onTherm f s).hold = s.hold := rfl
@[simp] theorem onTherm_ptpl (f : Therm → Therm) : (onTherm f s).ptpl = s.ptpl := rfl
@[simp] theorem onTherm_orders (f : Therm → Therm) : (onTherm f s).orders = s.orders := rfl
@[simp] theorem onTherm_exts (f : Therm → Therm) : (onTherm f s).exts = s.exts := rfl
@[simp] theorem onTherm_smb (f : Therm → Therm) : (onTherm f s).smb = s.smb := rfl
@[simp] theorem onTherm_hx (f : Therm → Therm) : (onTherm f s).hx = s.hx := rfl
@[simp] theorem onTherm_jrnl (f : Therm → Therm) : (onTherm f s).jrnl = s.jrnl := rfl
@[simp] theorem onTherm_map (f : Therm → Therm) : (onTherm f s).map = s.map := rfl
@[simp] theorem onTherm_media (f : Therm → Therm) : (onTherm f s).media = s.media := rfl
@[simp] theorem onTherm_peer (f : Therm → Therm) : (onTherm f s).peer = s.peer := rfl
@[simp] theorem onTherm_braid (f : Therm → Therm) : (onTherm f s).braid = s.braid := rfl
@[simp] theorem onTherm_ps (f : Therm → Therm) : (onTherm f s).ps = s.ps := rfl
@[simp] theorem onTherm_therm (f : Therm → Therm) : (onTherm f s).therm = f s.therm := rfl
@[simp] theorem onTherm_rf (f : Therm → Therm) : (onTherm f s).rf = s.rf := rfl
@[simp] theorem onTherm_cleat (f : Therm → Therm) : (onTherm f s).cleat = s.cleat := rfl
@[simp] theorem onTherm_safe (f : Therm → Therm) : (onTherm f s).safe = s.safe := rfl
@[simp] theorem onTherm_evt (f : Therm → Therm) : (onTherm f s).evt = s.evt := rfl
@[simp] theorem onTherm_dev (f : Therm → Therm) : (onTherm f s).dev = s.dev := rfl
@[simp] theorem onTherm_aon (f : Therm → Therm) : (onTherm f s).aon = s.aon := rfl
@[simp] theorem onTherm_pins (f : Therm → Therm) : (onTherm f s).pins = s.pins := rfl
@[simp] theorem onTherm_tap (f : Therm → Therm) : (onTherm f s).tap = s.tap := rfl
@[simp] theorem onTherm_out (f : Therm → Therm) : (onTherm f s).out = s.out := rfl
@[simp] theorem onTherm_fresh (f : Therm → Therm) : (onTherm f s).fresh = s.fresh := rfl
@[simp] theorem onTherm_pending (f : Therm → Therm) : (onTherm f s).pending = s.pending := rfl
@[simp] theorem onRf_hly (f : RecFlash → RecFlash) : (onRf f s).hly = s.hly := rfl
@[simp] theorem onRf_pwr (f : RecFlash → RecFlash) : (onRf f s).pwr = s.pwr := rfl
@[simp] theorem onRf_flush (f : RecFlash → RecFlash) : (onRf f s).flush = s.flush := rfl
@[simp] theorem onRf_cfg (f : RecFlash → RecFlash) : (onRf f s).cfg = s.cfg := rfl
@[simp] theorem onRf_boot (f : RecFlash → RecFlash) : (onRf f s).boot = s.boot := rfl
@[simp] theorem onRf_stage (f : RecFlash → RecFlash) : (onRf f s).stage = s.stage := rfl
@[simp] theorem onRf_prm (f : RecFlash → RecFlash) : (onRf f s).prm = s.prm := rfl
@[simp] theorem onRf_ctl (f : RecFlash → RecFlash) : (onRf f s).ctl = s.ctl := rfl
@[simp] theorem onRf_cmds (f : RecFlash → RecFlash) : (onRf f s).cmds = s.cmds := rfl
@[simp] theorem onRf_resv (f : RecFlash → RecFlash) : (onRf f s).resv = s.resv := rfl
@[simp] theorem onRf_hold (f : RecFlash → RecFlash) : (onRf f s).hold = s.hold := rfl
@[simp] theorem onRf_ptpl (f : RecFlash → RecFlash) : (onRf f s).ptpl = s.ptpl := rfl
@[simp] theorem onRf_orders (f : RecFlash → RecFlash) : (onRf f s).orders = s.orders := rfl
@[simp] theorem onRf_exts (f : RecFlash → RecFlash) : (onRf f s).exts = s.exts := rfl
@[simp] theorem onRf_smb (f : RecFlash → RecFlash) : (onRf f s).smb = s.smb := rfl
@[simp] theorem onRf_hx (f : RecFlash → RecFlash) : (onRf f s).hx = s.hx := rfl
@[simp] theorem onRf_jrnl (f : RecFlash → RecFlash) : (onRf f s).jrnl = s.jrnl := rfl
@[simp] theorem onRf_map (f : RecFlash → RecFlash) : (onRf f s).map = s.map := rfl
@[simp] theorem onRf_media (f : RecFlash → RecFlash) : (onRf f s).media = s.media := rfl
@[simp] theorem onRf_peer (f : RecFlash → RecFlash) : (onRf f s).peer = s.peer := rfl
@[simp] theorem onRf_braid (f : RecFlash → RecFlash) : (onRf f s).braid = s.braid := rfl
@[simp] theorem onRf_ps (f : RecFlash → RecFlash) : (onRf f s).ps = s.ps := rfl
@[simp] theorem onRf_therm (f : RecFlash → RecFlash) : (onRf f s).therm = s.therm := rfl
@[simp] theorem onRf_rf (f : RecFlash → RecFlash) : (onRf f s).rf = f s.rf := rfl
@[simp] theorem onRf_cleat (f : RecFlash → RecFlash) : (onRf f s).cleat = s.cleat := rfl
@[simp] theorem onRf_safe (f : RecFlash → RecFlash) : (onRf f s).safe = s.safe := rfl
@[simp] theorem onRf_evt (f : RecFlash → RecFlash) : (onRf f s).evt = s.evt := rfl
@[simp] theorem onRf_dev (f : RecFlash → RecFlash) : (onRf f s).dev = s.dev := rfl
@[simp] theorem onRf_aon (f : RecFlash → RecFlash) : (onRf f s).aon = s.aon := rfl
@[simp] theorem onRf_pins (f : RecFlash → RecFlash) : (onRf f s).pins = s.pins := rfl
@[simp] theorem onRf_tap (f : RecFlash → RecFlash) : (onRf f s).tap = s.tap := rfl
@[simp] theorem onRf_out (f : RecFlash → RecFlash) : (onRf f s).out = s.out := rfl
@[simp] theorem onRf_fresh (f : RecFlash → RecFlash) : (onRf f s).fresh = s.fresh := rfl
@[simp] theorem onRf_pending (f : RecFlash → RecFlash) : (onRf f s).pending = s.pending := rfl
@[simp] theorem onCleat_hly (f : Cleat → Cleat) : (onCleat f s).hly = s.hly := rfl
@[simp] theorem onCleat_pwr (f : Cleat → Cleat) : (onCleat f s).pwr = s.pwr := rfl
@[simp] theorem onCleat_flush (f : Cleat → Cleat) : (onCleat f s).flush = s.flush := rfl
@[simp] theorem onCleat_cfg (f : Cleat → Cleat) : (onCleat f s).cfg = s.cfg := rfl
@[simp] theorem onCleat_boot (f : Cleat → Cleat) : (onCleat f s).boot = s.boot := rfl
@[simp] theorem onCleat_stage (f : Cleat → Cleat) : (onCleat f s).stage = s.stage := rfl
@[simp] theorem onCleat_prm (f : Cleat → Cleat) : (onCleat f s).prm = s.prm := rfl
@[simp] theorem onCleat_ctl (f : Cleat → Cleat) : (onCleat f s).ctl = s.ctl := rfl
@[simp] theorem onCleat_cmds (f : Cleat → Cleat) : (onCleat f s).cmds = s.cmds := rfl
@[simp] theorem onCleat_resv (f : Cleat → Cleat) : (onCleat f s).resv = s.resv := rfl
@[simp] theorem onCleat_hold (f : Cleat → Cleat) : (onCleat f s).hold = s.hold := rfl
@[simp] theorem onCleat_ptpl (f : Cleat → Cleat) : (onCleat f s).ptpl = s.ptpl := rfl
@[simp] theorem onCleat_orders (f : Cleat → Cleat) : (onCleat f s).orders = s.orders := rfl
@[simp] theorem onCleat_exts (f : Cleat → Cleat) : (onCleat f s).exts = s.exts := rfl
@[simp] theorem onCleat_smb (f : Cleat → Cleat) : (onCleat f s).smb = s.smb := rfl
@[simp] theorem onCleat_hx (f : Cleat → Cleat) : (onCleat f s).hx = s.hx := rfl
@[simp] theorem onCleat_jrnl (f : Cleat → Cleat) : (onCleat f s).jrnl = s.jrnl := rfl
@[simp] theorem onCleat_map (f : Cleat → Cleat) : (onCleat f s).map = s.map := rfl
@[simp] theorem onCleat_media (f : Cleat → Cleat) : (onCleat f s).media = s.media := rfl
@[simp] theorem onCleat_peer (f : Cleat → Cleat) : (onCleat f s).peer = s.peer := rfl
@[simp] theorem onCleat_braid (f : Cleat → Cleat) : (onCleat f s).braid = s.braid := rfl
@[simp] theorem onCleat_ps (f : Cleat → Cleat) : (onCleat f s).ps = s.ps := rfl
@[simp] theorem onCleat_therm (f : Cleat → Cleat) : (onCleat f s).therm = s.therm := rfl
@[simp] theorem onCleat_rf (f : Cleat → Cleat) : (onCleat f s).rf = s.rf := rfl
@[simp] theorem onCleat_cleat (f : Cleat → Cleat) : (onCleat f s).cleat = f s.cleat := rfl
@[simp] theorem onCleat_safe (f : Cleat → Cleat) : (onCleat f s).safe = s.safe := rfl
@[simp] theorem onCleat_evt (f : Cleat → Cleat) : (onCleat f s).evt = s.evt := rfl
@[simp] theorem onCleat_dev (f : Cleat → Cleat) : (onCleat f s).dev = s.dev := rfl
@[simp] theorem onCleat_aon (f : Cleat → Cleat) : (onCleat f s).aon = s.aon := rfl
@[simp] theorem onCleat_pins (f : Cleat → Cleat) : (onCleat f s).pins = s.pins := rfl
@[simp] theorem onCleat_tap (f : Cleat → Cleat) : (onCleat f s).tap = s.tap := rfl
@[simp] theorem onCleat_out (f : Cleat → Cleat) : (onCleat f s).out = s.out := rfl
@[simp] theorem onCleat_fresh (f : Cleat → Cleat) : (onCleat f s).fresh = s.fresh := rfl
@[simp] theorem onCleat_pending (f : Cleat → Cleat) : (onCleat f s).pending = s.pending := rfl
@[simp] theorem onSafe_hly (f : Safe → Safe) : (onSafe f s).hly = s.hly := rfl
@[simp] theorem onSafe_pwr (f : Safe → Safe) : (onSafe f s).pwr = s.pwr := rfl
@[simp] theorem onSafe_flush (f : Safe → Safe) : (onSafe f s).flush = s.flush := rfl
@[simp] theorem onSafe_cfg (f : Safe → Safe) : (onSafe f s).cfg = s.cfg := rfl
@[simp] theorem onSafe_boot (f : Safe → Safe) : (onSafe f s).boot = s.boot := rfl
@[simp] theorem onSafe_stage (f : Safe → Safe) : (onSafe f s).stage = s.stage := rfl
@[simp] theorem onSafe_prm (f : Safe → Safe) : (onSafe f s).prm = s.prm := rfl
@[simp] theorem onSafe_ctl (f : Safe → Safe) : (onSafe f s).ctl = s.ctl := rfl
@[simp] theorem onSafe_cmds (f : Safe → Safe) : (onSafe f s).cmds = s.cmds := rfl
@[simp] theorem onSafe_resv (f : Safe → Safe) : (onSafe f s).resv = s.resv := rfl
@[simp] theorem onSafe_hold (f : Safe → Safe) : (onSafe f s).hold = s.hold := rfl
@[simp] theorem onSafe_ptpl (f : Safe → Safe) : (onSafe f s).ptpl = s.ptpl := rfl
@[simp] theorem onSafe_orders (f : Safe → Safe) : (onSafe f s).orders = s.orders := rfl
@[simp] theorem onSafe_exts (f : Safe → Safe) : (onSafe f s).exts = s.exts := rfl
@[simp] theorem onSafe_smb (f : Safe → Safe) : (onSafe f s).smb = s.smb := rfl
@[simp] theorem onSafe_hx (f : Safe → Safe) : (onSafe f s).hx = s.hx := rfl
@[simp] theorem onSafe_jrnl (f : Safe → Safe) : (onSafe f s).jrnl = s.jrnl := rfl
@[simp] theorem onSafe_map (f : Safe → Safe) : (onSafe f s).map = s.map := rfl
@[simp] theorem onSafe_media (f : Safe → Safe) : (onSafe f s).media = s.media := rfl
@[simp] theorem onSafe_peer (f : Safe → Safe) : (onSafe f s).peer = s.peer := rfl
@[simp] theorem onSafe_braid (f : Safe → Safe) : (onSafe f s).braid = s.braid := rfl
@[simp] theorem onSafe_ps (f : Safe → Safe) : (onSafe f s).ps = s.ps := rfl
@[simp] theorem onSafe_therm (f : Safe → Safe) : (onSafe f s).therm = s.therm := rfl
@[simp] theorem onSafe_rf (f : Safe → Safe) : (onSafe f s).rf = s.rf := rfl
@[simp] theorem onSafe_cleat (f : Safe → Safe) : (onSafe f s).cleat = s.cleat := rfl
@[simp] theorem onSafe_safe (f : Safe → Safe) : (onSafe f s).safe = f s.safe := rfl
@[simp] theorem onSafe_evt (f : Safe → Safe) : (onSafe f s).evt = s.evt := rfl
@[simp] theorem onSafe_dev (f : Safe → Safe) : (onSafe f s).dev = s.dev := rfl
@[simp] theorem onSafe_aon (f : Safe → Safe) : (onSafe f s).aon = s.aon := rfl
@[simp] theorem onSafe_pins (f : Safe → Safe) : (onSafe f s).pins = s.pins := rfl
@[simp] theorem onSafe_tap (f : Safe → Safe) : (onSafe f s).tap = s.tap := rfl
@[simp] theorem onSafe_out (f : Safe → Safe) : (onSafe f s).out = s.out := rfl
@[simp] theorem onSafe_fresh (f : Safe → Safe) : (onSafe f s).fresh = s.fresh := rfl
@[simp] theorem onSafe_pending (f : Safe → Safe) : (onSafe f s).pending = s.pending := rfl
@[simp] theorem onEvt_hly (f : Evt → Evt) : (onEvt f s).hly = s.hly := rfl
@[simp] theorem onEvt_pwr (f : Evt → Evt) : (onEvt f s).pwr = s.pwr := rfl
@[simp] theorem onEvt_flush (f : Evt → Evt) : (onEvt f s).flush = s.flush := rfl
@[simp] theorem onEvt_cfg (f : Evt → Evt) : (onEvt f s).cfg = s.cfg := rfl
@[simp] theorem onEvt_boot (f : Evt → Evt) : (onEvt f s).boot = s.boot := rfl
@[simp] theorem onEvt_stage (f : Evt → Evt) : (onEvt f s).stage = s.stage := rfl
@[simp] theorem onEvt_prm (f : Evt → Evt) : (onEvt f s).prm = s.prm := rfl
@[simp] theorem onEvt_ctl (f : Evt → Evt) : (onEvt f s).ctl = s.ctl := rfl
@[simp] theorem onEvt_cmds (f : Evt → Evt) : (onEvt f s).cmds = s.cmds := rfl
@[simp] theorem onEvt_resv (f : Evt → Evt) : (onEvt f s).resv = s.resv := rfl
@[simp] theorem onEvt_hold (f : Evt → Evt) : (onEvt f s).hold = s.hold := rfl
@[simp] theorem onEvt_ptpl (f : Evt → Evt) : (onEvt f s).ptpl = s.ptpl := rfl
@[simp] theorem onEvt_orders (f : Evt → Evt) : (onEvt f s).orders = s.orders := rfl
@[simp] theorem onEvt_exts (f : Evt → Evt) : (onEvt f s).exts = s.exts := rfl
@[simp] theorem onEvt_smb (f : Evt → Evt) : (onEvt f s).smb = s.smb := rfl
@[simp] theorem onEvt_hx (f : Evt → Evt) : (onEvt f s).hx = s.hx := rfl
@[simp] theorem onEvt_jrnl (f : Evt → Evt) : (onEvt f s).jrnl = s.jrnl := rfl
@[simp] theorem onEvt_map (f : Evt → Evt) : (onEvt f s).map = s.map := rfl
@[simp] theorem onEvt_media (f : Evt → Evt) : (onEvt f s).media = s.media := rfl
@[simp] theorem onEvt_peer (f : Evt → Evt) : (onEvt f s).peer = s.peer := rfl
@[simp] theorem onEvt_braid (f : Evt → Evt) : (onEvt f s).braid = s.braid := rfl
@[simp] theorem onEvt_ps (f : Evt → Evt) : (onEvt f s).ps = s.ps := rfl
@[simp] theorem onEvt_therm (f : Evt → Evt) : (onEvt f s).therm = s.therm := rfl
@[simp] theorem onEvt_rf (f : Evt → Evt) : (onEvt f s).rf = s.rf := rfl
@[simp] theorem onEvt_cleat (f : Evt → Evt) : (onEvt f s).cleat = s.cleat := rfl
@[simp] theorem onEvt_safe (f : Evt → Evt) : (onEvt f s).safe = s.safe := rfl
@[simp] theorem onEvt_evt (f : Evt → Evt) : (onEvt f s).evt = f s.evt := rfl
@[simp] theorem onEvt_dev (f : Evt → Evt) : (onEvt f s).dev = s.dev := rfl
@[simp] theorem onEvt_aon (f : Evt → Evt) : (onEvt f s).aon = s.aon := rfl
@[simp] theorem onEvt_pins (f : Evt → Evt) : (onEvt f s).pins = s.pins := rfl
@[simp] theorem onEvt_tap (f : Evt → Evt) : (onEvt f s).tap = s.tap := rfl
@[simp] theorem onEvt_out (f : Evt → Evt) : (onEvt f s).out = s.out := rfl
@[simp] theorem onEvt_fresh (f : Evt → Evt) : (onEvt f s).fresh = s.fresh := rfl
@[simp] theorem onEvt_pending (f : Evt → Evt) : (onEvt f s).pending = s.pending := rfl
@[simp] theorem onDev_hly (f : Dev → Dev) : (onDev f s).hly = s.hly := rfl
@[simp] theorem onDev_pwr (f : Dev → Dev) : (onDev f s).pwr = s.pwr := rfl
@[simp] theorem onDev_flush (f : Dev → Dev) : (onDev f s).flush = s.flush := rfl
@[simp] theorem onDev_cfg (f : Dev → Dev) : (onDev f s).cfg = s.cfg := rfl
@[simp] theorem onDev_boot (f : Dev → Dev) : (onDev f s).boot = s.boot := rfl
@[simp] theorem onDev_stage (f : Dev → Dev) : (onDev f s).stage = s.stage := rfl
@[simp] theorem onDev_prm (f : Dev → Dev) : (onDev f s).prm = s.prm := rfl
@[simp] theorem onDev_ctl (f : Dev → Dev) : (onDev f s).ctl = s.ctl := rfl
@[simp] theorem onDev_cmds (f : Dev → Dev) : (onDev f s).cmds = s.cmds := rfl
@[simp] theorem onDev_resv (f : Dev → Dev) : (onDev f s).resv = s.resv := rfl
@[simp] theorem onDev_hold (f : Dev → Dev) : (onDev f s).hold = s.hold := rfl
@[simp] theorem onDev_ptpl (f : Dev → Dev) : (onDev f s).ptpl = s.ptpl := rfl
@[simp] theorem onDev_orders (f : Dev → Dev) : (onDev f s).orders = s.orders := rfl
@[simp] theorem onDev_exts (f : Dev → Dev) : (onDev f s).exts = s.exts := rfl
@[simp] theorem onDev_smb (f : Dev → Dev) : (onDev f s).smb = s.smb := rfl
@[simp] theorem onDev_hx (f : Dev → Dev) : (onDev f s).hx = s.hx := rfl
@[simp] theorem onDev_jrnl (f : Dev → Dev) : (onDev f s).jrnl = s.jrnl := rfl
@[simp] theorem onDev_map (f : Dev → Dev) : (onDev f s).map = s.map := rfl
@[simp] theorem onDev_media (f : Dev → Dev) : (onDev f s).media = s.media := rfl
@[simp] theorem onDev_peer (f : Dev → Dev) : (onDev f s).peer = s.peer := rfl
@[simp] theorem onDev_braid (f : Dev → Dev) : (onDev f s).braid = s.braid := rfl
@[simp] theorem onDev_ps (f : Dev → Dev) : (onDev f s).ps = s.ps := rfl
@[simp] theorem onDev_therm (f : Dev → Dev) : (onDev f s).therm = s.therm := rfl
@[simp] theorem onDev_rf (f : Dev → Dev) : (onDev f s).rf = s.rf := rfl
@[simp] theorem onDev_cleat (f : Dev → Dev) : (onDev f s).cleat = s.cleat := rfl
@[simp] theorem onDev_safe (f : Dev → Dev) : (onDev f s).safe = s.safe := rfl
@[simp] theorem onDev_evt (f : Dev → Dev) : (onDev f s).evt = s.evt := rfl
@[simp] theorem onDev_dev (f : Dev → Dev) : (onDev f s).dev = f s.dev := rfl
@[simp] theorem onDev_aon (f : Dev → Dev) : (onDev f s).aon = s.aon := rfl
@[simp] theorem onDev_pins (f : Dev → Dev) : (onDev f s).pins = s.pins := rfl
@[simp] theorem onDev_tap (f : Dev → Dev) : (onDev f s).tap = s.tap := rfl
@[simp] theorem onDev_out (f : Dev → Dev) : (onDev f s).out = s.out := rfl
@[simp] theorem onDev_fresh (f : Dev → Dev) : (onDev f s).fresh = s.fresh := rfl
@[simp] theorem onDev_pending (f : Dev → Dev) : (onDev f s).pending = s.pending := rfl
@[simp] theorem onAon_hly (f : Aon → Aon) : (onAon f s).hly = s.hly := rfl
@[simp] theorem onAon_pwr (f : Aon → Aon) : (onAon f s).pwr = s.pwr := rfl
@[simp] theorem onAon_flush (f : Aon → Aon) : (onAon f s).flush = s.flush := rfl
@[simp] theorem onAon_cfg (f : Aon → Aon) : (onAon f s).cfg = s.cfg := rfl
@[simp] theorem onAon_boot (f : Aon → Aon) : (onAon f s).boot = s.boot := rfl
@[simp] theorem onAon_stage (f : Aon → Aon) : (onAon f s).stage = s.stage := rfl
@[simp] theorem onAon_prm (f : Aon → Aon) : (onAon f s).prm = s.prm := rfl
@[simp] theorem onAon_ctl (f : Aon → Aon) : (onAon f s).ctl = s.ctl := rfl
@[simp] theorem onAon_cmds (f : Aon → Aon) : (onAon f s).cmds = s.cmds := rfl
@[simp] theorem onAon_resv (f : Aon → Aon) : (onAon f s).resv = s.resv := rfl
@[simp] theorem onAon_hold (f : Aon → Aon) : (onAon f s).hold = s.hold := rfl
@[simp] theorem onAon_ptpl (f : Aon → Aon) : (onAon f s).ptpl = s.ptpl := rfl
@[simp] theorem onAon_orders (f : Aon → Aon) : (onAon f s).orders = s.orders := rfl
@[simp] theorem onAon_exts (f : Aon → Aon) : (onAon f s).exts = s.exts := rfl
@[simp] theorem onAon_smb (f : Aon → Aon) : (onAon f s).smb = s.smb := rfl
@[simp] theorem onAon_hx (f : Aon → Aon) : (onAon f s).hx = s.hx := rfl
@[simp] theorem onAon_jrnl (f : Aon → Aon) : (onAon f s).jrnl = s.jrnl := rfl
@[simp] theorem onAon_map (f : Aon → Aon) : (onAon f s).map = s.map := rfl
@[simp] theorem onAon_media (f : Aon → Aon) : (onAon f s).media = s.media := rfl
@[simp] theorem onAon_peer (f : Aon → Aon) : (onAon f s).peer = s.peer := rfl
@[simp] theorem onAon_braid (f : Aon → Aon) : (onAon f s).braid = s.braid := rfl
@[simp] theorem onAon_ps (f : Aon → Aon) : (onAon f s).ps = s.ps := rfl
@[simp] theorem onAon_therm (f : Aon → Aon) : (onAon f s).therm = s.therm := rfl
@[simp] theorem onAon_rf (f : Aon → Aon) : (onAon f s).rf = s.rf := rfl
@[simp] theorem onAon_cleat (f : Aon → Aon) : (onAon f s).cleat = s.cleat := rfl
@[simp] theorem onAon_safe (f : Aon → Aon) : (onAon f s).safe = s.safe := rfl
@[simp] theorem onAon_evt (f : Aon → Aon) : (onAon f s).evt = s.evt := rfl
@[simp] theorem onAon_dev (f : Aon → Aon) : (onAon f s).dev = s.dev := rfl
@[simp] theorem onAon_aon (f : Aon → Aon) : (onAon f s).aon = f s.aon := rfl
@[simp] theorem onAon_pins (f : Aon → Aon) : (onAon f s).pins = s.pins := rfl
@[simp] theorem onAon_tap (f : Aon → Aon) : (onAon f s).tap = s.tap := rfl
@[simp] theorem onAon_out (f : Aon → Aon) : (onAon f s).out = s.out := rfl
@[simp] theorem onAon_fresh (f : Aon → Aon) : (onAon f s).fresh = s.fresh := rfl
@[simp] theorem onAon_pending (f : Aon → Aon) : (onAon f s).pending = s.pending := rfl
@[simp] theorem onPins_hly (f : Pins → Pins) : (onPins f s).hly = s.hly := rfl
@[simp] theorem onPins_pwr (f : Pins → Pins) : (onPins f s).pwr = s.pwr := rfl
@[simp] theorem onPins_flush (f : Pins → Pins) : (onPins f s).flush = s.flush := rfl
@[simp] theorem onPins_cfg (f : Pins → Pins) : (onPins f s).cfg = s.cfg := rfl
@[simp] theorem onPins_boot (f : Pins → Pins) : (onPins f s).boot = s.boot := rfl
@[simp] theorem onPins_stage (f : Pins → Pins) : (onPins f s).stage = s.stage := rfl
@[simp] theorem onPins_prm (f : Pins → Pins) : (onPins f s).prm = s.prm := rfl
@[simp] theorem onPins_ctl (f : Pins → Pins) : (onPins f s).ctl = s.ctl := rfl
@[simp] theorem onPins_cmds (f : Pins → Pins) : (onPins f s).cmds = s.cmds := rfl
@[simp] theorem onPins_resv (f : Pins → Pins) : (onPins f s).resv = s.resv := rfl
@[simp] theorem onPins_hold (f : Pins → Pins) : (onPins f s).hold = s.hold := rfl
@[simp] theorem onPins_ptpl (f : Pins → Pins) : (onPins f s).ptpl = s.ptpl := rfl
@[simp] theorem onPins_orders (f : Pins → Pins) : (onPins f s).orders = s.orders := rfl
@[simp] theorem onPins_exts (f : Pins → Pins) : (onPins f s).exts = s.exts := rfl
@[simp] theorem onPins_smb (f : Pins → Pins) : (onPins f s).smb = s.smb := rfl
@[simp] theorem onPins_hx (f : Pins → Pins) : (onPins f s).hx = s.hx := rfl
@[simp] theorem onPins_jrnl (f : Pins → Pins) : (onPins f s).jrnl = s.jrnl := rfl
@[simp] theorem onPins_map (f : Pins → Pins) : (onPins f s).map = s.map := rfl
@[simp] theorem onPins_media (f : Pins → Pins) : (onPins f s).media = s.media := rfl
@[simp] theorem onPins_peer (f : Pins → Pins) : (onPins f s).peer = s.peer := rfl
@[simp] theorem onPins_braid (f : Pins → Pins) : (onPins f s).braid = s.braid := rfl
@[simp] theorem onPins_ps (f : Pins → Pins) : (onPins f s).ps = s.ps := rfl
@[simp] theorem onPins_therm (f : Pins → Pins) : (onPins f s).therm = s.therm := rfl
@[simp] theorem onPins_rf (f : Pins → Pins) : (onPins f s).rf = s.rf := rfl
@[simp] theorem onPins_cleat (f : Pins → Pins) : (onPins f s).cleat = s.cleat := rfl
@[simp] theorem onPins_safe (f : Pins → Pins) : (onPins f s).safe = s.safe := rfl
@[simp] theorem onPins_evt (f : Pins → Pins) : (onPins f s).evt = s.evt := rfl
@[simp] theorem onPins_dev (f : Pins → Pins) : (onPins f s).dev = s.dev := rfl
@[simp] theorem onPins_aon (f : Pins → Pins) : (onPins f s).aon = s.aon := rfl
@[simp] theorem onPins_pins (f : Pins → Pins) : (onPins f s).pins = f s.pins := rfl
@[simp] theorem onPins_tap (f : Pins → Pins) : (onPins f s).tap = s.tap := rfl
@[simp] theorem onPins_out (f : Pins → Pins) : (onPins f s).out = s.out := rfl
@[simp] theorem onPins_fresh (f : Pins → Pins) : (onPins f s).fresh = s.fresh := rfl
@[simp] theorem onPins_pending (f : Pins → Pins) : (onPins f s).pending = s.pending := rfl
@[simp] theorem onOut_hly (f : List Out → List Out) : (onOut f s).hly = s.hly := rfl
@[simp] theorem onOut_pwr (f : List Out → List Out) : (onOut f s).pwr = s.pwr := rfl
@[simp] theorem onOut_flush (f : List Out → List Out) : (onOut f s).flush = s.flush := rfl
@[simp] theorem onOut_cfg (f : List Out → List Out) : (onOut f s).cfg = s.cfg := rfl
@[simp] theorem onOut_boot (f : List Out → List Out) : (onOut f s).boot = s.boot := rfl
@[simp] theorem onOut_stage (f : List Out → List Out) : (onOut f s).stage = s.stage := rfl
@[simp] theorem onOut_prm (f : List Out → List Out) : (onOut f s).prm = s.prm := rfl
@[simp] theorem onOut_ctl (f : List Out → List Out) : (onOut f s).ctl = s.ctl := rfl
@[simp] theorem onOut_cmds (f : List Out → List Out) : (onOut f s).cmds = s.cmds := rfl
@[simp] theorem onOut_resv (f : List Out → List Out) : (onOut f s).resv = s.resv := rfl
@[simp] theorem onOut_hold (f : List Out → List Out) : (onOut f s).hold = s.hold := rfl
@[simp] theorem onOut_ptpl (f : List Out → List Out) : (onOut f s).ptpl = s.ptpl := rfl
@[simp] theorem onOut_orders (f : List Out → List Out) : (onOut f s).orders = s.orders := rfl
@[simp] theorem onOut_exts (f : List Out → List Out) : (onOut f s).exts = s.exts := rfl
@[simp] theorem onOut_smb (f : List Out → List Out) : (onOut f s).smb = s.smb := rfl
@[simp] theorem onOut_hx (f : List Out → List Out) : (onOut f s).hx = s.hx := rfl
@[simp] theorem onOut_jrnl (f : List Out → List Out) : (onOut f s).jrnl = s.jrnl := rfl
@[simp] theorem onOut_map (f : List Out → List Out) : (onOut f s).map = s.map := rfl
@[simp] theorem onOut_media (f : List Out → List Out) : (onOut f s).media = s.media := rfl
@[simp] theorem onOut_peer (f : List Out → List Out) : (onOut f s).peer = s.peer := rfl
@[simp] theorem onOut_braid (f : List Out → List Out) : (onOut f s).braid = s.braid := rfl
@[simp] theorem onOut_ps (f : List Out → List Out) : (onOut f s).ps = s.ps := rfl
@[simp] theorem onOut_therm (f : List Out → List Out) : (onOut f s).therm = s.therm := rfl
@[simp] theorem onOut_rf (f : List Out → List Out) : (onOut f s).rf = s.rf := rfl
@[simp] theorem onOut_cleat (f : List Out → List Out) : (onOut f s).cleat = s.cleat := rfl
@[simp] theorem onOut_safe (f : List Out → List Out) : (onOut f s).safe = s.safe := rfl
@[simp] theorem onOut_evt (f : List Out → List Out) : (onOut f s).evt = s.evt := rfl
@[simp] theorem onOut_dev (f : List Out → List Out) : (onOut f s).dev = s.dev := rfl
@[simp] theorem onOut_aon (f : List Out → List Out) : (onOut f s).aon = s.aon := rfl
@[simp] theorem onOut_pins (f : List Out → List Out) : (onOut f s).pins = s.pins := rfl
@[simp] theorem onOut_tap (f : List Out → List Out) : (onOut f s).tap = s.tap := rfl
@[simp] theorem onOut_out (f : List Out → List Out) : (onOut f s).out = f s.out := rfl
@[simp] theorem onOut_fresh (f : List Out → List Out) : (onOut f s).fresh = s.fresh := rfl
@[simp] theorem onOut_pending (f : List Out → List Out) : (onOut f s).pending = s.pending := rfl
@[simp] theorem onFresh_hly (f : Nat → Nat) : (onFresh f s).hly = s.hly := rfl
@[simp] theorem onFresh_pwr (f : Nat → Nat) : (onFresh f s).pwr = s.pwr := rfl
@[simp] theorem onFresh_flush (f : Nat → Nat) : (onFresh f s).flush = s.flush := rfl
@[simp] theorem onFresh_cfg (f : Nat → Nat) : (onFresh f s).cfg = s.cfg := rfl
@[simp] theorem onFresh_boot (f : Nat → Nat) : (onFresh f s).boot = s.boot := rfl
@[simp] theorem onFresh_stage (f : Nat → Nat) : (onFresh f s).stage = s.stage := rfl
@[simp] theorem onFresh_prm (f : Nat → Nat) : (onFresh f s).prm = s.prm := rfl
@[simp] theorem onFresh_ctl (f : Nat → Nat) : (onFresh f s).ctl = s.ctl := rfl
@[simp] theorem onFresh_cmds (f : Nat → Nat) : (onFresh f s).cmds = s.cmds := rfl
@[simp] theorem onFresh_resv (f : Nat → Nat) : (onFresh f s).resv = s.resv := rfl
@[simp] theorem onFresh_hold (f : Nat → Nat) : (onFresh f s).hold = s.hold := rfl
@[simp] theorem onFresh_ptpl (f : Nat → Nat) : (onFresh f s).ptpl = s.ptpl := rfl
@[simp] theorem onFresh_orders (f : Nat → Nat) : (onFresh f s).orders = s.orders := rfl
@[simp] theorem onFresh_exts (f : Nat → Nat) : (onFresh f s).exts = s.exts := rfl
@[simp] theorem onFresh_smb (f : Nat → Nat) : (onFresh f s).smb = s.smb := rfl
@[simp] theorem onFresh_hx (f : Nat → Nat) : (onFresh f s).hx = s.hx := rfl
@[simp] theorem onFresh_jrnl (f : Nat → Nat) : (onFresh f s).jrnl = s.jrnl := rfl
@[simp] theorem onFresh_map (f : Nat → Nat) : (onFresh f s).map = s.map := rfl
@[simp] theorem onFresh_media (f : Nat → Nat) : (onFresh f s).media = s.media := rfl
@[simp] theorem onFresh_peer (f : Nat → Nat) : (onFresh f s).peer = s.peer := rfl
@[simp] theorem onFresh_braid (f : Nat → Nat) : (onFresh f s).braid = s.braid := rfl
@[simp] theorem onFresh_ps (f : Nat → Nat) : (onFresh f s).ps = s.ps := rfl
@[simp] theorem onFresh_therm (f : Nat → Nat) : (onFresh f s).therm = s.therm := rfl
@[simp] theorem onFresh_rf (f : Nat → Nat) : (onFresh f s).rf = s.rf := rfl
@[simp] theorem onFresh_cleat (f : Nat → Nat) : (onFresh f s).cleat = s.cleat := rfl
@[simp] theorem onFresh_safe (f : Nat → Nat) : (onFresh f s).safe = s.safe := rfl
@[simp] theorem onFresh_evt (f : Nat → Nat) : (onFresh f s).evt = s.evt := rfl
@[simp] theorem onFresh_dev (f : Nat → Nat) : (onFresh f s).dev = s.dev := rfl
@[simp] theorem onFresh_aon (f : Nat → Nat) : (onFresh f s).aon = s.aon := rfl
@[simp] theorem onFresh_pins (f : Nat → Nat) : (onFresh f s).pins = s.pins := rfl
@[simp] theorem onFresh_tap (f : Nat → Nat) : (onFresh f s).tap = s.tap := rfl
@[simp] theorem onFresh_out (f : Nat → Nat) : (onFresh f s).out = s.out := rfl
@[simp] theorem onFresh_fresh (f : Nat → Nat) : (onFresh f s).fresh = f s.fresh := rfl
@[simp] theorem onFresh_pending (f : Nat → Nat) : (onFresh f s).pending = s.pending := rfl
@[simp] theorem onPending_hly (f : List Instr → List Instr) : (onPending f s).hly = s.hly := rfl
@[simp] theorem onPending_pwr (f : List Instr → List Instr) : (onPending f s).pwr = s.pwr := rfl
@[simp] theorem onPending_flush (f : List Instr → List Instr) : (onPending f s).flush = s.flush := rfl
@[simp] theorem onPending_cfg (f : List Instr → List Instr) : (onPending f s).cfg = s.cfg := rfl
@[simp] theorem onPending_boot (f : List Instr → List Instr) : (onPending f s).boot = s.boot := rfl
@[simp] theorem onPending_stage (f : List Instr → List Instr) : (onPending f s).stage = s.stage := rfl
@[simp] theorem onPending_prm (f : List Instr → List Instr) : (onPending f s).prm = s.prm := rfl
@[simp] theorem onPending_ctl (f : List Instr → List Instr) : (onPending f s).ctl = s.ctl := rfl
@[simp] theorem onPending_cmds (f : List Instr → List Instr) : (onPending f s).cmds = s.cmds := rfl
@[simp] theorem onPending_resv (f : List Instr → List Instr) : (onPending f s).resv = s.resv := rfl
@[simp] theorem onPending_hold (f : List Instr → List Instr) : (onPending f s).hold = s.hold := rfl
@[simp] theorem onPending_ptpl (f : List Instr → List Instr) : (onPending f s).ptpl = s.ptpl := rfl
@[simp] theorem onPending_orders (f : List Instr → List Instr) : (onPending f s).orders = s.orders := rfl
@[simp] theorem onPending_exts (f : List Instr → List Instr) : (onPending f s).exts = s.exts := rfl
@[simp] theorem onPending_smb (f : List Instr → List Instr) : (onPending f s).smb = s.smb := rfl
@[simp] theorem onPending_hx (f : List Instr → List Instr) : (onPending f s).hx = s.hx := rfl
@[simp] theorem onPending_jrnl (f : List Instr → List Instr) : (onPending f s).jrnl = s.jrnl := rfl
@[simp] theorem onPending_map (f : List Instr → List Instr) : (onPending f s).map = s.map := rfl
@[simp] theorem onPending_media (f : List Instr → List Instr) : (onPending f s).media = s.media := rfl
@[simp] theorem onPending_peer (f : List Instr → List Instr) : (onPending f s).peer = s.peer := rfl
@[simp] theorem onPending_braid (f : List Instr → List Instr) : (onPending f s).braid = s.braid := rfl
@[simp] theorem onPending_ps (f : List Instr → List Instr) : (onPending f s).ps = s.ps := rfl
@[simp] theorem onPending_therm (f : List Instr → List Instr) : (onPending f s).therm = s.therm := rfl
@[simp] theorem onPending_rf (f : List Instr → List Instr) : (onPending f s).rf = s.rf := rfl
@[simp] theorem onPending_cleat (f : List Instr → List Instr) : (onPending f s).cleat = s.cleat := rfl
@[simp] theorem onPending_safe (f : List Instr → List Instr) : (onPending f s).safe = s.safe := rfl
@[simp] theorem onPending_evt (f : List Instr → List Instr) : (onPending f s).evt = s.evt := rfl
@[simp] theorem onPending_dev (f : List Instr → List Instr) : (onPending f s).dev = s.dev := rfl
@[simp] theorem onPending_aon (f : List Instr → List Instr) : (onPending f s).aon = s.aon := rfl
@[simp] theorem onPending_pins (f : List Instr → List Instr) : (onPending f s).pins = s.pins := rfl
@[simp] theorem onPending_tap (f : List Instr → List Instr) : (onPending f s).tap = s.tap := rfl
@[simp] theorem onPending_out (f : List Instr → List Instr) : (onPending f s).out = s.out := rfl
@[simp] theorem onPending_fresh (f : List Instr → List Instr) : (onPending f s).fresh = s.fresh := rfl
@[simp] theorem onPending_pending (f : List Instr → List Instr) : (onPending f s).pending = f s.pending := rfl

end Sys2Proof.Machine
end

