-- ==== Sys2Proof/Laws/Shared.lean ====
section
/-! SUPPORT. What the shared operations leave alone, one lemma for each operation and each part of the state that it does not touch: raising an event
(15 R406), posting a completion, writing a record (05 R128), an operation of record flash (13 R359), and the updates of one port, link, extent or
command. -/

namespace Sys2Proof.Machine

set_option Elab.async false

variable (s : State)

@[simp] theorem emit_hly (o : Out) : (emit o s).hly = s.hly := rfl
@[simp] theorem emit_pwr (o : Out) : (emit o s).pwr = s.pwr := rfl
@[simp] theorem emit_flush (o : Out) : (emit o s).flush = s.flush := rfl
@[simp] theorem emit_cfg (o : Out) : (emit o s).cfg = s.cfg := rfl
@[simp] theorem emit_boot (o : Out) : (emit o s).boot = s.boot := rfl
@[simp] theorem emit_stage (o : Out) : (emit o s).stage = s.stage := rfl
@[simp] theorem emit_prm (o : Out) : (emit o s).prm = s.prm := rfl
@[simp] theorem emit_ctl (o : Out) : (emit o s).ctl = s.ctl := rfl
@[simp] theorem emit_cmds (o : Out) : (emit o s).cmds = s.cmds := rfl
@[simp] theorem emit_resv (o : Out) : (emit o s).resv = s.resv := rfl
@[simp] theorem emit_hold (o : Out) : (emit o s).hold = s.hold := rfl
@[simp] theorem emit_ptpl (o : Out) : (emit o s).ptpl = s.ptpl := rfl
@[simp] theorem emit_orders (o : Out) : (emit o s).orders = s.orders := rfl
@[simp] theorem emit_exts (o : Out) : (emit o s).exts = s.exts := rfl
@[simp] theorem emit_smb (o : Out) : (emit o s).smb = s.smb := rfl
@[simp] theorem emit_hx (o : Out) : (emit o s).hx = s.hx := rfl
@[simp] theorem emit_jrnl (o : Out) : (emit o s).jrnl = s.jrnl := rfl
@[simp] theorem emit_map (o : Out) : (emit o s).map = s.map := rfl
@[simp] theorem emit_media (o : Out) : (emit o s).media = s.media := rfl
@[simp] theorem emit_peer (o : Out) : (emit o s).peer = s.peer := rfl
@[simp] theorem emit_braid (o : Out) : (emit o s).braid = s.braid := rfl
@[simp] theorem emit_ps (o : Out) : (emit o s).ps = s.ps := rfl
@[simp] theorem emit_therm (o : Out) : (emit o s).therm = s.therm := rfl
@[simp] theorem emit_rf (o : Out) : (emit o s).rf = s.rf := rfl
@[simp] theorem emit_cleat (o : Out) : (emit o s).cleat = s.cleat := rfl
@[simp] theorem emit_safe (o : Out) : (emit o s).safe = s.safe := rfl
@[simp] theorem emit_evt (o : Out) : (emit o s).evt = s.evt := rfl
@[simp] theorem emit_dev (o : Out) : (emit o s).dev = s.dev := rfl
@[simp] theorem emit_aon (o : Out) : (emit o s).aon = s.aon := rfl
@[simp] theorem emit_pins (o : Out) : (emit o s).pins = s.pins := rfl
@[simp] theorem emit_tap (o : Out) : (emit o s).tap = s.tap := rfl
@[simp] theorem emit_fresh (o : Out) : (emit o s).fresh = s.fresh := rfl
@[simp] theorem emit_pending (o : Out) : (emit o s).pending = s.pending := rfl

@[simp] theorem draw_hly : (draw s).2.hly = s.hly := rfl
@[simp] theorem draw_pwr : (draw s).2.pwr = s.pwr := rfl
@[simp] theorem draw_flush : (draw s).2.flush = s.flush := rfl
@[simp] theorem draw_cfg : (draw s).2.cfg = s.cfg := rfl
@[simp] theorem draw_boot : (draw s).2.boot = s.boot := rfl
@[simp] theorem draw_stage : (draw s).2.stage = s.stage := rfl
@[simp] theorem draw_prm : (draw s).2.prm = s.prm := rfl
@[simp] theorem draw_ctl : (draw s).2.ctl = s.ctl := rfl
@[simp] theorem draw_cmds : (draw s).2.cmds = s.cmds := rfl
@[simp] theorem draw_resv : (draw s).2.resv = s.resv := rfl
@[simp] theorem draw_hold : (draw s).2.hold = s.hold := rfl
@[simp] theorem draw_ptpl : (draw s).2.ptpl = s.ptpl := rfl
@[simp] theorem draw_orders : (draw s).2.orders = s.orders := rfl
@[simp] theorem draw_exts : (draw s).2.exts = s.exts := rfl
@[simp] theorem draw_smb : (draw s).2.smb = s.smb := rfl
@[simp] theorem draw_hx : (draw s).2.hx = s.hx := rfl
@[simp] theorem draw_jrnl : (draw s).2.jrnl = s.jrnl := rfl
@[simp] theorem draw_map : (draw s).2.map = s.map := rfl
@[simp] theorem draw_media : (draw s).2.media = s.media := rfl
@[simp] theorem draw_peer : (draw s).2.peer = s.peer := rfl
@[simp] theorem draw_braid : (draw s).2.braid = s.braid := rfl
@[simp] theorem draw_ps : (draw s).2.ps = s.ps := rfl
@[simp] theorem draw_therm : (draw s).2.therm = s.therm := rfl
@[simp] theorem draw_rf : (draw s).2.rf = s.rf := rfl
@[simp] theorem draw_cleat : (draw s).2.cleat = s.cleat := rfl
@[simp] theorem draw_safe : (draw s).2.safe = s.safe := rfl
@[simp] theorem draw_evt : (draw s).2.evt = s.evt := rfl
@[simp] theorem draw_dev : (draw s).2.dev = s.dev := rfl
@[simp] theorem draw_aon : (draw s).2.aon = s.aon := rfl
@[simp] theorem draw_pins : (draw s).2.pins = s.pins := rfl
@[simp] theorem draw_tap : (draw s).2.tap = s.tap := rfl
@[simp] theorem draw_out : (draw s).2.out = s.out := rfl
@[simp] theorem draw_pending : (draw s).2.pending = s.pending := rfl

@[simp] theorem setCtl_hly (p : Port) (f : Ctl → Ctl) : (setCtl p f s).hly = s.hly := rfl
@[simp] theorem setCtl_pwr (p : Port) (f : Ctl → Ctl) : (setCtl p f s).pwr = s.pwr := rfl
@[simp] theorem setCtl_flush (p : Port) (f : Ctl → Ctl) : (setCtl p f s).flush = s.flush := rfl
@[simp] theorem setCtl_cfg (p : Port) (f : Ctl → Ctl) : (setCtl p f s).cfg = s.cfg := rfl
@[simp] theorem setCtl_boot (p : Port) (f : Ctl → Ctl) : (setCtl p f s).boot = s.boot := rfl
@[simp] theorem setCtl_stage (p : Port) (f : Ctl → Ctl) : (setCtl p f s).stage = s.stage := rfl
@[simp] theorem setCtl_prm (p : Port) (f : Ctl → Ctl) : (setCtl p f s).prm = s.prm := rfl
@[simp] theorem setCtl_cmds (p : Port) (f : Ctl → Ctl) : (setCtl p f s).cmds = s.cmds := rfl
@[simp] theorem setCtl_resv (p : Port) (f : Ctl → Ctl) : (setCtl p f s).resv = s.resv := rfl
@[simp] theorem setCtl_hold (p : Port) (f : Ctl → Ctl) : (setCtl p f s).hold = s.hold := rfl
@[simp] theorem setCtl_ptpl (p : Port) (f : Ctl → Ctl) : (setCtl p f s).ptpl = s.ptpl := rfl
@[simp] theorem setCtl_orders (p : Port) (f : Ctl → Ctl) : (setCtl p f s).orders = s.orders := rfl
@[simp] theorem setCtl_exts (p : Port) (f : Ctl → Ctl) : (setCtl p f s).exts = s.exts := rfl
@[simp] theorem setCtl_smb (p : Port) (f : Ctl → Ctl) : (setCtl p f s).smb = s.smb := rfl
@[simp] theorem setCtl_hx (p : Port) (f : Ctl → Ctl) : (setCtl p f s).hx = s.hx := rfl
@[simp] theorem setCtl_jrnl (p : Port) (f : Ctl → Ctl) : (setCtl p f s).jrnl = s.jrnl := rfl
@[simp] theorem setCtl_map (p : Port) (f : Ctl → Ctl) : (setCtl p f s).map = s.map := rfl
@[simp] theorem setCtl_media (p : Port) (f : Ctl → Ctl) : (setCtl p f s).media = s.media := rfl
@[simp] theorem setCtl_peer (p : Port) (f : Ctl → Ctl) : (setCtl p f s).peer = s.peer := rfl
@[simp] theorem setCtl_braid (p : Port) (f : Ctl → Ctl) : (setCtl p f s).braid = s.braid := rfl
@[simp] theorem setCtl_ps (p : Port) (f : Ctl → Ctl) : (setCtl p f s).ps = s.ps := rfl
@[simp] theorem setCtl_therm (p : Port) (f : Ctl → Ctl) : (setCtl p f s).therm = s.therm := rfl
@[simp] theorem setCtl_rf (p : Port) (f : Ctl → Ctl) : (setCtl p f s).rf = s.rf := rfl
@[simp] theorem setCtl_cleat (p : Port) (f : Ctl → Ctl) : (setCtl p f s).cleat = s.cleat := rfl
@[simp] theorem setCtl_safe (p : Port) (f : Ctl → Ctl) : (setCtl p f s).safe = s.safe := rfl
@[simp] theorem setCtl_evt (p : Port) (f : Ctl → Ctl) : (setCtl p f s).evt = s.evt := rfl
@[simp] theorem setCtl_dev (p : Port) (f : Ctl → Ctl) : (setCtl p f s).dev = s.dev := rfl
@[simp] theorem setCtl_aon (p : Port) (f : Ctl → Ctl) : (setCtl p f s).aon = s.aon := rfl
@[simp] theorem setCtl_pins (p : Port) (f : Ctl → Ctl) : (setCtl p f s).pins = s.pins := rfl
@[simp] theorem setCtl_tap (p : Port) (f : Ctl → Ctl) : (setCtl p f s).tap = s.tap := rfl
@[simp] theorem setCtl_out (p : Port) (f : Ctl → Ctl) : (setCtl p f s).out = s.out := rfl
@[simp] theorem setCtl_fresh (p : Port) (f : Ctl → Ctl) : (setCtl p f s).fresh = s.fresh := rfl
@[simp] theorem setCtl_pending (p : Port) (f : Ctl → Ctl) : (setCtl p f s).pending = s.pending := rfl

@[simp] theorem signal_hly (p : Port) (v : Nat) : (signal p v s).hly = s.hly := by unfold signal; grind [emit_hly, setCtl_hly]
@[simp] theorem signal_pwr (p : Port) (v : Nat) : (signal p v s).pwr = s.pwr := by unfold signal; grind [emit_pwr, setCtl_pwr]
@[simp] theorem signal_flush (p : Port) (v : Nat) : (signal p v s).flush = s.flush := by unfold signal; grind [emit_flush, setCtl_flush]
@[simp] theorem signal_cfg (p : Port) (v : Nat) : (signal p v s).cfg = s.cfg := by unfold signal; grind [emit_cfg, setCtl_cfg]
@[simp] theorem signal_boot (p : Port) (v : Nat) : (signal p v s).boot = s.boot := by unfold signal; grind [emit_boot, setCtl_boot]
@[simp] theorem signal_stage (p : Port) (v : Nat) : (signal p v s).stage = s.stage := by unfold signal; grind [emit_stage, setCtl_stage]
@[simp] theorem signal_prm (p : Port) (v : Nat) : (signal p v s).prm = s.prm := by unfold signal; grind [emit_prm, setCtl_prm]
@[simp] theorem signal_cmds (p : Port) (v : Nat) : (signal p v s).cmds = s.cmds := by unfold signal; grind [emit_cmds, setCtl_cmds]
@[simp] theorem signal_resv (p : Port) (v : Nat) : (signal p v s).resv = s.resv := by unfold signal; grind [emit_resv, setCtl_resv]
@[simp] theorem signal_hold (p : Port) (v : Nat) : (signal p v s).hold = s.hold := by unfold signal; grind [emit_hold, setCtl_hold]
@[simp] theorem signal_ptpl (p : Port) (v : Nat) : (signal p v s).ptpl = s.ptpl := by unfold signal; grind [emit_ptpl, setCtl_ptpl]
@[simp] theorem signal_orders (p : Port) (v : Nat) : (signal p v s).orders = s.orders := by unfold signal; grind [emit_orders, setCtl_orders]
@[simp] theorem signal_exts (p : Port) (v : Nat) : (signal p v s).exts = s.exts := by unfold signal; grind [emit_exts, setCtl_exts]
@[simp] theorem signal_smb (p : Port) (v : Nat) : (signal p v s).smb = s.smb := by unfold signal; grind [emit_smb, setCtl_smb]
@[simp] theorem signal_hx (p : Port) (v : Nat) : (signal p v s).hx = s.hx := by unfold signal; grind [emit_hx, setCtl_hx]
@[simp] theorem signal_jrnl (p : Port) (v : Nat) : (signal p v s).jrnl = s.jrnl := by unfold signal; grind [emit_jrnl, setCtl_jrnl]
@[simp] theorem signal_map (p : Port) (v : Nat) : (signal p v s).map = s.map := by unfold signal; grind [emit_map, setCtl_map]
@[simp] theorem signal_media (p : Port) (v : Nat) : (signal p v s).media = s.media := by unfold signal; grind [emit_media, setCtl_media]
@[simp] theorem signal_peer (p : Port) (v : Nat) : (signal p v s).peer = s.peer := by unfold signal; grind [emit_peer, setCtl_peer]
@[simp] theorem signal_braid (p : Port) (v : Nat) : (signal p v s).braid = s.braid := by unfold signal; grind [emit_braid, setCtl_braid]
@[simp] theorem signal_ps (p : Port) (v : Nat) : (signal p v s).ps = s.ps := by unfold signal; grind [emit_ps, setCtl_ps]
@[simp] theorem signal_therm (p : Port) (v : Nat) : (signal p v s).therm = s.therm := by unfold signal; grind [emit_therm, setCtl_therm]
@[simp] theorem signal_rf (p : Port) (v : Nat) : (signal p v s).rf = s.rf := by unfold signal; grind [emit_rf, setCtl_rf]
@[simp] theorem signal_cleat (p : Port) (v : Nat) : (signal p v s).cleat = s.cleat := by unfold signal; grind [emit_cleat, setCtl_cleat]
@[simp] theorem signal_safe (p : Port) (v : Nat) : (signal p v s).safe = s.safe := by unfold signal; grind [emit_safe, setCtl_safe]
@[simp] theorem signal_evt (p : Port) (v : Nat) : (signal p v s).evt = s.evt := by unfold signal; grind [emit_evt, setCtl_evt]
@[simp] theorem signal_dev (p : Port) (v : Nat) : (signal p v s).dev = s.dev := by unfold signal; grind [emit_dev, setCtl_dev]
@[simp] theorem signal_aon (p : Port) (v : Nat) : (signal p v s).aon = s.aon := by unfold signal; grind [emit_aon, setCtl_aon]
@[simp] theorem signal_pins (p : Port) (v : Nat) : (signal p v s).pins = s.pins := by unfold signal; grind [emit_pins, setCtl_pins]
@[simp] theorem signal_tap (p : Port) (v : Nat) : (signal p v s).tap = s.tap := by unfold signal; grind [emit_tap, setCtl_tap]
@[simp] theorem signal_fresh (p : Port) (v : Nat) : (signal p v s).fresh = s.fresh := by unfold signal; grind [emit_fresh, setCtl_fresh]
@[simp] theorem signal_pending (p : Port) (v : Nat) : (signal p v s).pending = s.pending := by unfold signal; grind [emit_pending, setCtl_pending]

@[simp] theorem postAen_hly (p : Port) (a : Aen) : (postAen p a s).hly = s.hly := by unfold postAen; grind [emit_hly, setCtl_hly]
@[simp] theorem postAen_pwr (p : Port) (a : Aen) : (postAen p a s).pwr = s.pwr := by unfold postAen; grind [emit_pwr, setCtl_pwr]
@[simp] theorem postAen_flush (p : Port) (a : Aen) : (postAen p a s).flush = s.flush := by unfold postAen; grind [emit_flush, setCtl_flush]
@[simp] theorem postAen_cfg (p : Port) (a : Aen) : (postAen p a s).cfg = s.cfg := by unfold postAen; grind [emit_cfg, setCtl_cfg]
@[simp] theorem postAen_boot (p : Port) (a : Aen) : (postAen p a s).boot = s.boot := by unfold postAen; grind [emit_boot, setCtl_boot]
@[simp] theorem postAen_stage (p : Port) (a : Aen) : (postAen p a s).stage = s.stage := by unfold postAen; grind [emit_stage, setCtl_stage]
@[simp] theorem postAen_prm (p : Port) (a : Aen) : (postAen p a s).prm = s.prm := by unfold postAen; grind [emit_prm, setCtl_prm]
@[simp] theorem postAen_cmds (p : Port) (a : Aen) : (postAen p a s).cmds = s.cmds := by unfold postAen; grind [emit_cmds, setCtl_cmds]
@[simp] theorem postAen_resv (p : Port) (a : Aen) : (postAen p a s).resv = s.resv := by unfold postAen; grind [emit_resv, setCtl_resv]
@[simp] theorem postAen_hold (p : Port) (a : Aen) : (postAen p a s).hold = s.hold := by unfold postAen; grind [emit_hold, setCtl_hold]
@[simp] theorem postAen_ptpl (p : Port) (a : Aen) : (postAen p a s).ptpl = s.ptpl := by unfold postAen; grind [emit_ptpl, setCtl_ptpl]
@[simp] theorem postAen_orders (p : Port) (a : Aen) : (postAen p a s).orders = s.orders := by unfold postAen; grind [emit_orders, setCtl_orders]
@[simp] theorem postAen_exts (p : Port) (a : Aen) : (postAen p a s).exts = s.exts := by unfold postAen; grind [emit_exts, setCtl_exts]
@[simp] theorem postAen_smb (p : Port) (a : Aen) : (postAen p a s).smb = s.smb := by unfold postAen; grind [emit_smb, setCtl_smb]
@[simp] theorem postAen_hx (p : Port) (a : Aen) : (postAen p a s).hx = s.hx := by unfold postAen; grind [emit_hx, setCtl_hx]
@[simp] theorem postAen_jrnl (p : Port) (a : Aen) : (postAen p a s).jrnl = s.jrnl := by unfold postAen; grind [emit_jrnl, setCtl_jrnl]
@[simp] theorem postAen_map (p : Port) (a : Aen) : (postAen p a s).map = s.map := by unfold postAen; grind [emit_map, setCtl_map]
@[simp] theorem postAen_media (p : Port) (a : Aen) : (postAen p a s).media = s.media := by unfold postAen; grind [emit_media, setCtl_media]
@[simp] theorem postAen_peer (p : Port) (a : Aen) : (postAen p a s).peer = s.peer := by unfold postAen; grind [emit_peer, setCtl_peer]
@[simp] theorem postAen_braid (p : Port) (a : Aen) : (postAen p a s).braid = s.braid := by unfold postAen; grind [emit_braid, setCtl_braid]
@[simp] theorem postAen_ps (p : Port) (a : Aen) : (postAen p a s).ps = s.ps := by unfold postAen; grind [emit_ps, setCtl_ps]
@[simp] theorem postAen_therm (p : Port) (a : Aen) : (postAen p a s).therm = s.therm := by unfold postAen; grind [emit_therm, setCtl_therm]
@[simp] theorem postAen_rf (p : Port) (a : Aen) : (postAen p a s).rf = s.rf := by unfold postAen; grind [emit_rf, setCtl_rf]
@[simp] theorem postAen_cleat (p : Port) (a : Aen) : (postAen p a s).cleat = s.cleat := by unfold postAen; grind [emit_cleat, setCtl_cleat]
@[simp] theorem postAen_safe (p : Port) (a : Aen) : (postAen p a s).safe = s.safe := by unfold postAen; grind [emit_safe, setCtl_safe]
@[simp] theorem postAen_evt (p : Port) (a : Aen) : (postAen p a s).evt = s.evt := by unfold postAen; grind [emit_evt, setCtl_evt]
@[simp] theorem postAen_dev (p : Port) (a : Aen) : (postAen p a s).dev = s.dev := by unfold postAen; grind [emit_dev, setCtl_dev]
@[simp] theorem postAen_aon (p : Port) (a : Aen) : (postAen p a s).aon = s.aon := by unfold postAen; grind [emit_aon, setCtl_aon]
@[simp] theorem postAen_pins (p : Port) (a : Aen) : (postAen p a s).pins = s.pins := by unfold postAen; grind [emit_pins, setCtl_pins]
@[simp] theorem postAen_tap (p : Port) (a : Aen) : (postAen p a s).tap = s.tap := by unfold postAen; grind [emit_tap, setCtl_tap]
@[simp] theorem postAen_fresh (p : Port) (a : Aen) : (postAen p a s).fresh = s.fresh := by unfold postAen; grind [emit_fresh, setCtl_fresh]
@[simp] theorem postAen_pending (p : Port) (a : Aen) : (postAen p a s).pending = s.pending := by unfold postAen; grind [emit_pending, setCtl_pending]

@[simp] theorem edges_hly (g : Nat) (b : Nat) : (edges g b s).hly = s.hly := by unfold edges; grind [signal_hly, postAen_hly]
@[simp] theorem edges_pwr (g : Nat) (b : Nat) : (edges g b s).pwr = s.pwr := by unfold edges; grind [signal_pwr, postAen_pwr]
@[simp] theorem edges_flush (g : Nat) (b : Nat) : (edges g b s).flush = s.flush := by unfold edges; grind [signal_flush, postAen_flush]
@[simp] theorem edges_cfg (g : Nat) (b : Nat) : (edges g b s).cfg = s.cfg := by unfold edges; grind [signal_cfg, postAen_cfg]
@[simp] theorem edges_boot (g : Nat) (b : Nat) : (edges g b s).boot = s.boot := by unfold edges; grind [signal_boot, postAen_boot]
@[simp] theorem edges_stage (g : Nat) (b : Nat) : (edges g b s).stage = s.stage := by unfold edges; grind [signal_stage, postAen_stage]
@[simp] theorem edges_prm (g : Nat) (b : Nat) : (edges g b s).prm = s.prm := by unfold edges; grind [signal_prm, postAen_prm]
@[simp] theorem edges_cmds (g : Nat) (b : Nat) : (edges g b s).cmds = s.cmds := by unfold edges; grind [signal_cmds, postAen_cmds]
@[simp] theorem edges_resv (g : Nat) (b : Nat) : (edges g b s).resv = s.resv := by unfold edges; grind [signal_resv, postAen_resv]
@[simp] theorem edges_hold (g : Nat) (b : Nat) : (edges g b s).hold = s.hold := by unfold edges; grind [signal_hold, postAen_hold]
@[simp] theorem edges_ptpl (g : Nat) (b : Nat) : (edges g b s).ptpl = s.ptpl := by unfold edges; grind [signal_ptpl, postAen_ptpl]
@[simp] theorem edges_orders (g : Nat) (b : Nat) : (edges g b s).orders = s.orders := by unfold edges; grind [signal_orders, postAen_orders]
@[simp] theorem edges_exts (g : Nat) (b : Nat) : (edges g b s).exts = s.exts := by unfold edges; grind [signal_exts, postAen_exts]
@[simp] theorem edges_smb (g : Nat) (b : Nat) : (edges g b s).smb = s.smb := by unfold edges; grind [signal_smb, postAen_smb]
@[simp] theorem edges_hx (g : Nat) (b : Nat) : (edges g b s).hx = s.hx := by unfold edges; grind [signal_hx, postAen_hx]
@[simp] theorem edges_jrnl (g : Nat) (b : Nat) : (edges g b s).jrnl = s.jrnl := by unfold edges; grind [signal_jrnl, postAen_jrnl]
@[simp] theorem edges_map (g : Nat) (b : Nat) : (edges g b s).map = s.map := by unfold edges; grind [signal_map, postAen_map]
@[simp] theorem edges_media (g : Nat) (b : Nat) : (edges g b s).media = s.media := by unfold edges; grind [signal_media, postAen_media]
@[simp] theorem edges_peer (g : Nat) (b : Nat) : (edges g b s).peer = s.peer := by unfold edges; grind [signal_peer, postAen_peer]
@[simp] theorem edges_braid (g : Nat) (b : Nat) : (edges g b s).braid = s.braid := by unfold edges; grind [signal_braid, postAen_braid]
@[simp] theorem edges_ps (g : Nat) (b : Nat) : (edges g b s).ps = s.ps := by unfold edges; grind [signal_ps, postAen_ps]
@[simp] theorem edges_therm (g : Nat) (b : Nat) : (edges g b s).therm = s.therm := by unfold edges; grind [signal_therm, postAen_therm]
@[simp] theorem edges_rf (g : Nat) (b : Nat) : (edges g b s).rf = s.rf := by unfold edges; grind [signal_rf, postAen_rf]
@[simp] theorem edges_cleat (g : Nat) (b : Nat) : (edges g b s).cleat = s.cleat := by unfold edges; grind [signal_cleat, postAen_cleat]
@[simp] theorem edges_safe (g : Nat) (b : Nat) : (edges g b s).safe = s.safe := by unfold edges; grind [signal_safe, postAen_safe]
@[simp] theorem edges_dev (g : Nat) (b : Nat) : (edges g b s).dev = s.dev := by unfold edges; grind [signal_dev, postAen_dev]
@[simp] theorem edges_aon (g : Nat) (b : Nat) : (edges g b s).aon = s.aon := by unfold edges; grind [signal_aon, postAen_aon]
@[simp] theorem edges_pins (g : Nat) (b : Nat) : (edges g b s).pins = s.pins := by unfold edges; grind [signal_pins, postAen_pins]
@[simp] theorem edges_tap (g : Nat) (b : Nat) : (edges g b s).tap = s.tap := by unfold edges; grind [signal_tap, postAen_tap]
@[simp] theorem edges_fresh (g : Nat) (b : Nat) : (edges g b s).fresh = s.fresh := by unfold edges; grind [signal_fresh, postAen_fresh]
@[simp] theorem edges_pending (g : Nat) (b : Nat) : (edges g b s).pending = s.pending := by unfold edges; grind [signal_pending, postAen_pending]

@[simp] theorem enqueue_hly (e : Entry) : (enqueue e s).hly = s.hly := by unfold enqueue; grind
@[simp] theorem enqueue_pwr (e : Entry) : (enqueue e s).pwr = s.pwr := by unfold enqueue; grind
@[simp] theorem enqueue_flush (e : Entry) : (enqueue e s).flush = s.flush := by unfold enqueue; grind
@[simp] theorem enqueue_cfg (e : Entry) : (enqueue e s).cfg = s.cfg := by unfold enqueue; grind
@[simp] theorem enqueue_boot (e : Entry) : (enqueue e s).boot = s.boot := by unfold enqueue; grind
@[simp] theorem enqueue_stage (e : Entry) : (enqueue e s).stage = s.stage := by unfold enqueue; grind
@[simp] theorem enqueue_prm (e : Entry) : (enqueue e s).prm = s.prm := by unfold enqueue; grind
@[simp] theorem enqueue_ctl (e : Entry) : (enqueue e s).ctl = s.ctl := by unfold enqueue; grind
@[simp] theorem enqueue_cmds (e : Entry) : (enqueue e s).cmds = s.cmds := by unfold enqueue; grind
@[simp] theorem enqueue_resv (e : Entry) : (enqueue e s).resv = s.resv := by unfold enqueue; grind
@[simp] theorem enqueue_hold (e : Entry) : (enqueue e s).hold = s.hold := by unfold enqueue; grind
@[simp] theorem enqueue_ptpl (e : Entry) : (enqueue e s).ptpl = s.ptpl := by unfold enqueue; grind
@[simp] theorem enqueue_orders (e : Entry) : (enqueue e s).orders = s.orders := by unfold enqueue; grind
@[simp] theorem enqueue_exts (e : Entry) : (enqueue e s).exts = s.exts := by unfold enqueue; grind
@[simp] theorem enqueue_smb (e : Entry) : (enqueue e s).smb = s.smb := by unfold enqueue; grind
@[simp] theorem enqueue_hx (e : Entry) : (enqueue e s).hx = s.hx := by unfold enqueue; grind
@[simp] theorem enqueue_jrnl (e : Entry) : (enqueue e s).jrnl = s.jrnl := by unfold enqueue; grind
@[simp] theorem enqueue_map (e : Entry) : (enqueue e s).map = s.map := by unfold enqueue; grind
@[simp] theorem enqueue_media (e : Entry) : (enqueue e s).media = s.media := by unfold enqueue; grind
@[simp] theorem enqueue_peer (e : Entry) : (enqueue e s).peer = s.peer := by unfold enqueue; grind
@[simp] theorem enqueue_braid (e : Entry) : (enqueue e s).braid = s.braid := by unfold enqueue; grind
@[simp] theorem enqueue_ps (e : Entry) : (enqueue e s).ps = s.ps := by unfold enqueue; grind
@[simp] theorem enqueue_therm (e : Entry) : (enqueue e s).therm = s.therm := by unfold enqueue; grind
@[simp] theorem enqueue_rf (e : Entry) : (enqueue e s).rf = s.rf := by unfold enqueue; grind
@[simp] theorem enqueue_cleat (e : Entry) : (enqueue e s).cleat = s.cleat := by unfold enqueue; grind
@[simp] theorem enqueue_safe (e : Entry) : (enqueue e s).safe = s.safe := by unfold enqueue; grind
@[simp] theorem enqueue_dev (e : Entry) : (enqueue e s).dev = s.dev := by unfold enqueue; grind
@[simp] theorem enqueue_aon (e : Entry) : (enqueue e s).aon = s.aon := by unfold enqueue; grind
@[simp] theorem enqueue_pins (e : Entry) : (enqueue e s).pins = s.pins := by unfold enqueue; grind
@[simp] theorem enqueue_tap (e : Entry) : (enqueue e s).tap = s.tap := by unfold enqueue; grind
@[simp] theorem enqueue_out (e : Entry) : (enqueue e s).out = s.out := by unfold enqueue; grind
@[simp] theorem enqueue_fresh (e : Entry) : (enqueue e s).fresh = s.fresh := by unfold enqueue; grind
@[simp] theorem enqueue_pending (e : Entry) : (enqueue e s).pending = s.pending := by unfold enqueue; grind

@[simp] theorem countRepeat_hly (g : Nat) (b : Nat) : (countRepeat g b s).hly = s.hly := rfl
@[simp] theorem countRepeat_pwr (g : Nat) (b : Nat) : (countRepeat g b s).pwr = s.pwr := rfl
@[simp] theorem countRepeat_flush (g : Nat) (b : Nat) : (countRepeat g b s).flush = s.flush := rfl
@[simp] theorem countRepeat_cfg (g : Nat) (b : Nat) : (countRepeat g b s).cfg = s.cfg := rfl
@[simp] theorem countRepeat_boot (g : Nat) (b : Nat) : (countRepeat g b s).boot = s.boot := rfl
@[simp] theorem countRepeat_stage (g : Nat) (b : Nat) : (countRepeat g b s).stage = s.stage := rfl
@[simp] theorem countRepeat_prm (g : Nat) (b : Nat) : (countRepeat g b s).prm = s.prm := rfl
@[simp] theorem countRepeat_ctl (g : Nat) (b : Nat) : (countRepeat g b s).ctl = s.ctl := rfl
@[simp] theorem countRepeat_cmds (g : Nat) (b : Nat) : (countRepeat g b s).cmds = s.cmds := rfl
@[simp] theorem countRepeat_resv (g : Nat) (b : Nat) : (countRepeat g b s).resv = s.resv := rfl
@[simp] theorem countRepeat_hold (g : Nat) (b : Nat) : (countRepeat g b s).hold = s.hold := rfl
@[simp] theorem countRepeat_ptpl (g : Nat) (b : Nat) : (countRepeat g b s).ptpl = s.ptpl := rfl
@[simp] theorem countRepeat_orders (g : Nat) (b : Nat) : (countRepeat g b s).orders = s.orders := rfl
@[simp] theorem countRepeat_exts (g : Nat) (b : Nat) : (countRepeat g b s).exts = s.exts := rfl
@[simp] theorem countRepeat_smb (g : Nat) (b : Nat) : (countRepeat g b s).smb = s.smb := rfl
@[simp] theorem countRepeat_hx (g : Nat) (b : Nat) : (countRepeat g b s).hx = s.hx := rfl
@[simp] theorem countRepeat_jrnl (g : Nat) (b : Nat) : (countRepeat g b s).jrnl = s.jrnl := rfl
@[simp] theorem countRepeat_map (g : Nat) (b : Nat) : (countRepeat g b s).map = s.map := rfl
@[simp] theorem countRepeat_media (g : Nat) (b : Nat) : (countRepeat g b s).media = s.media := rfl
@[simp] theorem countRepeat_peer (g : Nat) (b : Nat) : (countRepeat g b s).peer = s.peer := rfl
@[simp] theorem countRepeat_braid (g : Nat) (b : Nat) : (countRepeat g b s).braid = s.braid := rfl
@[simp] theorem countRepeat_ps (g : Nat) (b : Nat) : (countRepeat g b s).ps = s.ps := rfl
@[simp] theorem countRepeat_therm (g : Nat) (b : Nat) : (countRepeat g b s).therm = s.therm := rfl
@[simp] theorem countRepeat_rf (g : Nat) (b : Nat) : (countRepeat g b s).rf = s.rf := rfl
@[simp] theorem countRepeat_cleat (g : Nat) (b : Nat) : (countRepeat g b s).cleat = s.cleat := rfl
@[simp] theorem countRepeat_safe (g : Nat) (b : Nat) : (countRepeat g b s).safe = s.safe := rfl
@[simp] theorem countRepeat_dev (g : Nat) (b : Nat) : (countRepeat g b s).dev = s.dev := rfl
@[simp] theorem countRepeat_aon (g : Nat) (b : Nat) : (countRepeat g b s).aon = s.aon := rfl
@[simp] theorem countRepeat_pins (g : Nat) (b : Nat) : (countRepeat g b s).pins = s.pins := rfl
@[simp] theorem countRepeat_tap (g : Nat) (b : Nat) : (countRepeat g b s).tap = s.tap := rfl
@[simp] theorem countRepeat_out (g : Nat) (b : Nat) : (countRepeat g b s).out = s.out := rfl
@[simp] theorem countRepeat_fresh (g : Nat) (b : Nat) : (countRepeat g b s).fresh = s.fresh := rfl
@[simp] theorem countRepeat_pending (g : Nat) (b : Nat) : (countRepeat g b s).pending = s.pending := rfl

@[simp] theorem logEntry_hly (g : Nat) (b : Nat) (a0 : Nat) (a1 : Nat) : (logEntry g b a0 a1 s).hly = s.hly := by unfold logEntry; grind [enqueue_hly, countRepeat_hly, draw_hly]
@[simp] theorem logEntry_pwr (g : Nat) (b : Nat) (a0 : Nat) (a1 : Nat) : (logEntry g b a0 a1 s).pwr = s.pwr := by unfold logEntry; grind [enqueue_pwr, countRepeat_pwr, draw_pwr]
@[simp] theorem logEntry_flush (g : Nat) (b : Nat) (a0 : Nat) (a1 : Nat) : (logEntry g b a0 a1 s).flush = s.flush := by unfold logEntry; grind [enqueue_flush, countRepeat_flush, draw_flush]
@[simp] theorem logEntry_cfg (g : Nat) (b : Nat) (a0 : Nat) (a1 : Nat) : (logEntry g b a0 a1 s).cfg = s.cfg := by unfold logEntry; grind [enqueue_cfg, countRepeat_cfg, draw_cfg]
@[simp] theorem logEntry_boot (g : Nat) (b : Nat) (a0 : Nat) (a1 : Nat) : (logEntry g b a0 a1 s).boot = s.boot := by unfold logEntry; grind [enqueue_boot, countRepeat_boot, draw_boot]
@[simp] theorem logEntry_stage (g : Nat) (b : Nat) (a0 : Nat) (a1 : Nat) : (logEntry g b a0 a1 s).stage = s.stage := by unfold logEntry; grind [enqueue_stage, countRepeat_stage, draw_stage]
@[simp] theorem logEntry_prm (g : Nat) (b : Nat) (a0 : Nat) (a1 : Nat) : (logEntry g b a0 a1 s).prm = s.prm := by unfold logEntry; grind [enqueue_prm, countRepeat_prm, draw_prm]
@[simp] theorem logEntry_ctl (g : Nat) (b : Nat) (a0 : Nat) (a1 : Nat) : (logEntry g b a0 a1 s).ctl = s.ctl := by unfold logEntry; grind [enqueue_ctl, countRepeat_ctl, draw_ctl]
@[simp] theorem logEntry_cmds (g : Nat) (b : Nat) (a0 : Nat) (a1 : Nat) : (logEntry g b a0 a1 s).cmds = s.cmds := by unfold logEntry; grind [enqueue_cmds, countRepeat_cmds, draw_cmds]
@[simp] theorem logEntry_resv (g : Nat) (b : Nat) (a0 : Nat) (a1 : Nat) : (logEntry g b a0 a1 s).resv = s.resv := by unfold logEntry; grind [enqueue_resv, countRepeat_resv, draw_resv]
@[simp] theorem logEntry_hold (g : Nat) (b : Nat) (a0 : Nat) (a1 : Nat) : (logEntry g b a0 a1 s).hold = s.hold := by unfold logEntry; grind [enqueue_hold, countRepeat_hold, draw_hold]
@[simp] theorem logEntry_ptpl (g : Nat) (b : Nat) (a0 : Nat) (a1 : Nat) : (logEntry g b a0 a1 s).ptpl = s.ptpl := by unfold logEntry; grind [enqueue_ptpl, countRepeat_ptpl, draw_ptpl]
@[simp] theorem logEntry_orders (g : Nat) (b : Nat) (a0 : Nat) (a1 : Nat) : (logEntry g b a0 a1 s).orders = s.orders := by unfold logEntry; grind [enqueue_orders, countRepeat_orders, draw_orders]
@[simp] theorem logEntry_exts (g : Nat) (b : Nat) (a0 : Nat) (a1 : Nat) : (logEntry g b a0 a1 s).exts = s.exts := by unfold logEntry; grind [enqueue_exts, countRepeat_exts, draw_exts]
@[simp] theorem logEntry_smb (g : Nat) (b : Nat) (a0 : Nat) (a1 : Nat) : (logEntry g b a0 a1 s).smb = s.smb := by unfold logEntry; grind [enqueue_smb, countRepeat_smb, draw_smb]
@[simp] theorem logEntry_hx (g : Nat) (b : Nat) (a0 : Nat) (a1 : Nat) : (logEntry g b a0 a1 s).hx = s.hx := by unfold logEntry; grind [enqueue_hx, countRepeat_hx, draw_hx]
@[simp] theorem logEntry_jrnl (g : Nat) (b : Nat) (a0 : Nat) (a1 : Nat) : (logEntry g b a0 a1 s).jrnl = s.jrnl := by unfold logEntry; grind [enqueue_jrnl, countRepeat_jrnl, draw_jrnl]
@[simp] theorem logEntry_map (g : Nat) (b : Nat) (a0 : Nat) (a1 : Nat) : (logEntry g b a0 a1 s).map = s.map := by unfold logEntry; grind [enqueue_map, countRepeat_map, draw_map]
@[simp] theorem logEntry_media (g : Nat) (b : Nat) (a0 : Nat) (a1 : Nat) : (logEntry g b a0 a1 s).media = s.media := by unfold logEntry; grind [enqueue_media, countRepeat_media, draw_media]
@[simp] theorem logEntry_peer (g : Nat) (b : Nat) (a0 : Nat) (a1 : Nat) : (logEntry g b a0 a1 s).peer = s.peer := by unfold logEntry; grind [enqueue_peer, countRepeat_peer, draw_peer]
@[simp] theorem logEntry_braid (g : Nat) (b : Nat) (a0 : Nat) (a1 : Nat) : (logEntry g b a0 a1 s).braid = s.braid := by unfold logEntry; grind [enqueue_braid, countRepeat_braid, draw_braid]
@[simp] theorem logEntry_ps (g : Nat) (b : Nat) (a0 : Nat) (a1 : Nat) : (logEntry g b a0 a1 s).ps = s.ps := by unfold logEntry; grind [enqueue_ps, countRepeat_ps, draw_ps]
@[simp] theorem logEntry_therm (g : Nat) (b : Nat) (a0 : Nat) (a1 : Nat) : (logEntry g b a0 a1 s).therm = s.therm := by unfold logEntry; grind [enqueue_therm, countRepeat_therm, draw_therm]
@[simp] theorem logEntry_rf (g : Nat) (b : Nat) (a0 : Nat) (a1 : Nat) : (logEntry g b a0 a1 s).rf = s.rf := by unfold logEntry; grind [enqueue_rf, countRepeat_rf, draw_rf]
@[simp] theorem logEntry_cleat (g : Nat) (b : Nat) (a0 : Nat) (a1 : Nat) : (logEntry g b a0 a1 s).cleat = s.cleat := by unfold logEntry; grind [enqueue_cleat, countRepeat_cleat, draw_cleat]
@[simp] theorem logEntry_safe (g : Nat) (b : Nat) (a0 : Nat) (a1 : Nat) : (logEntry g b a0 a1 s).safe = s.safe := by unfold logEntry; grind [enqueue_safe, countRepeat_safe, draw_safe]
@[simp] theorem logEntry_dev (g : Nat) (b : Nat) (a0 : Nat) (a1 : Nat) : (logEntry g b a0 a1 s).dev = s.dev := by unfold logEntry; grind [enqueue_dev, countRepeat_dev, draw_dev]
@[simp] theorem logEntry_aon (g : Nat) (b : Nat) (a0 : Nat) (a1 : Nat) : (logEntry g b a0 a1 s).aon = s.aon := by unfold logEntry; grind [enqueue_aon, countRepeat_aon, draw_aon]
@[simp] theorem logEntry_pins (g : Nat) (b : Nat) (a0 : Nat) (a1 : Nat) : (logEntry g b a0 a1 s).pins = s.pins := by unfold logEntry; grind [enqueue_pins, countRepeat_pins, draw_pins]
@[simp] theorem logEntry_tap (g : Nat) (b : Nat) (a0 : Nat) (a1 : Nat) : (logEntry g b a0 a1 s).tap = s.tap := by unfold logEntry; grind [enqueue_tap, countRepeat_tap, draw_tap]
@[simp] theorem logEntry_out (g : Nat) (b : Nat) (a0 : Nat) (a1 : Nat) : (logEntry g b a0 a1 s).out = s.out := by unfold logEntry; grind [enqueue_out, countRepeat_out, draw_out]
@[simp] theorem logEntry_pending (g : Nat) (b : Nat) (a0 : Nat) (a1 : Nat) : (logEntry g b a0 a1 s).pending = s.pending := by unfold logEntry; grind [enqueue_pending, countRepeat_pending, draw_pending]

@[simp] theorem raise_hly (g : Nat) (b : Nat) (a0 : Nat) (a1 : Nat) : (raise g b a0 a1 s).hly = s.hly := by unfold raise; grind [edges_hly, logEntry_hly]
@[simp] theorem raise_pwr (g : Nat) (b : Nat) (a0 : Nat) (a1 : Nat) : (raise g b a0 a1 s).pwr = s.pwr := by unfold raise; grind [edges_pwr, logEntry_pwr]
@[simp] theorem raise_flush (g : Nat) (b : Nat) (a0 : Nat) (a1 : Nat) : (raise g b a0 a1 s).flush = s.flush := by unfold raise; grind [edges_flush, logEntry_flush]
@[simp] theorem raise_cfg (g : Nat) (b : Nat) (a0 : Nat) (a1 : Nat) : (raise g b a0 a1 s).cfg = s.cfg := by unfold raise; grind [edges_cfg, logEntry_cfg]
@[simp] theorem raise_boot (g : Nat) (b : Nat) (a0 : Nat) (a1 : Nat) : (raise g b a0 a1 s).boot = s.boot := by unfold raise; grind [edges_boot, logEntry_boot]
@[simp] theorem raise_stage (g : Nat) (b : Nat) (a0 : Nat) (a1 : Nat) : (raise g b a0 a1 s).stage = s.stage := by unfold raise; grind [edges_stage, logEntry_stage]
@[simp] theorem raise_prm (g : Nat) (b : Nat) (a0 : Nat) (a1 : Nat) : (raise g b a0 a1 s).prm = s.prm := by unfold raise; grind [edges_prm, logEntry_prm]
@[simp] theorem raise_cmds (g : Nat) (b : Nat) (a0 : Nat) (a1 : Nat) : (raise g b a0 a1 s).cmds = s.cmds := by unfold raise; grind [edges_cmds, logEntry_cmds]
@[simp] theorem raise_resv (g : Nat) (b : Nat) (a0 : Nat) (a1 : Nat) : (raise g b a0 a1 s).resv = s.resv := by unfold raise; grind [edges_resv, logEntry_resv]
@[simp] theorem raise_hold (g : Nat) (b : Nat) (a0 : Nat) (a1 : Nat) : (raise g b a0 a1 s).hold = s.hold := by unfold raise; grind [edges_hold, logEntry_hold]
@[simp] theorem raise_ptpl (g : Nat) (b : Nat) (a0 : Nat) (a1 : Nat) : (raise g b a0 a1 s).ptpl = s.ptpl := by unfold raise; grind [edges_ptpl, logEntry_ptpl]
@[simp] theorem raise_orders (g : Nat) (b : Nat) (a0 : Nat) (a1 : Nat) : (raise g b a0 a1 s).orders = s.orders := by unfold raise; grind [edges_orders, logEntry_orders]
@[simp] theorem raise_exts (g : Nat) (b : Nat) (a0 : Nat) (a1 : Nat) : (raise g b a0 a1 s).exts = s.exts := by unfold raise; grind [edges_exts, logEntry_exts]
@[simp] theorem raise_smb (g : Nat) (b : Nat) (a0 : Nat) (a1 : Nat) : (raise g b a0 a1 s).smb = s.smb := by unfold raise; grind [edges_smb, logEntry_smb]
@[simp] theorem raise_hx (g : Nat) (b : Nat) (a0 : Nat) (a1 : Nat) : (raise g b a0 a1 s).hx = s.hx := by unfold raise; grind [edges_hx, logEntry_hx]
@[simp] theorem raise_jrnl (g : Nat) (b : Nat) (a0 : Nat) (a1 : Nat) : (raise g b a0 a1 s).jrnl = s.jrnl := by unfold raise; grind [edges_jrnl, logEntry_jrnl]
@[simp] theorem raise_map (g : Nat) (b : Nat) (a0 : Nat) (a1 : Nat) : (raise g b a0 a1 s).map = s.map := by unfold raise; grind [edges_map, logEntry_map]
@[simp] theorem raise_media (g : Nat) (b : Nat) (a0 : Nat) (a1 : Nat) : (raise g b a0 a1 s).media = s.media := by unfold raise; grind [edges_media, logEntry_media]
@[simp] theorem raise_peer (g : Nat) (b : Nat) (a0 : Nat) (a1 : Nat) : (raise g b a0 a1 s).peer = s.peer := by unfold raise; grind [edges_peer, logEntry_peer]
@[simp] theorem raise_braid (g : Nat) (b : Nat) (a0 : Nat) (a1 : Nat) : (raise g b a0 a1 s).braid = s.braid := by unfold raise; grind [edges_braid, logEntry_braid]
@[simp] theorem raise_ps (g : Nat) (b : Nat) (a0 : Nat) (a1 : Nat) : (raise g b a0 a1 s).ps = s.ps := by unfold raise; grind [edges_ps, logEntry_ps]
@[simp] theorem raise_therm (g : Nat) (b : Nat) (a0 : Nat) (a1 : Nat) : (raise g b a0 a1 s).therm = s.therm := by unfold raise; grind [edges_therm, logEntry_therm]
@[simp] theorem raise_rf (g : Nat) (b : Nat) (a0 : Nat) (a1 : Nat) : (raise g b a0 a1 s).rf = s.rf := by unfold raise; grind [edges_rf, logEntry_rf]
@[simp] theorem raise_cleat (g : Nat) (b : Nat) (a0 : Nat) (a1 : Nat) : (raise g b a0 a1 s).cleat = s.cleat := by unfold raise; grind [edges_cleat, logEntry_cleat]
@[simp] theorem raise_safe (g : Nat) (b : Nat) (a0 : Nat) (a1 : Nat) : (raise g b a0 a1 s).safe = s.safe := by unfold raise; grind [edges_safe, logEntry_safe]
@[simp] theorem raise_dev (g : Nat) (b : Nat) (a0 : Nat) (a1 : Nat) : (raise g b a0 a1 s).dev = s.dev := by unfold raise; grind [edges_dev, logEntry_dev]
@[simp] theorem raise_aon (g : Nat) (b : Nat) (a0 : Nat) (a1 : Nat) : (raise g b a0 a1 s).aon = s.aon := by unfold raise; grind [edges_aon, logEntry_aon]
@[simp] theorem raise_pins (g : Nat) (b : Nat) (a0 : Nat) (a1 : Nat) : (raise g b a0 a1 s).pins = s.pins := by unfold raise; grind [edges_pins, logEntry_pins]
@[simp] theorem raise_tap (g : Nat) (b : Nat) (a0 : Nat) (a1 : Nat) : (raise g b a0 a1 s).tap = s.tap := by unfold raise; grind [edges_tap, logEntry_tap]
@[simp] theorem raise_pending (g : Nat) (b : Nat) (a0 : Nat) (a1 : Nat) : (raise g b a0 a1 s).pending = s.pending := by unfold raise; grind [edges_pending, logEntry_pending]

@[simp] theorem raiseEvery_hly (key : Nat) (secs : Nat) (g : Nat) (b : Nat) (a0 : Nat) (a1 : Nat) : (raiseEvery key secs g b a0 a1 s).hly = s.hly := by unfold raiseEvery; grind [raise_hly, countRepeat_hly]
@[simp] theorem raiseEvery_pwr (key : Nat) (secs : Nat) (g : Nat) (b : Nat) (a0 : Nat) (a1 : Nat) : (raiseEvery key secs g b a0 a1 s).pwr = s.pwr := by unfold raiseEvery; grind [raise_pwr, countRepeat_pwr]
@[simp] theorem raiseEvery_flush (key : Nat) (secs : Nat) (g : Nat) (b : Nat) (a0 : Nat) (a1 : Nat) : (raiseEvery key secs g b a0 a1 s).flush = s.flush := by unfold raiseEvery; grind [raise_flush, countRepeat_flush]
@[simp] theorem raiseEvery_cfg (key : Nat) (secs : Nat) (g : Nat) (b : Nat) (a0 : Nat) (a1 : Nat) : (raiseEvery key secs g b a0 a1 s).cfg = s.cfg := by unfold raiseEvery; grind [raise_cfg, countRepeat_cfg]
@[simp] theorem raiseEvery_boot (key : Nat) (secs : Nat) (g : Nat) (b : Nat) (a0 : Nat) (a1 : Nat) : (raiseEvery key secs g b a0 a1 s).boot = s.boot := by unfold raiseEvery; grind [raise_boot, countRepeat_boot]
@[simp] theorem raiseEvery_stage (key : Nat) (secs : Nat) (g : Nat) (b : Nat) (a0 : Nat) (a1 : Nat) : (raiseEvery key secs g b a0 a1 s).stage = s.stage := by unfold raiseEvery; grind [raise_stage, countRepeat_stage]
@[simp] theorem raiseEvery_prm (key : Nat) (secs : Nat) (g : Nat) (b : Nat) (a0 : Nat) (a1 : Nat) : (raiseEvery key secs g b a0 a1 s).prm = s.prm := by unfold raiseEvery; grind [raise_prm, countRepeat_prm]
@[simp] theorem raiseEvery_cmds (key : Nat) (secs : Nat) (g : Nat) (b : Nat) (a0 : Nat) (a1 : Nat) : (raiseEvery key secs g b a0 a1 s).cmds = s.cmds := by unfold raiseEvery; grind [raise_cmds, countRepeat_cmds]
@[simp] theorem raiseEvery_resv (key : Nat) (secs : Nat) (g : Nat) (b : Nat) (a0 : Nat) (a1 : Nat) : (raiseEvery key secs g b a0 a1 s).resv = s.resv := by unfold raiseEvery; grind [raise_resv, countRepeat_resv]
@[simp] theorem raiseEvery_hold (key : Nat) (secs : Nat) (g : Nat) (b : Nat) (a0 : Nat) (a1 : Nat) : (raiseEvery key secs g b a0 a1 s).hold = s.hold := by unfold raiseEvery; grind [raise_hold, countRepeat_hold]
@[simp] theorem raiseEvery_ptpl (key : Nat) (secs : Nat) (g : Nat) (b : Nat) (a0 : Nat) (a1 : Nat) : (raiseEvery key secs g b a0 a1 s).ptpl = s.ptpl := by unfold raiseEvery; grind [raise_ptpl, countRepeat_ptpl]
@[simp] theorem raiseEvery_orders (key : Nat) (secs : Nat) (g : Nat) (b : Nat) (a0 : Nat) (a1 : Nat) : (raiseEvery key secs g b a0 a1 s).orders = s.orders := by unfold raiseEvery; grind [raise_orders, countRepeat_orders]
@[simp] theorem raiseEvery_exts (key : Nat) (secs : Nat) (g : Nat) (b : Nat) (a0 : Nat) (a1 : Nat) : (raiseEvery key secs g b a0 a1 s).exts = s.exts := by unfold raiseEvery; grind [raise_exts, countRepeat_exts]
@[simp] theorem raiseEvery_smb (key : Nat) (secs : Nat) (g : Nat) (b : Nat) (a0 : Nat) (a1 : Nat) : (raiseEvery key secs g b a0 a1 s).smb = s.smb := by unfold raiseEvery; grind [raise_smb, countRepeat_smb]
@[simp] theorem raiseEvery_hx (key : Nat) (secs : Nat) (g : Nat) (b : Nat) (a0 : Nat) (a1 : Nat) : (raiseEvery key secs g b a0 a1 s).hx = s.hx := by unfold raiseEvery; grind [raise_hx, countRepeat_hx]
@[simp] theorem raiseEvery_jrnl (key : Nat) (secs : Nat) (g : Nat) (b : Nat) (a0 : Nat) (a1 : Nat) : (raiseEvery key secs g b a0 a1 s).jrnl = s.jrnl := by unfold raiseEvery; grind [raise_jrnl, countRepeat_jrnl]
@[simp] theorem raiseEvery_map (key : Nat) (secs : Nat) (g : Nat) (b : Nat) (a0 : Nat) (a1 : Nat) : (raiseEvery key secs g b a0 a1 s).map = s.map := by unfold raiseEvery; grind [raise_map, countRepeat_map]
@[simp] theorem raiseEvery_media (key : Nat) (secs : Nat) (g : Nat) (b : Nat) (a0 : Nat) (a1 : Nat) : (raiseEvery key secs g b a0 a1 s).media = s.media := by unfold raiseEvery; grind [raise_media, countRepeat_media]
@[simp] theorem raiseEvery_peer (key : Nat) (secs : Nat) (g : Nat) (b : Nat) (a0 : Nat) (a1 : Nat) : (raiseEvery key secs g b a0 a1 s).peer = s.peer := by unfold raiseEvery; grind [raise_peer, countRepeat_peer]
@[simp] theorem raiseEvery_braid (key : Nat) (secs : Nat) (g : Nat) (b : Nat) (a0 : Nat) (a1 : Nat) : (raiseEvery key secs g b a0 a1 s).braid = s.braid := by unfold raiseEvery; grind [raise_braid, countRepeat_braid]
@[simp] theorem raiseEvery_ps (key : Nat) (secs : Nat) (g : Nat) (b : Nat) (a0 : Nat) (a1 : Nat) : (raiseEvery key secs g b a0 a1 s).ps = s.ps := by unfold raiseEvery; grind [raise_ps, countRepeat_ps]
@[simp] theorem raiseEvery_therm (key : Nat) (secs : Nat) (g : Nat) (b : Nat) (a0 : Nat) (a1 : Nat) : (raiseEvery key secs g b a0 a1 s).therm = s.therm := by unfold raiseEvery; grind [raise_therm, countRepeat_therm]
@[simp] theorem raiseEvery_rf (key : Nat) (secs : Nat) (g : Nat) (b : Nat) (a0 : Nat) (a1 : Nat) : (raiseEvery key secs g b a0 a1 s).rf = s.rf := by unfold raiseEvery; grind [raise_rf, countRepeat_rf]
@[simp] theorem raiseEvery_cleat (key : Nat) (secs : Nat) (g : Nat) (b : Nat) (a0 : Nat) (a1 : Nat) : (raiseEvery key secs g b a0 a1 s).cleat = s.cleat := by unfold raiseEvery; grind [raise_cleat, countRepeat_cleat]
@[simp] theorem raiseEvery_safe (key : Nat) (secs : Nat) (g : Nat) (b : Nat) (a0 : Nat) (a1 : Nat) : (raiseEvery key secs g b a0 a1 s).safe = s.safe := by unfold raiseEvery; grind [raise_safe, countRepeat_safe]
@[simp] theorem raiseEvery_dev (key : Nat) (secs : Nat) (g : Nat) (b : Nat) (a0 : Nat) (a1 : Nat) : (raiseEvery key secs g b a0 a1 s).dev = s.dev := by unfold raiseEvery; grind [raise_dev, countRepeat_dev]
@[simp] theorem raiseEvery_aon (key : Nat) (secs : Nat) (g : Nat) (b : Nat) (a0 : Nat) (a1 : Nat) : (raiseEvery key secs g b a0 a1 s).aon = s.aon := by unfold raiseEvery; grind [raise_aon, countRepeat_aon]
@[simp] theorem raiseEvery_pins (key : Nat) (secs : Nat) (g : Nat) (b : Nat) (a0 : Nat) (a1 : Nat) : (raiseEvery key secs g b a0 a1 s).pins = s.pins := by unfold raiseEvery; grind [raise_pins, countRepeat_pins]
@[simp] theorem raiseEvery_tap (key : Nat) (secs : Nat) (g : Nat) (b : Nat) (a0 : Nat) (a1 : Nat) : (raiseEvery key secs g b a0 a1 s).tap = s.tap := by unfold raiseEvery; grind [raise_tap, countRepeat_tap]
@[simp] theorem raiseEvery_pending (key : Nat) (secs : Nat) (g : Nat) (b : Nat) (a0 : Nat) (a1 : Nat) : (raiseEvery key secs g b a0 a1 s).pending = s.pending := by unfold raiseEvery; grind [raise_pending, countRepeat_pending]

@[simp] theorem noteError_hly (p : Port) (sq : Nat) (cid : Nat) (sct : Nat) (sc : Nat) : (noteError p sq cid sct sc s).hly = s.hly := by unfold noteError; grind [setCtl_hly]
@[simp] theorem noteError_pwr (p : Port) (sq : Nat) (cid : Nat) (sct : Nat) (sc : Nat) : (noteError p sq cid sct sc s).pwr = s.pwr := by unfold noteError; grind [setCtl_pwr]
@[simp] theorem noteError_flush (p : Port) (sq : Nat) (cid : Nat) (sct : Nat) (sc : Nat) : (noteError p sq cid sct sc s).flush = s.flush := by unfold noteError; grind [setCtl_flush]
@[simp] theorem noteError_cfg (p : Port) (sq : Nat) (cid : Nat) (sct : Nat) (sc : Nat) : (noteError p sq cid sct sc s).cfg = s.cfg := by unfold noteError; grind [setCtl_cfg]
@[simp] theorem noteError_boot (p : Port) (sq : Nat) (cid : Nat) (sct : Nat) (sc : Nat) : (noteError p sq cid sct sc s).boot = s.boot := by unfold noteError; grind [setCtl_boot]
@[simp] theorem noteError_stage (p : Port) (sq : Nat) (cid : Nat) (sct : Nat) (sc : Nat) : (noteError p sq cid sct sc s).stage = s.stage := by unfold noteError; grind [setCtl_stage]
@[simp] theorem noteError_prm (p : Port) (sq : Nat) (cid : Nat) (sct : Nat) (sc : Nat) : (noteError p sq cid sct sc s).prm = s.prm := by unfold noteError; grind [setCtl_prm]
@[simp] theorem noteError_cmds (p : Port) (sq : Nat) (cid : Nat) (sct : Nat) (sc : Nat) : (noteError p sq cid sct sc s).cmds = s.cmds := by unfold noteError; grind [setCtl_cmds]
@[simp] theorem noteError_resv (p : Port) (sq : Nat) (cid : Nat) (sct : Nat) (sc : Nat) : (noteError p sq cid sct sc s).resv = s.resv := by unfold noteError; grind [setCtl_resv]
@[simp] theorem noteError_hold (p : Port) (sq : Nat) (cid : Nat) (sct : Nat) (sc : Nat) : (noteError p sq cid sct sc s).hold = s.hold := by unfold noteError; grind [setCtl_hold]
@[simp] theorem noteError_ptpl (p : Port) (sq : Nat) (cid : Nat) (sct : Nat) (sc : Nat) : (noteError p sq cid sct sc s).ptpl = s.ptpl := by unfold noteError; grind [setCtl_ptpl]
@[simp] theorem noteError_orders (p : Port) (sq : Nat) (cid : Nat) (sct : Nat) (sc : Nat) : (noteError p sq cid sct sc s).orders = s.orders := by unfold noteError; grind [setCtl_orders]
@[simp] theorem noteError_exts (p : Port) (sq : Nat) (cid : Nat) (sct : Nat) (sc : Nat) : (noteError p sq cid sct sc s).exts = s.exts := by unfold noteError; grind [setCtl_exts]
@[simp] theorem noteError_smb (p : Port) (sq : Nat) (cid : Nat) (sct : Nat) (sc : Nat) : (noteError p sq cid sct sc s).smb = s.smb := by unfold noteError; grind [setCtl_smb]
@[simp] theorem noteError_hx (p : Port) (sq : Nat) (cid : Nat) (sct : Nat) (sc : Nat) : (noteError p sq cid sct sc s).hx = s.hx := by unfold noteError; grind [setCtl_hx]
@[simp] theorem noteError_jrnl (p : Port) (sq : Nat) (cid : Nat) (sct : Nat) (sc : Nat) : (noteError p sq cid sct sc s).jrnl = s.jrnl := by unfold noteError; grind [setCtl_jrnl]
@[simp] theorem noteError_map (p : Port) (sq : Nat) (cid : Nat) (sct : Nat) (sc : Nat) : (noteError p sq cid sct sc s).map = s.map := by unfold noteError; grind [setCtl_map]
@[simp] theorem noteError_media (p : Port) (sq : Nat) (cid : Nat) (sct : Nat) (sc : Nat) : (noteError p sq cid sct sc s).media = s.media := by unfold noteError; grind [setCtl_media]
@[simp] theorem noteError_peer (p : Port) (sq : Nat) (cid : Nat) (sct : Nat) (sc : Nat) : (noteError p sq cid sct sc s).peer = s.peer := by unfold noteError; grind [setCtl_peer]
@[simp] theorem noteError_braid (p : Port) (sq : Nat) (cid : Nat) (sct : Nat) (sc : Nat) : (noteError p sq cid sct sc s).braid = s.braid := by unfold noteError; grind [setCtl_braid]
@[simp] theorem noteError_ps (p : Port) (sq : Nat) (cid : Nat) (sct : Nat) (sc : Nat) : (noteError p sq cid sct sc s).ps = s.ps := by unfold noteError; grind [setCtl_ps]
@[simp] theorem noteError_therm (p : Port) (sq : Nat) (cid : Nat) (sct : Nat) (sc : Nat) : (noteError p sq cid sct sc s).therm = s.therm := by unfold noteError; grind [setCtl_therm]
@[simp] theorem noteError_rf (p : Port) (sq : Nat) (cid : Nat) (sct : Nat) (sc : Nat) : (noteError p sq cid sct sc s).rf = s.rf := by unfold noteError; grind [setCtl_rf]
@[simp] theorem noteError_cleat (p : Port) (sq : Nat) (cid : Nat) (sct : Nat) (sc : Nat) : (noteError p sq cid sct sc s).cleat = s.cleat := by unfold noteError; grind [setCtl_cleat]
@[simp] theorem noteError_safe (p : Port) (sq : Nat) (cid : Nat) (sct : Nat) (sc : Nat) : (noteError p sq cid sct sc s).safe = s.safe := by unfold noteError; grind [setCtl_safe]
@[simp] theorem noteError_evt (p : Port) (sq : Nat) (cid : Nat) (sct : Nat) (sc : Nat) : (noteError p sq cid sct sc s).evt = s.evt := by unfold noteError; grind [setCtl_evt]
@[simp] theorem noteError_dev (p : Port) (sq : Nat) (cid : Nat) (sct : Nat) (sc : Nat) : (noteError p sq cid sct sc s).dev = s.dev := by unfold noteError; grind [setCtl_dev]
@[simp] theorem noteError_aon (p : Port) (sq : Nat) (cid : Nat) (sct : Nat) (sc : Nat) : (noteError p sq cid sct sc s).aon = s.aon := by unfold noteError; grind [setCtl_aon]
@[simp] theorem noteError_pins (p : Port) (sq : Nat) (cid : Nat) (sct : Nat) (sc : Nat) : (noteError p sq cid sct sc s).pins = s.pins := by unfold noteError; grind [setCtl_pins]
@[simp] theorem noteError_tap (p : Port) (sq : Nat) (cid : Nat) (sct : Nat) (sc : Nat) : (noteError p sq cid sct sc s).tap = s.tap := by unfold noteError; grind [setCtl_tap]
@[simp] theorem noteError_out (p : Port) (sq : Nat) (cid : Nat) (sct : Nat) (sc : Nat) : (noteError p sq cid sct sc s).out = s.out := by unfold noteError; grind [setCtl_out]
@[simp] theorem noteError_fresh (p : Port) (sq : Nat) (cid : Nat) (sct : Nat) (sc : Nat) : (noteError p sq cid sct sc s).fresh = s.fresh := by unfold noteError; grind [setCtl_fresh]
@[simp] theorem noteError_pending (p : Port) (sq : Nat) (cid : Nat) (sct : Nat) (sc : Nat) : (noteError p sq cid sct sc s).pending = s.pending := by unfold noteError; grind [setCtl_pending]

@[simp] theorem post_hly (p : Port) (sq : Nat) (cid : Nat) (sct : Nat) (sc : Nat) (dw0 : Nat) : (post p sq cid sct sc dw0 s).hly = s.hly := by unfold post; grind [emit_hly, noteError_hly, signal_hly]
@[simp] theorem post_pwr (p : Port) (sq : Nat) (cid : Nat) (sct : Nat) (sc : Nat) (dw0 : Nat) : (post p sq cid sct sc dw0 s).pwr = s.pwr := by unfold post; grind [emit_pwr, noteError_pwr, signal_pwr]
@[simp] theorem post_flush (p : Port) (sq : Nat) (cid : Nat) (sct : Nat) (sc : Nat) (dw0 : Nat) : (post p sq cid sct sc dw0 s).flush = s.flush := by unfold post; grind [emit_flush, noteError_flush, signal_flush]
@[simp] theorem post_cfg (p : Port) (sq : Nat) (cid : Nat) (sct : Nat) (sc : Nat) (dw0 : Nat) : (post p sq cid sct sc dw0 s).cfg = s.cfg := by unfold post; grind [emit_cfg, noteError_cfg, signal_cfg]
@[simp] theorem post_boot (p : Port) (sq : Nat) (cid : Nat) (sct : Nat) (sc : Nat) (dw0 : Nat) : (post p sq cid sct sc dw0 s).boot = s.boot := by unfold post; grind [emit_boot, noteError_boot, signal_boot]
@[simp] theorem post_stage (p : Port) (sq : Nat) (cid : Nat) (sct : Nat) (sc : Nat) (dw0 : Nat) : (post p sq cid sct sc dw0 s).stage = s.stage := by unfold post; grind [emit_stage, noteError_stage, signal_stage]
@[simp] theorem post_prm (p : Port) (sq : Nat) (cid : Nat) (sct : Nat) (sc : Nat) (dw0 : Nat) : (post p sq cid sct sc dw0 s).prm = s.prm := by unfold post; grind [emit_prm, noteError_prm, signal_prm]
@[simp] theorem post_cmds (p : Port) (sq : Nat) (cid : Nat) (sct : Nat) (sc : Nat) (dw0 : Nat) : (post p sq cid sct sc dw0 s).cmds = s.cmds := by unfold post; grind [emit_cmds, noteError_cmds, signal_cmds]
@[simp] theorem post_resv (p : Port) (sq : Nat) (cid : Nat) (sct : Nat) (sc : Nat) (dw0 : Nat) : (post p sq cid sct sc dw0 s).resv = s.resv := by unfold post; grind [emit_resv, noteError_resv, signal_resv]
@[simp] theorem post_hold (p : Port) (sq : Nat) (cid : Nat) (sct : Nat) (sc : Nat) (dw0 : Nat) : (post p sq cid sct sc dw0 s).hold = s.hold := by unfold post; grind [emit_hold, noteError_hold, signal_hold]
@[simp] theorem post_ptpl (p : Port) (sq : Nat) (cid : Nat) (sct : Nat) (sc : Nat) (dw0 : Nat) : (post p sq cid sct sc dw0 s).ptpl = s.ptpl := by unfold post; grind [emit_ptpl, noteError_ptpl, signal_ptpl]
@[simp] theorem post_orders (p : Port) (sq : Nat) (cid : Nat) (sct : Nat) (sc : Nat) (dw0 : Nat) : (post p sq cid sct sc dw0 s).orders = s.orders := by unfold post; grind [emit_orders, noteError_orders, signal_orders]
@[simp] theorem post_exts (p : Port) (sq : Nat) (cid : Nat) (sct : Nat) (sc : Nat) (dw0 : Nat) : (post p sq cid sct sc dw0 s).exts = s.exts := by unfold post; grind [emit_exts, noteError_exts, signal_exts]
@[simp] theorem post_smb (p : Port) (sq : Nat) (cid : Nat) (sct : Nat) (sc : Nat) (dw0 : Nat) : (post p sq cid sct sc dw0 s).smb = s.smb := by unfold post; grind [emit_smb, noteError_smb, signal_smb]
@[simp] theorem post_hx (p : Port) (sq : Nat) (cid : Nat) (sct : Nat) (sc : Nat) (dw0 : Nat) : (post p sq cid sct sc dw0 s).hx = s.hx := by unfold post; grind [emit_hx, noteError_hx, signal_hx]
@[simp] theorem post_jrnl (p : Port) (sq : Nat) (cid : Nat) (sct : Nat) (sc : Nat) (dw0 : Nat) : (post p sq cid sct sc dw0 s).jrnl = s.jrnl := by unfold post; grind [emit_jrnl, noteError_jrnl, signal_jrnl]
@[simp] theorem post_map (p : Port) (sq : Nat) (cid : Nat) (sct : Nat) (sc : Nat) (dw0 : Nat) : (post p sq cid sct sc dw0 s).map = s.map := by unfold post; grind [emit_map, noteError_map, signal_map]
@[simp] theorem post_media (p : Port) (sq : Nat) (cid : Nat) (sct : Nat) (sc : Nat) (dw0 : Nat) : (post p sq cid sct sc dw0 s).media = s.media := by unfold post; grind [emit_media, noteError_media, signal_media]
@[simp] theorem post_peer (p : Port) (sq : Nat) (cid : Nat) (sct : Nat) (sc : Nat) (dw0 : Nat) : (post p sq cid sct sc dw0 s).peer = s.peer := by unfold post; grind [emit_peer, noteError_peer, signal_peer]
@[simp] theorem post_braid (p : Port) (sq : Nat) (cid : Nat) (sct : Nat) (sc : Nat) (dw0 : Nat) : (post p sq cid sct sc dw0 s).braid = s.braid := by unfold post; grind [emit_braid, noteError_braid, signal_braid]
@[simp] theorem post_ps (p : Port) (sq : Nat) (cid : Nat) (sct : Nat) (sc : Nat) (dw0 : Nat) : (post p sq cid sct sc dw0 s).ps = s.ps := by unfold post; grind [emit_ps, noteError_ps, signal_ps]
@[simp] theorem post_therm (p : Port) (sq : Nat) (cid : Nat) (sct : Nat) (sc : Nat) (dw0 : Nat) : (post p sq cid sct sc dw0 s).therm = s.therm := by unfold post; grind [emit_therm, noteError_therm, signal_therm]
@[simp] theorem post_rf (p : Port) (sq : Nat) (cid : Nat) (sct : Nat) (sc : Nat) (dw0 : Nat) : (post p sq cid sct sc dw0 s).rf = s.rf := by unfold post; grind [emit_rf, noteError_rf, signal_rf]
@[simp] theorem post_cleat (p : Port) (sq : Nat) (cid : Nat) (sct : Nat) (sc : Nat) (dw0 : Nat) : (post p sq cid sct sc dw0 s).cleat = s.cleat := by unfold post; grind [emit_cleat, noteError_cleat, signal_cleat]
@[simp] theorem post_safe (p : Port) (sq : Nat) (cid : Nat) (sct : Nat) (sc : Nat) (dw0 : Nat) : (post p sq cid sct sc dw0 s).safe = s.safe := by unfold post; grind [emit_safe, noteError_safe, signal_safe]
@[simp] theorem post_evt (p : Port) (sq : Nat) (cid : Nat) (sct : Nat) (sc : Nat) (dw0 : Nat) : (post p sq cid sct sc dw0 s).evt = s.evt := by unfold post; grind [emit_evt, noteError_evt, signal_evt]
@[simp] theorem post_dev (p : Port) (sq : Nat) (cid : Nat) (sct : Nat) (sc : Nat) (dw0 : Nat) : (post p sq cid sct sc dw0 s).dev = s.dev := by unfold post; grind [emit_dev, noteError_dev, signal_dev]
@[simp] theorem post_aon (p : Port) (sq : Nat) (cid : Nat) (sct : Nat) (sc : Nat) (dw0 : Nat) : (post p sq cid sct sc dw0 s).aon = s.aon := by unfold post; grind [emit_aon, noteError_aon, signal_aon]
@[simp] theorem post_pins (p : Port) (sq : Nat) (cid : Nat) (sct : Nat) (sc : Nat) (dw0 : Nat) : (post p sq cid sct sc dw0 s).pins = s.pins := by unfold post; grind [emit_pins, noteError_pins, signal_pins]
@[simp] theorem post_tap (p : Port) (sq : Nat) (cid : Nat) (sct : Nat) (sc : Nat) (dw0 : Nat) : (post p sq cid sct sc dw0 s).tap = s.tap := by unfold post; grind [emit_tap, noteError_tap, signal_tap]
@[simp] theorem post_fresh (p : Port) (sq : Nat) (cid : Nat) (sct : Nat) (sc : Nat) (dw0 : Nat) : (post p sq cid sct sc dw0 s).fresh = s.fresh := by unfold post; grind [emit_fresh, noteError_fresh, signal_fresh]
@[simp] theorem post_pending (p : Port) (sq : Nat) (cid : Nat) (sct : Nat) (sc : Nat) (dw0 : Nat) : (post p sq cid sct sc dw0 s).pending = s.pending := by unfold post; grind [emit_pending, noteError_pending, signal_pending]

@[simp] theorem answer_hly (h : Hdr) (sct : Nat) (sc : Nat) (dw0 : Nat) : (answer h sct sc dw0 s).hly = s.hly := by unfold answer; grind [post_hly]
@[simp] theorem answer_pwr (h : Hdr) (sct : Nat) (sc : Nat) (dw0 : Nat) : (answer h sct sc dw0 s).pwr = s.pwr := by unfold answer; grind [post_pwr]
@[simp] theorem answer_flush (h : Hdr) (sct : Nat) (sc : Nat) (dw0 : Nat) : (answer h sct sc dw0 s).flush = s.flush := by unfold answer; grind [post_flush]
@[simp] theorem answer_cfg (h : Hdr) (sct : Nat) (sc : Nat) (dw0 : Nat) : (answer h sct sc dw0 s).cfg = s.cfg := by unfold answer; grind [post_cfg]
@[simp] theorem answer_boot (h : Hdr) (sct : Nat) (sc : Nat) (dw0 : Nat) : (answer h sct sc dw0 s).boot = s.boot := by unfold answer; grind [post_boot]
@[simp] theorem answer_stage (h : Hdr) (sct : Nat) (sc : Nat) (dw0 : Nat) : (answer h sct sc dw0 s).stage = s.stage := by unfold answer; grind [post_stage]
@[simp] theorem answer_prm (h : Hdr) (sct : Nat) (sc : Nat) (dw0 : Nat) : (answer h sct sc dw0 s).prm = s.prm := by unfold answer; grind [post_prm]
@[simp] theorem answer_cmds (h : Hdr) (sct : Nat) (sc : Nat) (dw0 : Nat) : (answer h sct sc dw0 s).cmds = s.cmds := by unfold answer; grind [post_cmds]
@[simp] theorem answer_resv (h : Hdr) (sct : Nat) (sc : Nat) (dw0 : Nat) : (answer h sct sc dw0 s).resv = s.resv := by unfold answer; grind [post_resv]
@[simp] theorem answer_hold (h : Hdr) (sct : Nat) (sc : Nat) (dw0 : Nat) : (answer h sct sc dw0 s).hold = s.hold := by unfold answer; grind [post_hold]
@[simp] theorem answer_ptpl (h : Hdr) (sct : Nat) (sc : Nat) (dw0 : Nat) : (answer h sct sc dw0 s).ptpl = s.ptpl := by unfold answer; grind [post_ptpl]
@[simp] theorem answer_orders (h : Hdr) (sct : Nat) (sc : Nat) (dw0 : Nat) : (answer h sct sc dw0 s).orders = s.orders := by unfold answer; grind [post_orders]
@[simp] theorem answer_exts (h : Hdr) (sct : Nat) (sc : Nat) (dw0 : Nat) : (answer h sct sc dw0 s).exts = s.exts := by unfold answer; grind [post_exts]
@[simp] theorem answer_smb (h : Hdr) (sct : Nat) (sc : Nat) (dw0 : Nat) : (answer h sct sc dw0 s).smb = s.smb := by unfold answer; grind [post_smb]
@[simp] theorem answer_hx (h : Hdr) (sct : Nat) (sc : Nat) (dw0 : Nat) : (answer h sct sc dw0 s).hx = s.hx := by unfold answer; grind [post_hx]
@[simp] theorem answer_jrnl (h : Hdr) (sct : Nat) (sc : Nat) (dw0 : Nat) : (answer h sct sc dw0 s).jrnl = s.jrnl := by unfold answer; grind [post_jrnl]
@[simp] theorem answer_map (h : Hdr) (sct : Nat) (sc : Nat) (dw0 : Nat) : (answer h sct sc dw0 s).map = s.map := by unfold answer; grind [post_map]
@[simp] theorem answer_media (h : Hdr) (sct : Nat) (sc : Nat) (dw0 : Nat) : (answer h sct sc dw0 s).media = s.media := by unfold answer; grind [post_media]
@[simp] theorem answer_peer (h : Hdr) (sct : Nat) (sc : Nat) (dw0 : Nat) : (answer h sct sc dw0 s).peer = s.peer := by unfold answer; grind [post_peer]
@[simp] theorem answer_braid (h : Hdr) (sct : Nat) (sc : Nat) (dw0 : Nat) : (answer h sct sc dw0 s).braid = s.braid := by unfold answer; grind [post_braid]
@[simp] theorem answer_ps (h : Hdr) (sct : Nat) (sc : Nat) (dw0 : Nat) : (answer h sct sc dw0 s).ps = s.ps := by unfold answer; grind [post_ps]
@[simp] theorem answer_therm (h : Hdr) (sct : Nat) (sc : Nat) (dw0 : Nat) : (answer h sct sc dw0 s).therm = s.therm := by unfold answer; grind [post_therm]
@[simp] theorem answer_rf (h : Hdr) (sct : Nat) (sc : Nat) (dw0 : Nat) : (answer h sct sc dw0 s).rf = s.rf := by unfold answer; grind [post_rf]
@[simp] theorem answer_cleat (h : Hdr) (sct : Nat) (sc : Nat) (dw0 : Nat) : (answer h sct sc dw0 s).cleat = s.cleat := by unfold answer; grind [post_cleat]
@[simp] theorem answer_safe (h : Hdr) (sct : Nat) (sc : Nat) (dw0 : Nat) : (answer h sct sc dw0 s).safe = s.safe := by unfold answer; grind [post_safe]
@[simp] theorem answer_evt (h : Hdr) (sct : Nat) (sc : Nat) (dw0 : Nat) : (answer h sct sc dw0 s).evt = s.evt := by unfold answer; grind [post_evt]
@[simp] theorem answer_dev (h : Hdr) (sct : Nat) (sc : Nat) (dw0 : Nat) : (answer h sct sc dw0 s).dev = s.dev := by unfold answer; grind [post_dev]
@[simp] theorem answer_aon (h : Hdr) (sct : Nat) (sc : Nat) (dw0 : Nat) : (answer h sct sc dw0 s).aon = s.aon := by unfold answer; grind [post_aon]
@[simp] theorem answer_pins (h : Hdr) (sct : Nat) (sc : Nat) (dw0 : Nat) : (answer h sct sc dw0 s).pins = s.pins := by unfold answer; grind [post_pins]
@[simp] theorem answer_tap (h : Hdr) (sct : Nat) (sc : Nat) (dw0 : Nat) : (answer h sct sc dw0 s).tap = s.tap := by unfold answer; grind [post_tap]
@[simp] theorem answer_fresh (h : Hdr) (sct : Nat) (sc : Nat) (dw0 : Nat) : (answer h sct sc dw0 s).fresh = s.fresh := by unfold answer; grind [post_fresh]
@[simp] theorem answer_pending (h : Hdr) (sct : Nat) (sc : Nat) (dw0 : Nat) : (answer h sct sc dw0 s).pending = s.pending := by unfold answer; grind [post_pending]

@[simp] theorem finish_hly (c : HostCmd) (sct : Nat) (sc : Nat) (dw0 : Nat) : (finish c sct sc dw0 s).hly = s.hly := by unfold finish; grind [post_hly]
@[simp] theorem finish_pwr (c : HostCmd) (sct : Nat) (sc : Nat) (dw0 : Nat) : (finish c sct sc dw0 s).pwr = s.pwr := by unfold finish; grind [post_pwr]
@[simp] theorem finish_flush (c : HostCmd) (sct : Nat) (sc : Nat) (dw0 : Nat) : (finish c sct sc dw0 s).flush = s.flush := by unfold finish; grind [post_flush]
@[simp] theorem finish_cfg (c : HostCmd) (sct : Nat) (sc : Nat) (dw0 : Nat) : (finish c sct sc dw0 s).cfg = s.cfg := by unfold finish; grind [post_cfg]
@[simp] theorem finish_boot (c : HostCmd) (sct : Nat) (sc : Nat) (dw0 : Nat) : (finish c sct sc dw0 s).boot = s.boot := by unfold finish; grind [post_boot]
@[simp] theorem finish_stage (c : HostCmd) (sct : Nat) (sc : Nat) (dw0 : Nat) : (finish c sct sc dw0 s).stage = s.stage := by unfold finish; grind [post_stage]
@[simp] theorem finish_prm (c : HostCmd) (sct : Nat) (sc : Nat) (dw0 : Nat) : (finish c sct sc dw0 s).prm = s.prm := by unfold finish; grind [post_prm]
@[simp] theorem finish_resv (c : HostCmd) (sct : Nat) (sc : Nat) (dw0 : Nat) : (finish c sct sc dw0 s).resv = s.resv := by unfold finish; grind [post_resv]
@[simp] theorem finish_hold (c : HostCmd) (sct : Nat) (sc : Nat) (dw0 : Nat) : (finish c sct sc dw0 s).hold = s.hold := by unfold finish; grind [post_hold]
@[simp] theorem finish_ptpl (c : HostCmd) (sct : Nat) (sc : Nat) (dw0 : Nat) : (finish c sct sc dw0 s).ptpl = s.ptpl := by unfold finish; grind [post_ptpl]
@[simp] theorem finish_orders (c : HostCmd) (sct : Nat) (sc : Nat) (dw0 : Nat) : (finish c sct sc dw0 s).orders = s.orders := by unfold finish; grind [post_orders]
@[simp] theorem finish_exts (c : HostCmd) (sct : Nat) (sc : Nat) (dw0 : Nat) : (finish c sct sc dw0 s).exts = s.exts := by unfold finish; grind [post_exts]
@[simp] theorem finish_smb (c : HostCmd) (sct : Nat) (sc : Nat) (dw0 : Nat) : (finish c sct sc dw0 s).smb = s.smb := by unfold finish; grind [post_smb]
@[simp] theorem finish_hx (c : HostCmd) (sct : Nat) (sc : Nat) (dw0 : Nat) : (finish c sct sc dw0 s).hx = s.hx := by unfold finish; grind [post_hx]
@[simp] theorem finish_jrnl (c : HostCmd) (sct : Nat) (sc : Nat) (dw0 : Nat) : (finish c sct sc dw0 s).jrnl = s.jrnl := by unfold finish; grind [post_jrnl]
@[simp] theorem finish_map (c : HostCmd) (sct : Nat) (sc : Nat) (dw0 : Nat) : (finish c sct sc dw0 s).map = s.map := by unfold finish; grind [post_map]
@[simp] theorem finish_media (c : HostCmd) (sct : Nat) (sc : Nat) (dw0 : Nat) : (finish c sct sc dw0 s).media = s.media := by unfold finish; grind [post_media]
@[simp] theorem finish_peer (c : HostCmd) (sct : Nat) (sc : Nat) (dw0 : Nat) : (finish c sct sc dw0 s).peer = s.peer := by unfold finish; grind [post_peer]
@[simp] theorem finish_braid (c : HostCmd) (sct : Nat) (sc : Nat) (dw0 : Nat) : (finish c sct sc dw0 s).braid = s.braid := by unfold finish; grind [post_braid]
@[simp] theorem finish_ps (c : HostCmd) (sct : Nat) (sc : Nat) (dw0 : Nat) : (finish c sct sc dw0 s).ps = s.ps := by unfold finish; grind [post_ps]
@[simp] theorem finish_therm (c : HostCmd) (sct : Nat) (sc : Nat) (dw0 : Nat) : (finish c sct sc dw0 s).therm = s.therm := by unfold finish; grind [post_therm]
@[simp] theorem finish_rf (c : HostCmd) (sct : Nat) (sc : Nat) (dw0 : Nat) : (finish c sct sc dw0 s).rf = s.rf := by unfold finish; grind [post_rf]
@[simp] theorem finish_cleat (c : HostCmd) (sct : Nat) (sc : Nat) (dw0 : Nat) : (finish c sct sc dw0 s).cleat = s.cleat := by unfold finish; grind [post_cleat]
@[simp] theorem finish_safe (c : HostCmd) (sct : Nat) (sc : Nat) (dw0 : Nat) : (finish c sct sc dw0 s).safe = s.safe := by unfold finish; grind [post_safe]
@[simp] theorem finish_evt (c : HostCmd) (sct : Nat) (sc : Nat) (dw0 : Nat) : (finish c sct sc dw0 s).evt = s.evt := by unfold finish; grind [post_evt]
@[simp] theorem finish_dev (c : HostCmd) (sct : Nat) (sc : Nat) (dw0 : Nat) : (finish c sct sc dw0 s).dev = s.dev := by unfold finish; grind [post_dev]
@[simp] theorem finish_aon (c : HostCmd) (sct : Nat) (sc : Nat) (dw0 : Nat) : (finish c sct sc dw0 s).aon = s.aon := by unfold finish; grind [post_aon]
@[simp] theorem finish_pins (c : HostCmd) (sct : Nat) (sc : Nat) (dw0 : Nat) : (finish c sct sc dw0 s).pins = s.pins := by unfold finish; grind [post_pins]
@[simp] theorem finish_tap (c : HostCmd) (sct : Nat) (sc : Nat) (dw0 : Nat) : (finish c sct sc dw0 s).tap = s.tap := by unfold finish; grind [post_tap]
@[simp] theorem finish_fresh (c : HostCmd) (sct : Nat) (sc : Nat) (dw0 : Nat) : (finish c sct sc dw0 s).fresh = s.fresh := by unfold finish; grind [post_fresh]
@[simp] theorem finish_pending (c : HostCmd) (sct : Nat) (sc : Nat) (dw0 : Nat) : (finish c sct sc dw0 s).pending = s.pending := by unfold finish; grind [post_pending]

@[simp] theorem trigger_hly (reason : Nat) : (trigger reason s).hly = s.hly := by unfold trigger; grind
@[simp] theorem trigger_pwr (reason : Nat) : (trigger reason s).pwr = s.pwr := by unfold trigger; grind
@[simp] theorem trigger_flush (reason : Nat) : (trigger reason s).flush = s.flush := by unfold trigger; grind
@[simp] theorem trigger_cfg (reason : Nat) : (trigger reason s).cfg = s.cfg := by unfold trigger; grind
@[simp] theorem trigger_boot (reason : Nat) : (trigger reason s).boot = s.boot := by unfold trigger; grind
@[simp] theorem trigger_stage (reason : Nat) : (trigger reason s).stage = s.stage := by unfold trigger; grind
@[simp] theorem trigger_prm (reason : Nat) : (trigger reason s).prm = s.prm := by unfold trigger; grind
@[simp] theorem trigger_ctl (reason : Nat) : (trigger reason s).ctl = s.ctl := by unfold trigger; grind
@[simp] theorem trigger_cmds (reason : Nat) : (trigger reason s).cmds = s.cmds := by unfold trigger; grind
@[simp] theorem trigger_resv (reason : Nat) : (trigger reason s).resv = s.resv := by unfold trigger; grind
@[simp] theorem trigger_hold (reason : Nat) : (trigger reason s).hold = s.hold := by unfold trigger; grind
@[simp] theorem trigger_ptpl (reason : Nat) : (trigger reason s).ptpl = s.ptpl := by unfold trigger; grind
@[simp] theorem trigger_orders (reason : Nat) : (trigger reason s).orders = s.orders := by unfold trigger; grind
@[simp] theorem trigger_exts (reason : Nat) : (trigger reason s).exts = s.exts := by unfold trigger; grind
@[simp] theorem trigger_smb (reason : Nat) : (trigger reason s).smb = s.smb := by unfold trigger; grind
@[simp] theorem trigger_hx (reason : Nat) : (trigger reason s).hx = s.hx := by unfold trigger; grind
@[simp] theorem trigger_map (reason : Nat) : (trigger reason s).map = s.map := by unfold trigger; grind
@[simp] theorem trigger_media (reason : Nat) : (trigger reason s).media = s.media := by unfold trigger; grind
@[simp] theorem trigger_peer (reason : Nat) : (trigger reason s).peer = s.peer := by unfold trigger; grind
@[simp] theorem trigger_braid (reason : Nat) : (trigger reason s).braid = s.braid := by unfold trigger; grind
@[simp] theorem trigger_ps (reason : Nat) : (trigger reason s).ps = s.ps := by unfold trigger; grind
@[simp] theorem trigger_therm (reason : Nat) : (trigger reason s).therm = s.therm := by unfold trigger; grind
@[simp] theorem trigger_rf (reason : Nat) : (trigger reason s).rf = s.rf := by unfold trigger; grind
@[simp] theorem trigger_cleat (reason : Nat) : (trigger reason s).cleat = s.cleat := by unfold trigger; grind
@[simp] theorem trigger_safe (reason : Nat) : (trigger reason s).safe = s.safe := by unfold trigger; grind
@[simp] theorem trigger_evt (reason : Nat) : (trigger reason s).evt = s.evt := by unfold trigger; grind
@[simp] theorem trigger_dev (reason : Nat) : (trigger reason s).dev = s.dev := by unfold trigger; grind
@[simp] theorem trigger_aon (reason : Nat) : (trigger reason s).aon = s.aon := by unfold trigger; grind
@[simp] theorem trigger_pins (reason : Nat) : (trigger reason s).pins = s.pins := by unfold trigger; grind
@[simp] theorem trigger_tap (reason : Nat) : (trigger reason s).tap = s.tap := by unfold trigger; grind
@[simp] theorem trigger_out (reason : Nat) : (trigger reason s).out = s.out := by unfold trigger; grind
@[simp] theorem trigger_fresh (reason : Nat) : (trigger reason s).fresh = s.fresh := by unfold trigger; grind
@[simp] theorem trigger_pending (reason : Nat) : (trigger reason s).pending = s.pending := by unfold trigger; grind

@[simp] theorem writeRec_hly (r : JRec) : (writeRec r s).hly = s.hly := by unfold writeRec; grind [trigger_hly]
@[simp] theorem writeRec_pwr (r : JRec) : (writeRec r s).pwr = s.pwr := by unfold writeRec; grind [trigger_pwr]
@[simp] theorem writeRec_flush (r : JRec) : (writeRec r s).flush = s.flush := by unfold writeRec; grind [trigger_flush]
@[simp] theorem writeRec_cfg (r : JRec) : (writeRec r s).cfg = s.cfg := by unfold writeRec; grind [trigger_cfg]
@[simp] theorem writeRec_boot (r : JRec) : (writeRec r s).boot = s.boot := by unfold writeRec; grind [trigger_boot]
@[simp] theorem writeRec_stage (r : JRec) : (writeRec r s).stage = s.stage := by unfold writeRec; grind [trigger_stage]
@[simp] theorem writeRec_prm (r : JRec) : (writeRec r s).prm = s.prm := by unfold writeRec; grind [trigger_prm]
@[simp] theorem writeRec_ctl (r : JRec) : (writeRec r s).ctl = s.ctl := by unfold writeRec; grind [trigger_ctl]
@[simp] theorem writeRec_cmds (r : JRec) : (writeRec r s).cmds = s.cmds := by unfold writeRec; grind [trigger_cmds]
@[simp] theorem writeRec_resv (r : JRec) : (writeRec r s).resv = s.resv := by unfold writeRec; grind [trigger_resv]
@[simp] theorem writeRec_hold (r : JRec) : (writeRec r s).hold = s.hold := by unfold writeRec; grind [trigger_hold]
@[simp] theorem writeRec_ptpl (r : JRec) : (writeRec r s).ptpl = s.ptpl := by unfold writeRec; grind [trigger_ptpl]
@[simp] theorem writeRec_orders (r : JRec) : (writeRec r s).orders = s.orders := by unfold writeRec; grind [trigger_orders]
@[simp] theorem writeRec_exts (r : JRec) : (writeRec r s).exts = s.exts := by unfold writeRec; grind [trigger_exts]
@[simp] theorem writeRec_smb (r : JRec) : (writeRec r s).smb = s.smb := by unfold writeRec; grind [trigger_smb]
@[simp] theorem writeRec_hx (r : JRec) : (writeRec r s).hx = s.hx := by unfold writeRec; grind [trigger_hx]
@[simp] theorem writeRec_map (r : JRec) : (writeRec r s).map = s.map := by unfold writeRec; grind [trigger_map]
@[simp] theorem writeRec_media (r : JRec) : (writeRec r s).media = s.media := by unfold writeRec; grind [trigger_media]
@[simp] theorem writeRec_peer (r : JRec) : (writeRec r s).peer = s.peer := by unfold writeRec; grind [trigger_peer]
@[simp] theorem writeRec_braid (r : JRec) : (writeRec r s).braid = s.braid := by unfold writeRec; grind [trigger_braid]
@[simp] theorem writeRec_ps (r : JRec) : (writeRec r s).ps = s.ps := by unfold writeRec; grind [trigger_ps]
@[simp] theorem writeRec_therm (r : JRec) : (writeRec r s).therm = s.therm := by unfold writeRec; grind [trigger_therm]
@[simp] theorem writeRec_rf (r : JRec) : (writeRec r s).rf = s.rf := by unfold writeRec; grind [trigger_rf]
@[simp] theorem writeRec_cleat (r : JRec) : (writeRec r s).cleat = s.cleat := by unfold writeRec; grind [trigger_cleat]
@[simp] theorem writeRec_safe (r : JRec) : (writeRec r s).safe = s.safe := by unfold writeRec; grind [trigger_safe]
@[simp] theorem writeRec_evt (r : JRec) : (writeRec r s).evt = s.evt := by unfold writeRec; grind [trigger_evt]
@[simp] theorem writeRec_dev (r : JRec) : (writeRec r s).dev = s.dev := by unfold writeRec; grind [trigger_dev]
@[simp] theorem writeRec_aon (r : JRec) : (writeRec r s).aon = s.aon := by unfold writeRec; grind [trigger_aon]
@[simp] theorem writeRec_pins (r : JRec) : (writeRec r s).pins = s.pins := by unfold writeRec; grind [trigger_pins]
@[simp] theorem writeRec_tap (r : JRec) : (writeRec r s).tap = s.tap := by unfold writeRec; grind [trigger_tap]
@[simp] theorem writeRec_out (r : JRec) : (writeRec r s).out = s.out := by unfold writeRec; grind [trigger_out]
@[simp] theorem writeRec_fresh (r : JRec) : (writeRec r s).fresh = s.fresh := by unfold writeRec; grind [trigger_fresh]
@[simp] theorem writeRec_pending (r : JRec) : (writeRec r s).pending = s.pending := by unfold writeRec; grind [trigger_pending]

@[simp] theorem tellWait_hly : (tellWait s).hly = s.hly := by unfold tellWait; grind [raise_hly]
@[simp] theorem tellWait_pwr : (tellWait s).pwr = s.pwr := by unfold tellWait; grind [raise_pwr]
@[simp] theorem tellWait_flush : (tellWait s).flush = s.flush := by unfold tellWait; grind [raise_flush]
@[simp] theorem tellWait_cfg : (tellWait s).cfg = s.cfg := by unfold tellWait; grind [raise_cfg]
@[simp] theorem tellWait_boot : (tellWait s).boot = s.boot := by unfold tellWait; grind [raise_boot]
@[simp] theorem tellWait_stage : (tellWait s).stage = s.stage := by unfold tellWait; grind [raise_stage]
@[simp] theorem tellWait_prm : (tellWait s).prm = s.prm := by unfold tellWait; grind [raise_prm]
@[simp] theorem tellWait_cmds : (tellWait s).cmds = s.cmds := by unfold tellWait; grind [raise_cmds]
@[simp] theorem tellWait_resv : (tellWait s).resv = s.resv := by unfold tellWait; grind [raise_resv]
@[simp] theorem tellWait_hold : (tellWait s).hold = s.hold := by unfold tellWait; grind [raise_hold]
@[simp] theorem tellWait_ptpl : (tellWait s).ptpl = s.ptpl := by unfold tellWait; grind [raise_ptpl]
@[simp] theorem tellWait_orders : (tellWait s).orders = s.orders := by unfold tellWait; grind [raise_orders]
@[simp] theorem tellWait_exts : (tellWait s).exts = s.exts := by unfold tellWait; grind [raise_exts]
@[simp] theorem tellWait_smb : (tellWait s).smb = s.smb := by unfold tellWait; grind [raise_smb]
@[simp] theorem tellWait_hx : (tellWait s).hx = s.hx := by unfold tellWait; grind [raise_hx]
@[simp] theorem tellWait_map : (tellWait s).map = s.map := by unfold tellWait; grind [raise_map]
@[simp] theorem tellWait_media : (tellWait s).media = s.media := by unfold tellWait; grind [raise_media]
@[simp] theorem tellWait_peer : (tellWait s).peer = s.peer := by unfold tellWait; grind [raise_peer]
@[simp] theorem tellWait_braid : (tellWait s).braid = s.braid := by unfold tellWait; grind [raise_braid]
@[simp] theorem tellWait_ps : (tellWait s).ps = s.ps := by unfold tellWait; grind [raise_ps]
@[simp] theorem tellWait_therm : (tellWait s).therm = s.therm := by unfold tellWait; grind [raise_therm]
@[simp] theorem tellWait_rf : (tellWait s).rf = s.rf := by unfold tellWait; grind [raise_rf]
@[simp] theorem tellWait_cleat : (tellWait s).cleat = s.cleat := by unfold tellWait; grind [raise_cleat]
@[simp] theorem tellWait_safe : (tellWait s).safe = s.safe := by unfold tellWait; grind [raise_safe]
@[simp] theorem tellWait_dev : (tellWait s).dev = s.dev := by unfold tellWait; grind [raise_dev]
@[simp] theorem tellWait_aon : (tellWait s).aon = s.aon := by unfold tellWait; grind [raise_aon]
@[simp] theorem tellWait_pins : (tellWait s).pins = s.pins := by unfold tellWait; grind [raise_pins]
@[simp] theorem tellWait_tap : (tellWait s).tap = s.tap := by unfold tellWait; grind [raise_tap]
@[simp] theorem tellWait_pending : (tellWait s).pending = s.pending := by unfold tellWait; grind [raise_pending]
@[simp] theorem tellWait_jrnl : (tellWait s).jrnl = s.jrnl := by unfold tellWait; grind [raise_jrnl]

@[simp] theorem journal_hly (r : JRec) : (journal r s).2.hly = s.hly := by unfold journal; grind [tellWait_hly, writeRec_hly]
@[simp] theorem journal_pwr (r : JRec) : (journal r s).2.pwr = s.pwr := by unfold journal; grind [tellWait_pwr, writeRec_pwr]
@[simp] theorem journal_flush (r : JRec) : (journal r s).2.flush = s.flush := by unfold journal; grind [tellWait_flush, writeRec_flush]
@[simp] theorem journal_cfg (r : JRec) : (journal r s).2.cfg = s.cfg := by unfold journal; grind [tellWait_cfg, writeRec_cfg]
@[simp] theorem journal_boot (r : JRec) : (journal r s).2.boot = s.boot := by unfold journal; grind [tellWait_boot, writeRec_boot]
@[simp] theorem journal_stage (r : JRec) : (journal r s).2.stage = s.stage := by unfold journal; grind [tellWait_stage, writeRec_stage]
@[simp] theorem journal_prm (r : JRec) : (journal r s).2.prm = s.prm := by unfold journal; grind [tellWait_prm, writeRec_prm]
@[simp] theorem journal_cmds (r : JRec) : (journal r s).2.cmds = s.cmds := by unfold journal; grind [tellWait_cmds, writeRec_cmds]
@[simp] theorem journal_resv (r : JRec) : (journal r s).2.resv = s.resv := by unfold journal; grind [tellWait_resv, writeRec_resv]
@[simp] theorem journal_hold (r : JRec) : (journal r s).2.hold = s.hold := by unfold journal; grind [tellWait_hold, writeRec_hold]
@[simp] theorem journal_ptpl (r : JRec) : (journal r s).2.ptpl = s.ptpl := by unfold journal; grind [tellWait_ptpl, writeRec_ptpl]
@[simp] theorem journal_orders (r : JRec) : (journal r s).2.orders = s.orders := by unfold journal; grind [tellWait_orders, writeRec_orders]
@[simp] theorem journal_exts (r : JRec) : (journal r s).2.exts = s.exts := by unfold journal; grind [tellWait_exts, writeRec_exts]
@[simp] theorem journal_smb (r : JRec) : (journal r s).2.smb = s.smb := by unfold journal; grind [tellWait_smb, writeRec_smb]
@[simp] theorem journal_hx (r : JRec) : (journal r s).2.hx = s.hx := by unfold journal; grind [tellWait_hx, writeRec_hx]
@[simp] theorem journal_map (r : JRec) : (journal r s).2.map = s.map := by unfold journal; grind [tellWait_map, writeRec_map]
@[simp] theorem journal_media (r : JRec) : (journal r s).2.media = s.media := by unfold journal; grind [tellWait_media, writeRec_media]
@[simp] theorem journal_peer (r : JRec) : (journal r s).2.peer = s.peer := by unfold journal; grind [tellWait_peer, writeRec_peer]
@[simp] theorem journal_braid (r : JRec) : (journal r s).2.braid = s.braid := by unfold journal; grind [tellWait_braid, writeRec_braid]
@[simp] theorem journal_ps (r : JRec) : (journal r s).2.ps = s.ps := by unfold journal; grind [tellWait_ps, writeRec_ps]
@[simp] theorem journal_therm (r : JRec) : (journal r s).2.therm = s.therm := by unfold journal; grind [tellWait_therm, writeRec_therm]
@[simp] theorem journal_rf (r : JRec) : (journal r s).2.rf = s.rf := by unfold journal; grind [tellWait_rf, writeRec_rf]
@[simp] theorem journal_cleat (r : JRec) : (journal r s).2.cleat = s.cleat := by unfold journal; grind [tellWait_cleat, writeRec_cleat]
@[simp] theorem journal_safe (r : JRec) : (journal r s).2.safe = s.safe := by unfold journal; grind [tellWait_safe, writeRec_safe]
@[simp] theorem journal_dev (r : JRec) : (journal r s).2.dev = s.dev := by unfold journal; grind [tellWait_dev, writeRec_dev]
@[simp] theorem journal_aon (r : JRec) : (journal r s).2.aon = s.aon := by unfold journal; grind [tellWait_aon, writeRec_aon]
@[simp] theorem journal_pins (r : JRec) : (journal r s).2.pins = s.pins := by unfold journal; grind [tellWait_pins, writeRec_pins]
@[simp] theorem journal_tap (r : JRec) : (journal r s).2.tap = s.tap := by unfold journal; grind [tellWait_tap, writeRec_tap]
@[simp] theorem journal_pending (r : JRec) : (journal r s).2.pending = s.pending := by unfold journal; grind [tellWait_pending, writeRec_pending]

@[simp] theorem note_hly (b : JBody) : (note b s).hly = s.hly := by unfold note; grind [journal_hly]
@[simp] theorem note_pwr (b : JBody) : (note b s).pwr = s.pwr := by unfold note; grind [journal_pwr]
@[simp] theorem note_flush (b : JBody) : (note b s).flush = s.flush := by unfold note; grind [journal_flush]
@[simp] theorem note_cfg (b : JBody) : (note b s).cfg = s.cfg := by unfold note; grind [journal_cfg]
@[simp] theorem note_boot (b : JBody) : (note b s).boot = s.boot := by unfold note; grind [journal_boot]
@[simp] theorem note_stage (b : JBody) : (note b s).stage = s.stage := by unfold note; grind [journal_stage]
@[simp] theorem note_prm (b : JBody) : (note b s).prm = s.prm := by unfold note; grind [journal_prm]
@[simp] theorem note_cmds (b : JBody) : (note b s).cmds = s.cmds := by unfold note; grind [journal_cmds]
@[simp] theorem note_resv (b : JBody) : (note b s).resv = s.resv := by unfold note; grind [journal_resv]
@[simp] theorem note_hold (b : JBody) : (note b s).hold = s.hold := by unfold note; grind [journal_hold]
@[simp] theorem note_ptpl (b : JBody) : (note b s).ptpl = s.ptpl := by unfold note; grind [journal_ptpl]
@[simp] theorem note_orders (b : JBody) : (note b s).orders = s.orders := by unfold note; grind [journal_orders]
@[simp] theorem note_exts (b : JBody) : (note b s).exts = s.exts := by unfold note; grind [journal_exts]
@[simp] theorem note_smb (b : JBody) : (note b s).smb = s.smb := by unfold note; grind [journal_smb]
@[simp] theorem note_hx (b : JBody) : (note b s).hx = s.hx := by unfold note; grind [journal_hx]
@[simp] theorem note_map (b : JBody) : (note b s).map = s.map := by unfold note; grind [journal_map]
@[simp] theorem note_media (b : JBody) : (note b s).media = s.media := by unfold note; grind [journal_media]
@[simp] theorem note_peer (b : JBody) : (note b s).peer = s.peer := by unfold note; grind [journal_peer]
@[simp] theorem note_braid (b : JBody) : (note b s).braid = s.braid := by unfold note; grind [journal_braid]
@[simp] theorem note_ps (b : JBody) : (note b s).ps = s.ps := by unfold note; grind [journal_ps]
@[simp] theorem note_therm (b : JBody) : (note b s).therm = s.therm := by unfold note; grind [journal_therm]
@[simp] theorem note_rf (b : JBody) : (note b s).rf = s.rf := by unfold note; grind [journal_rf]
@[simp] theorem note_cleat (b : JBody) : (note b s).cleat = s.cleat := by unfold note; grind [journal_cleat]
@[simp] theorem note_safe (b : JBody) : (note b s).safe = s.safe := by unfold note; grind [journal_safe]
@[simp] theorem note_dev (b : JBody) : (note b s).dev = s.dev := by unfold note; grind [journal_dev]
@[simp] theorem note_aon (b : JBody) : (note b s).aon = s.aon := by unfold note; grind [journal_aon]
@[simp] theorem note_pins (b : JBody) : (note b s).pins = s.pins := by unfold note; grind [journal_pins]
@[simp] theorem note_tap (b : JBody) : (note b s).tap = s.tap := by unfold note; grind [journal_tap]
@[simp] theorem note_pending (b : JBody) : (note b s).pending = s.pending := by unfold note; grind [journal_pending]

@[simp] theorem noteFor_hly (p : Port) (b : JBody) : (noteFor p b s).hly = s.hly := by unfold noteFor; grind [journal_hly]
@[simp] theorem noteFor_pwr (p : Port) (b : JBody) : (noteFor p b s).pwr = s.pwr := by unfold noteFor; grind [journal_pwr]
@[simp] theorem noteFor_flush (p : Port) (b : JBody) : (noteFor p b s).flush = s.flush := by unfold noteFor; grind [journal_flush]
@[simp] theorem noteFor_cfg (p : Port) (b : JBody) : (noteFor p b s).cfg = s.cfg := by unfold noteFor; grind [journal_cfg]
@[simp] theorem noteFor_boot (p : Port) (b : JBody) : (noteFor p b s).boot = s.boot := by unfold noteFor; grind [journal_boot]
@[simp] theorem noteFor_stage (p : Port) (b : JBody) : (noteFor p b s).stage = s.stage := by unfold noteFor; grind [journal_stage]
@[simp] theorem noteFor_prm (p : Port) (b : JBody) : (noteFor p b s).prm = s.prm := by unfold noteFor; grind [journal_prm]
@[simp] theorem noteFor_cmds (p : Port) (b : JBody) : (noteFor p b s).cmds = s.cmds := by unfold noteFor; grind [journal_cmds]
@[simp] theorem noteFor_resv (p : Port) (b : JBody) : (noteFor p b s).resv = s.resv := by unfold noteFor; grind [journal_resv]
@[simp] theorem noteFor_hold (p : Port) (b : JBody) : (noteFor p b s).hold = s.hold := by unfold noteFor; grind [journal_hold]
@[simp] theorem noteFor_ptpl (p : Port) (b : JBody) : (noteFor p b s).ptpl = s.ptpl := by unfold noteFor; grind [journal_ptpl]
@[simp] theorem noteFor_orders (p : Port) (b : JBody) : (noteFor p b s).orders = s.orders := by unfold noteFor; grind [journal_orders]
@[simp] theorem noteFor_exts (p : Port) (b : JBody) : (noteFor p b s).exts = s.exts := by unfold noteFor; grind [journal_exts]
@[simp] theorem noteFor_smb (p : Port) (b : JBody) : (noteFor p b s).smb = s.smb := by unfold noteFor; grind [journal_smb]
@[simp] theorem noteFor_hx (p : Port) (b : JBody) : (noteFor p b s).hx = s.hx := by unfold noteFor; grind [journal_hx]
@[simp] theorem noteFor_map (p : Port) (b : JBody) : (noteFor p b s).map = s.map := by unfold noteFor; grind [journal_map]
@[simp] theorem noteFor_media (p : Port) (b : JBody) : (noteFor p b s).media = s.media := by unfold noteFor; grind [journal_media]
@[simp] theorem noteFor_peer (p : Port) (b : JBody) : (noteFor p b s).peer = s.peer := by unfold noteFor; grind [journal_peer]
@[simp] theorem noteFor_braid (p : Port) (b : JBody) : (noteFor p b s).braid = s.braid := by unfold noteFor; grind [journal_braid]
@[simp] theorem noteFor_ps (p : Port) (b : JBody) : (noteFor p b s).ps = s.ps := by unfold noteFor; grind [journal_ps]
@[simp] theorem noteFor_therm (p : Port) (b : JBody) : (noteFor p b s).therm = s.therm := by unfold noteFor; grind [journal_therm]
@[simp] theorem noteFor_rf (p : Port) (b : JBody) : (noteFor p b s).rf = s.rf := by unfold noteFor; grind [journal_rf]
@[simp] theorem noteFor_cleat (p : Port) (b : JBody) : (noteFor p b s).cleat = s.cleat := by unfold noteFor; grind [journal_cleat]
@[simp] theorem noteFor_safe (p : Port) (b : JBody) : (noteFor p b s).safe = s.safe := by unfold noteFor; grind [journal_safe]
@[simp] theorem noteFor_dev (p : Port) (b : JBody) : (noteFor p b s).dev = s.dev := by unfold noteFor; grind [journal_dev]
@[simp] theorem noteFor_aon (p : Port) (b : JBody) : (noteFor p b s).aon = s.aon := by unfold noteFor; grind [journal_aon]
@[simp] theorem noteFor_pins (p : Port) (b : JBody) : (noteFor p b s).pins = s.pins := by unfold noteFor; grind [journal_pins]
@[simp] theorem noteFor_tap (p : Port) (b : JBody) : (noteFor p b s).tap = s.tap := by unfold noteFor; grind [journal_tap]
@[simp] theorem noteFor_pending (p : Port) (b : JBody) : (noteFor p b s).pending = s.pending := by unfold noteFor; grind [journal_pending]

@[simp] theorem writeWaiting_hly (go : State → Bool) (rs : List JRec) : (writeWaiting go rs s).hly = s.hly := by
  induction rs generalizing s with
  | nil => rfl
  | cons r rs ih => unfold writeWaiting; split <;> simp [ih]
@[simp] theorem writeWaiting_pwr (go : State → Bool) (rs : List JRec) : (writeWaiting go rs s).pwr = s.pwr := by
  induction rs generalizing s with
  | nil => rfl
  | cons r rs ih => unfold writeWaiting; split <;> simp [ih]
@[simp] theorem writeWaiting_flush (go : State → Bool) (rs : List JRec) : (writeWaiting go rs s).flush = s.flush := by
  induction rs generalizing s with
  | nil => rfl
  | cons r rs ih => unfold writeWaiting; split <;> simp [ih]
@[simp] theorem writeWaiting_cfg (go : State → Bool) (rs : List JRec) : (writeWaiting go rs s).cfg = s.cfg := by
  induction rs generalizing s with
  | nil => rfl
  | cons r rs ih => unfold writeWaiting; split <;> simp [ih]
@[simp] theorem writeWaiting_boot (go : State → Bool) (rs : List JRec) : (writeWaiting go rs s).boot = s.boot := by
  induction rs generalizing s with
  | nil => rfl
  | cons r rs ih => unfold writeWaiting; split <;> simp [ih]
@[simp] theorem writeWaiting_stage (go : State → Bool) (rs : List JRec) : (writeWaiting go rs s).stage = s.stage := by
  induction rs generalizing s with
  | nil => rfl
  | cons r rs ih => unfold writeWaiting; split <;> simp [ih]
@[simp] theorem writeWaiting_prm (go : State → Bool) (rs : List JRec) : (writeWaiting go rs s).prm = s.prm := by
  induction rs generalizing s with
  | nil => rfl
  | cons r rs ih => unfold writeWaiting; split <;> simp [ih]
@[simp] theorem writeWaiting_ctl (go : State → Bool) (rs : List JRec) : (writeWaiting go rs s).ctl = s.ctl := by
  induction rs generalizing s with
  | nil => rfl
  | cons r rs ih => unfold writeWaiting; split <;> simp [ih]
@[simp] theorem writeWaiting_cmds (go : State → Bool) (rs : List JRec) : (writeWaiting go rs s).cmds = s.cmds := by
  induction rs generalizing s with
  | nil => rfl
  | cons r rs ih => unfold writeWaiting; split <;> simp [ih]
@[simp] theorem writeWaiting_resv (go : State → Bool) (rs : List JRec) : (writeWaiting go rs s).resv = s.resv := by
  induction rs generalizing s with
  | nil => rfl
  | cons r rs ih => unfold writeWaiting; split <;> simp [ih]
@[simp] theorem writeWaiting_hold (go : State → Bool) (rs : List JRec) : (writeWaiting go rs s).hold = s.hold := by
  induction rs generalizing s with
  | nil => rfl
  | cons r rs ih => unfold writeWaiting; split <;> simp [ih]
@[simp] theorem writeWaiting_ptpl (go : State → Bool) (rs : List JRec) : (writeWaiting go rs s).ptpl = s.ptpl := by
  induction rs generalizing s with
  | nil => rfl
  | cons r rs ih => unfold writeWaiting; split <;> simp [ih]
@[simp] theorem writeWaiting_orders (go : State → Bool) (rs : List JRec) : (writeWaiting go rs s).orders = s.orders := by
  induction rs generalizing s with
  | nil => rfl
  | cons r rs ih => unfold writeWaiting; split <;> simp [ih]
@[simp] theorem writeWaiting_exts (go : State → Bool) (rs : List JRec) : (writeWaiting go rs s).exts = s.exts := by
  induction rs generalizing s with
  | nil => rfl
  | cons r rs ih => unfold writeWaiting; split <;> simp [ih]
@[simp] theorem writeWaiting_smb (go : State → Bool) (rs : List JRec) : (writeWaiting go rs s).smb = s.smb := by
  induction rs generalizing s with
  | nil => rfl
  | cons r rs ih => unfold writeWaiting; split <;> simp [ih]
@[simp] theorem writeWaiting_hx (go : State → Bool) (rs : List JRec) : (writeWaiting go rs s).hx = s.hx := by
  induction rs generalizing s with
  | nil => rfl
  | cons r rs ih => unfold writeWaiting; split <;> simp [ih]
@[simp] theorem writeWaiting_map (go : State → Bool) (rs : List JRec) : (writeWaiting go rs s).map = s.map := by
  induction rs generalizing s with
  | nil => rfl
  | cons r rs ih => unfold writeWaiting; split <;> simp [ih]
@[simp] theorem writeWaiting_media (go : State → Bool) (rs : List JRec) : (writeWaiting go rs s).media = s.media := by
  induction rs generalizing s with
  | nil => rfl
  | cons r rs ih => unfold writeWaiting; split <;> simp [ih]
@[simp] theorem writeWaiting_peer (go : State → Bool) (rs : List JRec) : (writeWaiting go rs s).peer = s.peer := by
  induction rs generalizing s with
  | nil => rfl
  | cons r rs ih => unfold writeWaiting; split <;> simp [ih]
@[simp] theorem writeWaiting_braid (go : State → Bool) (rs : List JRec) : (writeWaiting go rs s).braid = s.braid := by
  induction rs generalizing s with
  | nil => rfl
  | cons r rs ih => unfold writeWaiting; split <;> simp [ih]
@[simp] theorem writeWaiting_ps (go : State → Bool) (rs : List JRec) : (writeWaiting go rs s).ps = s.ps := by
  induction rs generalizing s with
  | nil => rfl
  | cons r rs ih => unfold writeWaiting; split <;> simp [ih]
@[simp] theorem writeWaiting_therm (go : State → Bool) (rs : List JRec) : (writeWaiting go rs s).therm = s.therm := by
  induction rs generalizing s with
  | nil => rfl
  | cons r rs ih => unfold writeWaiting; split <;> simp [ih]
@[simp] theorem writeWaiting_rf (go : State → Bool) (rs : List JRec) : (writeWaiting go rs s).rf = s.rf := by
  induction rs generalizing s with
  | nil => rfl
  | cons r rs ih => unfold writeWaiting; split <;> simp [ih]
@[simp] theorem writeWaiting_cleat (go : State → Bool) (rs : List JRec) : (writeWaiting go rs s).cleat = s.cleat := by
  induction rs generalizing s with
  | nil => rfl
  | cons r rs ih => unfold writeWaiting; split <;> simp [ih]
@[simp] theorem writeWaiting_safe (go : State → Bool) (rs : List JRec) : (writeWaiting go rs s).safe = s.safe := by
  induction rs generalizing s with
  | nil => rfl
  | cons r rs ih => unfold writeWaiting; split <;> simp [ih]
@[simp] theorem writeWaiting_evt (go : State → Bool) (rs : List JRec) : (writeWaiting go rs s).evt = s.evt := by
  induction rs generalizing s with
  | nil => rfl
  | cons r rs ih => unfold writeWaiting; split <;> simp [ih]
@[simp] theorem writeWaiting_dev (go : State → Bool) (rs : List JRec) : (writeWaiting go rs s).dev = s.dev := by
  induction rs generalizing s with
  | nil => rfl
  | cons r rs ih => unfold writeWaiting; split <;> simp [ih]
@[simp] theorem writeWaiting_aon (go : State → Bool) (rs : List JRec) : (writeWaiting go rs s).aon = s.aon := by
  induction rs generalizing s with
  | nil => rfl
  | cons r rs ih => unfold writeWaiting; split <;> simp [ih]
@[simp] theorem writeWaiting_pins (go : State → Bool) (rs : List JRec) : (writeWaiting go rs s).pins = s.pins := by
  induction rs generalizing s with
  | nil => rfl
  | cons r rs ih => unfold writeWaiting; split <;> simp [ih]
@[simp] theorem writeWaiting_tap (go : State → Bool) (rs : List JRec) : (writeWaiting go rs s).tap = s.tap := by
  induction rs generalizing s with
  | nil => rfl
  | cons r rs ih => unfold writeWaiting; split <;> simp [ih]
@[simp] theorem writeWaiting_out (go : State → Bool) (rs : List JRec) : (writeWaiting go rs s).out = s.out := by
  induction rs generalizing s with
  | nil => rfl
  | cons r rs ih => unfold writeWaiting; split <;> simp [ih]
@[simp] theorem writeWaiting_fresh (go : State → Bool) (rs : List JRec) : (writeWaiting go rs s).fresh = s.fresh := by
  induction rs generalizing s with
  | nil => rfl
  | cons r rs ih => unfold writeWaiting; split <;> simp [ih]
@[simp] theorem writeWaiting_pending (go : State → Bool) (rs : List JRec) : (writeWaiting go rs s).pending = s.pending := by
  induction rs generalizing s with
  | nil => rfl
  | cons r rs ih => unfold writeWaiting; split <;> simp [ih]

@[simp] theorem releaseWaiting_hly : (releaseWaiting s).hly = s.hly := by unfold releaseWaiting; grind [tellWait_hly, writeWaiting_hly]
@[simp] theorem releaseWaiting_pwr : (releaseWaiting s).pwr = s.pwr := by unfold releaseWaiting; grind [tellWait_pwr, writeWaiting_pwr]
@[simp] theorem releaseWaiting_flush : (releaseWaiting s).flush = s.flush := by unfold releaseWaiting; grind [tellWait_flush, writeWaiting_flush]
@[simp] theorem releaseWaiting_cfg : (releaseWaiting s).cfg = s.cfg := by unfold releaseWaiting; grind [tellWait_cfg, writeWaiting_cfg]
@[simp] theorem releaseWaiting_boot : (releaseWaiting s).boot = s.boot := by unfold releaseWaiting; grind [tellWait_boot, writeWaiting_boot]
@[simp] theorem releaseWaiting_stage : (releaseWaiting s).stage = s.stage := by unfold releaseWaiting; grind [tellWait_stage, writeWaiting_stage]
@[simp] theorem releaseWaiting_prm : (releaseWaiting s).prm = s.prm := by unfold releaseWaiting; grind [tellWait_prm, writeWaiting_prm]
@[simp] theorem releaseWaiting_cmds : (releaseWaiting s).cmds = s.cmds := by unfold releaseWaiting; grind [tellWait_cmds, writeWaiting_cmds]
@[simp] theorem releaseWaiting_resv : (releaseWaiting s).resv = s.resv := by unfold releaseWaiting; grind [tellWait_resv, writeWaiting_resv]
@[simp] theorem releaseWaiting_hold : (releaseWaiting s).hold = s.hold := by unfold releaseWaiting; grind [tellWait_hold, writeWaiting_hold]
@[simp] theorem releaseWaiting_ptpl : (releaseWaiting s).ptpl = s.ptpl := by unfold releaseWaiting; grind [tellWait_ptpl, writeWaiting_ptpl]
@[simp] theorem releaseWaiting_orders : (releaseWaiting s).orders = s.orders := by unfold releaseWaiting; grind [tellWait_orders, writeWaiting_orders]
@[simp] theorem releaseWaiting_exts : (releaseWaiting s).exts = s.exts := by unfold releaseWaiting; grind [tellWait_exts, writeWaiting_exts]
@[simp] theorem releaseWaiting_smb : (releaseWaiting s).smb = s.smb := by unfold releaseWaiting; grind [tellWait_smb, writeWaiting_smb]
@[simp] theorem releaseWaiting_hx : (releaseWaiting s).hx = s.hx := by unfold releaseWaiting; grind [tellWait_hx, writeWaiting_hx]
@[simp] theorem releaseWaiting_map : (releaseWaiting s).map = s.map := by unfold releaseWaiting; grind [tellWait_map, writeWaiting_map]
@[simp] theorem releaseWaiting_media : (releaseWaiting s).media = s.media := by unfold releaseWaiting; grind [tellWait_media, writeWaiting_media]
@[simp] theorem releaseWaiting_peer : (releaseWaiting s).peer = s.peer := by unfold releaseWaiting; grind [tellWait_peer, writeWaiting_peer]
@[simp] theorem releaseWaiting_braid : (releaseWaiting s).braid = s.braid := by unfold releaseWaiting; grind [tellWait_braid, writeWaiting_braid]
@[simp] theorem releaseWaiting_ps : (releaseWaiting s).ps = s.ps := by unfold releaseWaiting; grind [tellWait_ps, writeWaiting_ps]
@[simp] theorem releaseWaiting_therm : (releaseWaiting s).therm = s.therm := by unfold releaseWaiting; grind [tellWait_therm, writeWaiting_therm]
@[simp] theorem releaseWaiting_rf : (releaseWaiting s).rf = s.rf := by unfold releaseWaiting; grind [tellWait_rf, writeWaiting_rf]
@[simp] theorem releaseWaiting_cleat : (releaseWaiting s).cleat = s.cleat := by unfold releaseWaiting; grind [tellWait_cleat, writeWaiting_cleat]
@[simp] theorem releaseWaiting_safe : (releaseWaiting s).safe = s.safe := by unfold releaseWaiting; grind [tellWait_safe, writeWaiting_safe]
@[simp] theorem releaseWaiting_dev : (releaseWaiting s).dev = s.dev := by unfold releaseWaiting; grind [tellWait_dev, writeWaiting_dev]
@[simp] theorem releaseWaiting_aon : (releaseWaiting s).aon = s.aon := by unfold releaseWaiting; grind [tellWait_aon, writeWaiting_aon]
@[simp] theorem releaseWaiting_pins : (releaseWaiting s).pins = s.pins := by unfold releaseWaiting; grind [tellWait_pins, writeWaiting_pins]
@[simp] theorem releaseWaiting_tap : (releaseWaiting s).tap = s.tap := by unfold releaseWaiting; grind [tellWait_tap, writeWaiting_tap]
@[simp] theorem releaseWaiting_pending : (releaseWaiting s).pending = s.pending := by unfold releaseWaiting; grind [tellWait_pending, writeWaiting_pending]

@[simp] theorem startJobs_hly (n : Nat) : (startJobs n s).hly = s.hly := by
  induction n generalizing s with
  | zero => rfl
  | succ n ih => unfold startJobs; split <;> simp [ih]
@[simp] theorem startJobs_pwr (n : Nat) : (startJobs n s).pwr = s.pwr := by
  induction n generalizing s with
  | zero => rfl
  | succ n ih => unfold startJobs; split <;> simp [ih]
@[simp] theorem startJobs_flush (n : Nat) : (startJobs n s).flush = s.flush := by
  induction n generalizing s with
  | zero => rfl
  | succ n ih => unfold startJobs; split <;> simp [ih]
@[simp] theorem startJobs_cfg (n : Nat) : (startJobs n s).cfg = s.cfg := by
  induction n generalizing s with
  | zero => rfl
  | succ n ih => unfold startJobs; split <;> simp [ih]
@[simp] theorem startJobs_boot (n : Nat) : (startJobs n s).boot = s.boot := by
  induction n generalizing s with
  | zero => rfl
  | succ n ih => unfold startJobs; split <;> simp [ih]
@[simp] theorem startJobs_stage (n : Nat) : (startJobs n s).stage = s.stage := by
  induction n generalizing s with
  | zero => rfl
  | succ n ih => unfold startJobs; split <;> simp [ih]
@[simp] theorem startJobs_prm (n : Nat) : (startJobs n s).prm = s.prm := by
  induction n generalizing s with
  | zero => rfl
  | succ n ih => unfold startJobs; split <;> simp [ih]
@[simp] theorem startJobs_ctl (n : Nat) : (startJobs n s).ctl = s.ctl := by
  induction n generalizing s with
  | zero => rfl
  | succ n ih => unfold startJobs; split <;> simp [ih]
@[simp] theorem startJobs_cmds (n : Nat) : (startJobs n s).cmds = s.cmds := by
  induction n generalizing s with
  | zero => rfl
  | succ n ih => unfold startJobs; split <;> simp [ih]
@[simp] theorem startJobs_resv (n : Nat) : (startJobs n s).resv = s.resv := by
  induction n generalizing s with
  | zero => rfl
  | succ n ih => unfold startJobs; split <;> simp [ih]
@[simp] theorem startJobs_hold (n : Nat) : (startJobs n s).hold = s.hold := by
  induction n generalizing s with
  | zero => rfl
  | succ n ih => unfold startJobs; split <;> simp [ih]
@[simp] theorem startJobs_ptpl (n : Nat) : (startJobs n s).ptpl = s.ptpl := by
  induction n generalizing s with
  | zero => rfl
  | succ n ih => unfold startJobs; split <;> simp [ih]
@[simp] theorem startJobs_orders (n : Nat) : (startJobs n s).orders = s.orders := by
  induction n generalizing s with
  | zero => rfl
  | succ n ih => unfold startJobs; split <;> simp [ih]
@[simp] theorem startJobs_exts (n : Nat) : (startJobs n s).exts = s.exts := by
  induction n generalizing s with
  | zero => rfl
  | succ n ih => unfold startJobs; split <;> simp [ih]
@[simp] theorem startJobs_smb (n : Nat) : (startJobs n s).smb = s.smb := by
  induction n generalizing s with
  | zero => rfl
  | succ n ih => unfold startJobs; split <;> simp [ih]
@[simp] theorem startJobs_hx (n : Nat) : (startJobs n s).hx = s.hx := by
  induction n generalizing s with
  | zero => rfl
  | succ n ih => unfold startJobs; split <;> simp [ih]
@[simp] theorem startJobs_jrnl (n : Nat) : (startJobs n s).jrnl = s.jrnl := by
  induction n generalizing s with
  | zero => rfl
  | succ n ih => unfold startJobs; split <;> simp [ih]
@[simp] theorem startJobs_map (n : Nat) : (startJobs n s).map = s.map := by
  induction n generalizing s with
  | zero => rfl
  | succ n ih => unfold startJobs; split <;> simp [ih]
@[simp] theorem startJobs_media (n : Nat) : (startJobs n s).media = s.media := by
  induction n generalizing s with
  | zero => rfl
  | succ n ih => unfold startJobs; split <;> simp [ih]
@[simp] theorem startJobs_peer (n : Nat) : (startJobs n s).peer = s.peer := by
  induction n generalizing s with
  | zero => rfl
  | succ n ih => unfold startJobs; split <;> simp [ih]
@[simp] theorem startJobs_braid (n : Nat) : (startJobs n s).braid = s.braid := by
  induction n generalizing s with
  | zero => rfl
  | succ n ih => unfold startJobs; split <;> simp [ih]
@[simp] theorem startJobs_ps (n : Nat) : (startJobs n s).ps = s.ps := by
  induction n generalizing s with
  | zero => rfl
  | succ n ih => unfold startJobs; split <;> simp [ih]
@[simp] theorem startJobs_therm (n : Nat) : (startJobs n s).therm = s.therm := by
  induction n generalizing s with
  | zero => rfl
  | succ n ih => unfold startJobs; split <;> simp [ih]
@[simp] theorem startJobs_cleat (n : Nat) : (startJobs n s).cleat = s.cleat := by
  induction n generalizing s with
  | zero => rfl
  | succ n ih => unfold startJobs; split <;> simp [ih]
@[simp] theorem startJobs_safe (n : Nat) : (startJobs n s).safe = s.safe := by
  induction n generalizing s with
  | zero => rfl
  | succ n ih => unfold startJobs; split <;> simp [ih]
@[simp] theorem startJobs_evt (n : Nat) : (startJobs n s).evt = s.evt := by
  induction n generalizing s with
  | zero => rfl
  | succ n ih => unfold startJobs; split <;> simp [ih]
@[simp] theorem startJobs_dev (n : Nat) : (startJobs n s).dev = s.dev := by
  induction n generalizing s with
  | zero => rfl
  | succ n ih => unfold startJobs; split <;> simp [ih]
@[simp] theorem startJobs_aon (n : Nat) : (startJobs n s).aon = s.aon := by
  induction n generalizing s with
  | zero => rfl
  | succ n ih => unfold startJobs; split <;> simp [ih]
@[simp] theorem startJobs_pins (n : Nat) : (startJobs n s).pins = s.pins := by
  induction n generalizing s with
  | zero => rfl
  | succ n ih => unfold startJobs; split <;> simp [ih]
@[simp] theorem startJobs_tap (n : Nat) : (startJobs n s).tap = s.tap := by
  induction n generalizing s with
  | zero => rfl
  | succ n ih => unfold startJobs; split <;> simp [ih]
@[simp] theorem startJobs_out (n : Nat) : (startJobs n s).out = s.out := by
  induction n generalizing s with
  | zero => rfl
  | succ n ih => unfold startJobs; split <;> simp [ih]
@[simp] theorem startJobs_fresh (n : Nat) : (startJobs n s).fresh = s.fresh := by
  induction n generalizing s with
  | zero => rfl
  | succ n ih => unfold startJobs; split <;> simp [ih]
@[simp] theorem startJobs_pending (n : Nat) : (startJobs n s).pending = s.pending := by
  induction n generalizing s with
  | zero => rfl
  | succ n ih => unfold startJobs; split <;> simp [ih]

@[simp] theorem flashJob_hly (j : FlashJob) : (flashJob j s).hly = s.hly := by unfold flashJob; simp [startJobs_hly]
@[simp] theorem flashJob_pwr (j : FlashJob) : (flashJob j s).pwr = s.pwr := by unfold flashJob; simp [startJobs_pwr]
@[simp] theorem flashJob_flush (j : FlashJob) : (flashJob j s).flush = s.flush := by unfold flashJob; simp [startJobs_flush]
@[simp] theorem flashJob_cfg (j : FlashJob) : (flashJob j s).cfg = s.cfg := by unfold flashJob; simp [startJobs_cfg]
@[simp] theorem flashJob_boot (j : FlashJob) : (flashJob j s).boot = s.boot := by unfold flashJob; simp [startJobs_boot]
@[simp] theorem flashJob_stage (j : FlashJob) : (flashJob j s).stage = s.stage := by unfold flashJob; simp [startJobs_stage]
@[simp] theorem flashJob_prm (j : FlashJob) : (flashJob j s).prm = s.prm := by unfold flashJob; simp [startJobs_prm]
@[simp] theorem flashJob_ctl (j : FlashJob) : (flashJob j s).ctl = s.ctl := by unfold flashJob; simp [startJobs_ctl]
@[simp] theorem flashJob_cmds (j : FlashJob) : (flashJob j s).cmds = s.cmds := by unfold flashJob; simp [startJobs_cmds]
@[simp] theorem flashJob_resv (j : FlashJob) : (flashJob j s).resv = s.resv := by unfold flashJob; simp [startJobs_resv]
@[simp] theorem flashJob_hold (j : FlashJob) : (flashJob j s).hold = s.hold := by unfold flashJob; simp [startJobs_hold]
@[simp] theorem flashJob_ptpl (j : FlashJob) : (flashJob j s).ptpl = s.ptpl := by unfold flashJob; simp [startJobs_ptpl]
@[simp] theorem flashJob_orders (j : FlashJob) : (flashJob j s).orders = s.orders := by unfold flashJob; simp [startJobs_orders]
@[simp] theorem flashJob_exts (j : FlashJob) : (flashJob j s).exts = s.exts := by unfold flashJob; simp [startJobs_exts]
@[simp] theorem flashJob_smb (j : FlashJob) : (flashJob j s).smb = s.smb := by unfold flashJob; simp [startJobs_smb]
@[simp] theorem flashJob_hx (j : FlashJob) : (flashJob j s).hx = s.hx := by unfold flashJob; simp [startJobs_hx]
@[simp] theorem flashJob_jrnl (j : FlashJob) : (flashJob j s).jrnl = s.jrnl := by unfold flashJob; simp [startJobs_jrnl]
@[simp] theorem flashJob_map (j : FlashJob) : (flashJob j s).map = s.map := by unfold flashJob; simp [startJobs_map]
@[simp] theorem flashJob_media (j : FlashJob) : (flashJob j s).media = s.media := by unfold flashJob; simp [startJobs_media]
@[simp] theorem flashJob_peer (j : FlashJob) : (flashJob j s).peer = s.peer := by unfold flashJob; simp [startJobs_peer]
@[simp] theorem flashJob_braid (j : FlashJob) : (flashJob j s).braid = s.braid := by unfold flashJob; simp [startJobs_braid]
@[simp] theorem flashJob_ps (j : FlashJob) : (flashJob j s).ps = s.ps := by unfold flashJob; simp [startJobs_ps]
@[simp] theorem flashJob_therm (j : FlashJob) : (flashJob j s).therm = s.therm := by unfold flashJob; simp [startJobs_therm]
@[simp] theorem flashJob_cleat (j : FlashJob) : (flashJob j s).cleat = s.cleat := by unfold flashJob; simp [startJobs_cleat]
@[simp] theorem flashJob_safe (j : FlashJob) : (flashJob j s).safe = s.safe := by unfold flashJob; simp [startJobs_safe]
@[simp] theorem flashJob_evt (j : FlashJob) : (flashJob j s).evt = s.evt := by unfold flashJob; simp [startJobs_evt]
@[simp] theorem flashJob_dev (j : FlashJob) : (flashJob j s).dev = s.dev := by unfold flashJob; simp [startJobs_dev]
@[simp] theorem flashJob_aon (j : FlashJob) : (flashJob j s).aon = s.aon := by unfold flashJob; simp [startJobs_aon]
@[simp] theorem flashJob_pins (j : FlashJob) : (flashJob j s).pins = s.pins := by unfold flashJob; simp [startJobs_pins]
@[simp] theorem flashJob_tap (j : FlashJob) : (flashJob j s).tap = s.tap := by unfold flashJob; simp [startJobs_tap]
@[simp] theorem flashJob_out (j : FlashJob) : (flashJob j s).out = s.out := by unfold flashJob; simp [startJobs_out]
@[simp] theorem flashJob_fresh (j : FlashJob) : (flashJob j s).fresh = s.fresh := by unfold flashJob; simp [startJobs_fresh]
@[simp] theorem flashJob_pending (j : FlashJob) : (flashJob j s).pending = s.pending := by unfold flashJob; simp [startJobs_pending]

@[simp] theorem flashBoth_hly (w : FlashWhat) : (flashBoth w s).hly = s.hly := by unfold flashBoth; grind [flashJob_hly]
@[simp] theorem flashBoth_pwr (w : FlashWhat) : (flashBoth w s).pwr = s.pwr := by unfold flashBoth; grind [flashJob_pwr]
@[simp] theorem flashBoth_flush (w : FlashWhat) : (flashBoth w s).flush = s.flush := by unfold flashBoth; grind [flashJob_flush]
@[simp] theorem flashBoth_cfg (w : FlashWhat) : (flashBoth w s).cfg = s.cfg := by unfold flashBoth; grind [flashJob_cfg]
@[simp] theorem flashBoth_boot (w : FlashWhat) : (flashBoth w s).boot = s.boot := by unfold flashBoth; grind [flashJob_boot]
@[simp] theorem flashBoth_stage (w : FlashWhat) : (flashBoth w s).stage = s.stage := by unfold flashBoth; grind [flashJob_stage]
@[simp] theorem flashBoth_prm (w : FlashWhat) : (flashBoth w s).prm = s.prm := by unfold flashBoth; grind [flashJob_prm]
@[simp] theorem flashBoth_ctl (w : FlashWhat) : (flashBoth w s).ctl = s.ctl := by unfold flashBoth; grind [flashJob_ctl]
@[simp] theorem flashBoth_cmds (w : FlashWhat) : (flashBoth w s).cmds = s.cmds := by unfold flashBoth; grind [flashJob_cmds]
@[simp] theorem flashBoth_resv (w : FlashWhat) : (flashBoth w s).resv = s.resv := by unfold flashBoth; grind [flashJob_resv]
@[simp] theorem flashBoth_hold (w : FlashWhat) : (flashBoth w s).hold = s.hold := by unfold flashBoth; grind [flashJob_hold]
@[simp] theorem flashBoth_ptpl (w : FlashWhat) : (flashBoth w s).ptpl = s.ptpl := by unfold flashBoth; grind [flashJob_ptpl]
@[simp] theorem flashBoth_orders (w : FlashWhat) : (flashBoth w s).orders = s.orders := by unfold flashBoth; grind [flashJob_orders]
@[simp] theorem flashBoth_exts (w : FlashWhat) : (flashBoth w s).exts = s.exts := by unfold flashBoth; grind [flashJob_exts]
@[simp] theorem flashBoth_smb (w : FlashWhat) : (flashBoth w s).smb = s.smb := by unfold flashBoth; grind [flashJob_smb]
@[simp] theorem flashBoth_hx (w : FlashWhat) : (flashBoth w s).hx = s.hx := by unfold flashBoth; grind [flashJob_hx]
@[simp] theorem flashBoth_jrnl (w : FlashWhat) : (flashBoth w s).jrnl = s.jrnl := by unfold flashBoth; grind [flashJob_jrnl]
@[simp] theorem flashBoth_map (w : FlashWhat) : (flashBoth w s).map = s.map := by unfold flashBoth; grind [flashJob_map]
@[simp] theorem flashBoth_media (w : FlashWhat) : (flashBoth w s).media = s.media := by unfold flashBoth; grind [flashJob_media]
@[simp] theorem flashBoth_peer (w : FlashWhat) : (flashBoth w s).peer = s.peer := by unfold flashBoth; grind [flashJob_peer]
@[simp] theorem flashBoth_braid (w : FlashWhat) : (flashBoth w s).braid = s.braid := by unfold flashBoth; grind [flashJob_braid]
@[simp] theorem flashBoth_ps (w : FlashWhat) : (flashBoth w s).ps = s.ps := by unfold flashBoth; grind [flashJob_ps]
@[simp] theorem flashBoth_therm (w : FlashWhat) : (flashBoth w s).therm = s.therm := by unfold flashBoth; grind [flashJob_therm]
@[simp] theorem flashBoth_cleat (w : FlashWhat) : (flashBoth w s).cleat = s.cleat := by unfold flashBoth; grind [flashJob_cleat]
@[simp] theorem flashBoth_safe (w : FlashWhat) : (flashBoth w s).safe = s.safe := by unfold flashBoth; grind [flashJob_safe]
@[simp] theorem flashBoth_evt (w : FlashWhat) : (flashBoth w s).evt = s.evt := by unfold flashBoth; grind [flashJob_evt]
@[simp] theorem flashBoth_dev (w : FlashWhat) : (flashBoth w s).dev = s.dev := by unfold flashBoth; grind [flashJob_dev]
@[simp] theorem flashBoth_aon (w : FlashWhat) : (flashBoth w s).aon = s.aon := by unfold flashBoth; grind [flashJob_aon]
@[simp] theorem flashBoth_pins (w : FlashWhat) : (flashBoth w s).pins = s.pins := by unfold flashBoth; grind [flashJob_pins]
@[simp] theorem flashBoth_tap (w : FlashWhat) : (flashBoth w s).tap = s.tap := by unfold flashBoth; grind [flashJob_tap]
@[simp] theorem flashBoth_out (w : FlashWhat) : (flashBoth w s).out = s.out := by unfold flashBoth; grind [flashJob_out]
@[simp] theorem flashBoth_fresh (w : FlashWhat) : (flashBoth w s).fresh = s.fresh := by unfold flashBoth; grind [flashJob_fresh]
@[simp] theorem flashBoth_pending (w : FlashWhat) : (flashBoth w s).pending = s.pending := by unfold flashBoth; grind [flashJob_pending]

@[simp] theorem flashUrgent_hly (j : FlashJob) : (flashUrgent j s).hly = s.hly := by unfold flashUrgent; simp [startJobs_hly]
@[simp] theorem flashUrgent_pwr (j : FlashJob) : (flashUrgent j s).pwr = s.pwr := by unfold flashUrgent; simp [startJobs_pwr]
@[simp] theorem flashUrgent_flush (j : FlashJob) : (flashUrgent j s).flush = s.flush := by unfold flashUrgent; simp [startJobs_flush]
@[simp] theorem flashUrgent_cfg (j : FlashJob) : (flashUrgent j s).cfg = s.cfg := by unfold flashUrgent; simp [startJobs_cfg]
@[simp] theorem flashUrgent_boot (j : FlashJob) : (flashUrgent j s).boot = s.boot := by unfold flashUrgent; simp [startJobs_boot]
@[simp] theorem flashUrgent_stage (j : FlashJob) : (flashUrgent j s).stage = s.stage := by unfold flashUrgent; simp [startJobs_stage]
@[simp] theorem flashUrgent_prm (j : FlashJob) : (flashUrgent j s).prm = s.prm := by unfold flashUrgent; simp [startJobs_prm]
@[simp] theorem flashUrgent_ctl (j : FlashJob) : (flashUrgent j s).ctl = s.ctl := by unfold flashUrgent; simp [startJobs_ctl]
@[simp] theorem flashUrgent_cmds (j : FlashJob) : (flashUrgent j s).cmds = s.cmds := by unfold flashUrgent; simp [startJobs_cmds]
@[simp] theorem flashUrgent_resv (j : FlashJob) : (flashUrgent j s).resv = s.resv := by unfold flashUrgent; simp [startJobs_resv]
@[simp] theorem flashUrgent_hold (j : FlashJob) : (flashUrgent j s).hold = s.hold := by unfold flashUrgent; simp [startJobs_hold]
@[simp] theorem flashUrgent_ptpl (j : FlashJob) : (flashUrgent j s).ptpl = s.ptpl := by unfold flashUrgent; simp [startJobs_ptpl]
@[simp] theorem flashUrgent_orders (j : FlashJob) : (flashUrgent j s).orders = s.orders := by unfold flashUrgent; simp [startJobs_orders]
@[simp] theorem flashUrgent_exts (j : FlashJob) : (flashUrgent j s).exts = s.exts := by unfold flashUrgent; simp [startJobs_exts]
@[simp] theorem flashUrgent_smb (j : FlashJob) : (flashUrgent j s).smb = s.smb := by unfold flashUrgent; simp [startJobs_smb]
@[simp] theorem flashUrgent_hx (j : FlashJob) : (flashUrgent j s).hx = s.hx := by unfold flashUrgent; simp [startJobs_hx]
@[simp] theorem flashUrgent_jrnl (j : FlashJob) : (flashUrgent j s).jrnl = s.jrnl := by unfold flashUrgent; simp [startJobs_jrnl]
@[simp] theorem flashUrgent_map (j : FlashJob) : (flashUrgent j s).map = s.map := by unfold flashUrgent; simp [startJobs_map]
@[simp] theorem flashUrgent_media (j : FlashJob) : (flashUrgent j s).media = s.media := by unfold flashUrgent; simp [startJobs_media]
@[simp] theorem flashUrgent_peer (j : FlashJob) : (flashUrgent j s).peer = s.peer := by unfold flashUrgent; simp [startJobs_peer]
@[simp] theorem flashUrgent_braid (j : FlashJob) : (flashUrgent j s).braid = s.braid := by unfold flashUrgent; simp [startJobs_braid]
@[simp] theorem flashUrgent_ps (j : FlashJob) : (flashUrgent j s).ps = s.ps := by unfold flashUrgent; simp [startJobs_ps]
@[simp] theorem flashUrgent_therm (j : FlashJob) : (flashUrgent j s).therm = s.therm := by unfold flashUrgent; simp [startJobs_therm]
@[simp] theorem flashUrgent_cleat (j : FlashJob) : (flashUrgent j s).cleat = s.cleat := by unfold flashUrgent; simp [startJobs_cleat]
@[simp] theorem flashUrgent_safe (j : FlashJob) : (flashUrgent j s).safe = s.safe := by unfold flashUrgent; simp [startJobs_safe]
@[simp] theorem flashUrgent_evt (j : FlashJob) : (flashUrgent j s).evt = s.evt := by unfold flashUrgent; simp [startJobs_evt]
@[simp] theorem flashUrgent_dev (j : FlashJob) : (flashUrgent j s).dev = s.dev := by unfold flashUrgent; simp [startJobs_dev]
@[simp] theorem flashUrgent_aon (j : FlashJob) : (flashUrgent j s).aon = s.aon := by unfold flashUrgent; simp [startJobs_aon]
@[simp] theorem flashUrgent_pins (j : FlashJob) : (flashUrgent j s).pins = s.pins := by unfold flashUrgent; simp [startJobs_pins]
@[simp] theorem flashUrgent_tap (j : FlashJob) : (flashUrgent j s).tap = s.tap := by unfold flashUrgent; simp [startJobs_tap]
@[simp] theorem flashUrgent_out (j : FlashJob) : (flashUrgent j s).out = s.out := by unfold flashUrgent; simp [startJobs_out]
@[simp] theorem flashUrgent_fresh (j : FlashJob) : (flashUrgent j s).fresh = s.fresh := by unfold flashUrgent; simp [startJobs_fresh]
@[simp] theorem flashUrgent_pending (j : FlashJob) : (flashUrgent j s).pending = s.pending := by unfold flashUrgent; simp [startJobs_pending]

@[simp] theorem setPort_hly (p : Port) (f : PeerPort → PeerPort) : (setPort p f s).hly = s.hly := rfl
@[simp] theorem setPort_pwr (p : Port) (f : PeerPort → PeerPort) : (setPort p f s).pwr = s.pwr := rfl
@[simp] theorem setPort_flush (p : Port) (f : PeerPort → PeerPort) : (setPort p f s).flush = s.flush := rfl
@[simp] theorem setPort_cfg (p : Port) (f : PeerPort → PeerPort) : (setPort p f s).cfg = s.cfg := rfl
@[simp] theorem setPort_boot (p : Port) (f : PeerPort → PeerPort) : (setPort p f s).boot = s.boot := rfl
@[simp] theorem setPort_stage (p : Port) (f : PeerPort → PeerPort) : (setPort p f s).stage = s.stage := rfl
@[simp] theorem setPort_prm (p : Port) (f : PeerPort → PeerPort) : (setPort p f s).prm = s.prm := rfl
@[simp] theorem setPort_ctl (p : Port) (f : PeerPort → PeerPort) : (setPort p f s).ctl = s.ctl := rfl
@[simp] theorem setPort_cmds (p : Port) (f : PeerPort → PeerPort) : (setPort p f s).cmds = s.cmds := rfl
@[simp] theorem setPort_resv (p : Port) (f : PeerPort → PeerPort) : (setPort p f s).resv = s.resv := rfl
@[simp] theorem setPort_hold (p : Port) (f : PeerPort → PeerPort) : (setPort p f s).hold = s.hold := rfl
@[simp] theorem setPort_ptpl (p : Port) (f : PeerPort → PeerPort) : (setPort p f s).ptpl = s.ptpl := rfl
@[simp] theorem setPort_orders (p : Port) (f : PeerPort → PeerPort) : (setPort p f s).orders = s.orders := rfl
@[simp] theorem setPort_exts (p : Port) (f : PeerPort → PeerPort) : (setPort p f s).exts = s.exts := rfl
@[simp] theorem setPort_smb (p : Port) (f : PeerPort → PeerPort) : (setPort p f s).smb = s.smb := rfl
@[simp] theorem setPort_hx (p : Port) (f : PeerPort → PeerPort) : (setPort p f s).hx = s.hx := rfl
@[simp] theorem setPort_jrnl (p : Port) (f : PeerPort → PeerPort) : (setPort p f s).jrnl = s.jrnl := rfl
@[simp] theorem setPort_map (p : Port) (f : PeerPort → PeerPort) : (setPort p f s).map = s.map := rfl
@[simp] theorem setPort_media (p : Port) (f : PeerPort → PeerPort) : (setPort p f s).media = s.media := rfl
@[simp] theorem setPort_braid (p : Port) (f : PeerPort → PeerPort) : (setPort p f s).braid = s.braid := rfl
@[simp] theorem setPort_ps (p : Port) (f : PeerPort → PeerPort) : (setPort p f s).ps = s.ps := rfl
@[simp] theorem setPort_therm (p : Port) (f : PeerPort → PeerPort) : (setPort p f s).therm = s.therm := rfl
@[simp] theorem setPort_rf (p : Port) (f : PeerPort → PeerPort) : (setPort p f s).rf = s.rf := rfl
@[simp] theorem setPort_cleat (p : Port) (f : PeerPort → PeerPort) : (setPort p f s).cleat = s.cleat := rfl
@[simp] theorem setPort_safe (p : Port) (f : PeerPort → PeerPort) : (setPort p f s).safe = s.safe := rfl
@[simp] theorem setPort_evt (p : Port) (f : PeerPort → PeerPort) : (setPort p f s).evt = s.evt := rfl
@[simp] theorem setPort_dev (p : Port) (f : PeerPort → PeerPort) : (setPort p f s).dev = s.dev := rfl
@[simp] theorem setPort_aon (p : Port) (f : PeerPort → PeerPort) : (setPort p f s).aon = s.aon := rfl
@[simp] theorem setPort_pins (p : Port) (f : PeerPort → PeerPort) : (setPort p f s).pins = s.pins := rfl
@[simp] theorem setPort_tap (p : Port) (f : PeerPort → PeerPort) : (setPort p f s).tap = s.tap := rfl
@[simp] theorem setPort_out (p : Port) (f : PeerPort → PeerPort) : (setPort p f s).out = s.out := rfl
@[simp] theorem setPort_fresh (p : Port) (f : PeerPort → PeerPort) : (setPort p f s).fresh = s.fresh := rfl
@[simp] theorem setPort_pending (p : Port) (f : PeerPort → PeerPort) : (setPort p f s).pending = s.pending := rfl

@[simp] theorem setLink_hly (p : Port) (l : Nat) (f : Link → Link) : (setLink p l f s).hly = s.hly := rfl
@[simp] theorem setLink_pwr (p : Port) (l : Nat) (f : Link → Link) : (setLink p l f s).pwr = s.pwr := rfl
@[simp] theorem setLink_flush (p : Port) (l : Nat) (f : Link → Link) : (setLink p l f s).flush = s.flush := rfl
@[simp] theorem setLink_cfg (p : Port) (l : Nat) (f : Link → Link) : (setLink p l f s).cfg = s.cfg := rfl
@[simp] theorem setLink_boot (p : Port) (l : Nat) (f : Link → Link) : (setLink p l f s).boot = s.boot := rfl
@[simp] theorem setLink_stage (p : Port) (l : Nat) (f : Link → Link) : (setLink p l f s).stage = s.stage := rfl
@[simp] theorem setLink_prm (p : Port) (l : Nat) (f : Link → Link) : (setLink p l f s).prm = s.prm := rfl
@[simp] theorem setLink_ctl (p : Port) (l : Nat) (f : Link → Link) : (setLink p l f s).ctl = s.ctl := rfl
@[simp] theorem setLink_cmds (p : Port) (l : Nat) (f : Link → Link) : (setLink p l f s).cmds = s.cmds := rfl
@[simp] theorem setLink_resv (p : Port) (l : Nat) (f : Link → Link) : (setLink p l f s).resv = s.resv := rfl
@[simp] theorem setLink_hold (p : Port) (l : Nat) (f : Link → Link) : (setLink p l f s).hold = s.hold := rfl
@[simp] theorem setLink_ptpl (p : Port) (l : Nat) (f : Link → Link) : (setLink p l f s).ptpl = s.ptpl := rfl
@[simp] theorem setLink_orders (p : Port) (l : Nat) (f : Link → Link) : (setLink p l f s).orders = s.orders := rfl
@[simp] theorem setLink_exts (p : Port) (l : Nat) (f : Link → Link) : (setLink p l f s).exts = s.exts := rfl
@[simp] theorem setLink_smb (p : Port) (l : Nat) (f : Link → Link) : (setLink p l f s).smb = s.smb := rfl
@[simp] theorem setLink_hx (p : Port) (l : Nat) (f : Link → Link) : (setLink p l f s).hx = s.hx := rfl
@[simp] theorem setLink_jrnl (p : Port) (l : Nat) (f : Link → Link) : (setLink p l f s).jrnl = s.jrnl := rfl
@[simp] theorem setLink_map (p : Port) (l : Nat) (f : Link → Link) : (setLink p l f s).map = s.map := rfl
@[simp] theorem setLink_media (p : Port) (l : Nat) (f : Link → Link) : (setLink p l f s).media = s.media := rfl
@[simp] theorem setLink_braid (p : Port) (l : Nat) (f : Link → Link) : (setLink p l f s).braid = s.braid := rfl
@[simp] theorem setLink_ps (p : Port) (l : Nat) (f : Link → Link) : (setLink p l f s).ps = s.ps := rfl
@[simp] theorem setLink_therm (p : Port) (l : Nat) (f : Link → Link) : (setLink p l f s).therm = s.therm := rfl
@[simp] theorem setLink_rf (p : Port) (l : Nat) (f : Link → Link) : (setLink p l f s).rf = s.rf := rfl
@[simp] theorem setLink_cleat (p : Port) (l : Nat) (f : Link → Link) : (setLink p l f s).cleat = s.cleat := rfl
@[simp] theorem setLink_safe (p : Port) (l : Nat) (f : Link → Link) : (setLink p l f s).safe = s.safe := rfl
@[simp] theorem setLink_evt (p : Port) (l : Nat) (f : Link → Link) : (setLink p l f s).evt = s.evt := rfl
@[simp] theorem setLink_dev (p : Port) (l : Nat) (f : Link → Link) : (setLink p l f s).dev = s.dev := rfl
@[simp] theorem setLink_aon (p : Port) (l : Nat) (f : Link → Link) : (setLink p l f s).aon = s.aon := rfl
@[simp] theorem setLink_pins (p : Port) (l : Nat) (f : Link → Link) : (setLink p l f s).pins = s.pins := rfl
@[simp] theorem setLink_tap (p : Port) (l : Nat) (f : Link → Link) : (setLink p l f s).tap = s.tap := rfl
@[simp] theorem setLink_out (p : Port) (l : Nat) (f : Link → Link) : (setLink p l f s).out = s.out := rfl
@[simp] theorem setLink_fresh (p : Port) (l : Nat) (f : Link → Link) : (setLink p l f s).fresh = s.fresh := rfl
@[simp] theorem setLink_pending (p : Port) (l : Nat) (f : Link → Link) : (setLink p l f s).pending = s.pending := rfl

@[simp] theorem setExt_hly (id : Nat) (f : Extent → Extent) : (setExt id f s).hly = s.hly := rfl
@[simp] theorem setExt_pwr (id : Nat) (f : Extent → Extent) : (setExt id f s).pwr = s.pwr := rfl
@[simp] theorem setExt_flush (id : Nat) (f : Extent → Extent) : (setExt id f s).flush = s.flush := rfl
@[simp] theorem setExt_cfg (id : Nat) (f : Extent → Extent) : (setExt id f s).cfg = s.cfg := rfl
@[simp] theorem setExt_boot (id : Nat) (f : Extent → Extent) : (setExt id f s).boot = s.boot := rfl
@[simp] theorem setExt_stage (id : Nat) (f : Extent → Extent) : (setExt id f s).stage = s.stage := rfl
@[simp] theorem setExt_prm (id : Nat) (f : Extent → Extent) : (setExt id f s).prm = s.prm := rfl
@[simp] theorem setExt_ctl (id : Nat) (f : Extent → Extent) : (setExt id f s).ctl = s.ctl := rfl
@[simp] theorem setExt_cmds (id : Nat) (f : Extent → Extent) : (setExt id f s).cmds = s.cmds := rfl
@[simp] theorem setExt_resv (id : Nat) (f : Extent → Extent) : (setExt id f s).resv = s.resv := rfl
@[simp] theorem setExt_hold (id : Nat) (f : Extent → Extent) : (setExt id f s).hold = s.hold := rfl
@[simp] theorem setExt_ptpl (id : Nat) (f : Extent → Extent) : (setExt id f s).ptpl = s.ptpl := rfl
@[simp] theorem setExt_orders (id : Nat) (f : Extent → Extent) : (setExt id f s).orders = s.orders := rfl
@[simp] theorem setExt_smb (id : Nat) (f : Extent → Extent) : (setExt id f s).smb = s.smb := rfl
@[simp] theorem setExt_hx (id : Nat) (f : Extent → Extent) : (setExt id f s).hx = s.hx := rfl
@[simp] theorem setExt_jrnl (id : Nat) (f : Extent → Extent) : (setExt id f s).jrnl = s.jrnl := rfl
@[simp] theorem setExt_map (id : Nat) (f : Extent → Extent) : (setExt id f s).map = s.map := rfl
@[simp] theorem setExt_media (id : Nat) (f : Extent → Extent) : (setExt id f s).media = s.media := rfl
@[simp] theorem setExt_peer (id : Nat) (f : Extent → Extent) : (setExt id f s).peer = s.peer := rfl
@[simp] theorem setExt_braid (id : Nat) (f : Extent → Extent) : (setExt id f s).braid = s.braid := rfl
@[simp] theorem setExt_ps (id : Nat) (f : Extent → Extent) : (setExt id f s).ps = s.ps := rfl
@[simp] theorem setExt_therm (id : Nat) (f : Extent → Extent) : (setExt id f s).therm = s.therm := rfl
@[simp] theorem setExt_rf (id : Nat) (f : Extent → Extent) : (setExt id f s).rf = s.rf := rfl
@[simp] theorem setExt_cleat (id : Nat) (f : Extent → Extent) : (setExt id f s).cleat = s.cleat := rfl
@[simp] theorem setExt_safe (id : Nat) (f : Extent → Extent) : (setExt id f s).safe = s.safe := rfl
@[simp] theorem setExt_evt (id : Nat) (f : Extent → Extent) : (setExt id f s).evt = s.evt := rfl
@[simp] theorem setExt_dev (id : Nat) (f : Extent → Extent) : (setExt id f s).dev = s.dev := rfl
@[simp] theorem setExt_aon (id : Nat) (f : Extent → Extent) : (setExt id f s).aon = s.aon := rfl
@[simp] theorem setExt_pins (id : Nat) (f : Extent → Extent) : (setExt id f s).pins = s.pins := rfl
@[simp] theorem setExt_tap (id : Nat) (f : Extent → Extent) : (setExt id f s).tap = s.tap := rfl
@[simp] theorem setExt_out (id : Nat) (f : Extent → Extent) : (setExt id f s).out = s.out := rfl
@[simp] theorem setExt_fresh (id : Nat) (f : Extent → Extent) : (setExt id f s).fresh = s.fresh := rfl
@[simp] theorem setExt_pending (id : Nat) (f : Extent → Extent) : (setExt id f s).pending = s.pending := rfl

@[simp] theorem setCmd_hly (key : Nat) (f : HostCmd → HostCmd) : (setCmd key f s).hly = s.hly := rfl
@[simp] theorem setCmd_pwr (key : Nat) (f : HostCmd → HostCmd) : (setCmd key f s).pwr = s.pwr := rfl
@[simp] theorem setCmd_flush (key : Nat) (f : HostCmd → HostCmd) : (setCmd key f s).flush = s.flush := rfl
@[simp] theorem setCmd_cfg (key : Nat) (f : HostCmd → HostCmd) : (setCmd key f s).cfg = s.cfg := rfl
@[simp] theorem setCmd_boot (key : Nat) (f : HostCmd → HostCmd) : (setCmd key f s).boot = s.boot := rfl
@[simp] theorem setCmd_stage (key : Nat) (f : HostCmd → HostCmd) : (setCmd key f s).stage = s.stage := rfl
@[simp] theorem setCmd_prm (key : Nat) (f : HostCmd → HostCmd) : (setCmd key f s).prm = s.prm := rfl
@[simp] theorem setCmd_ctl (key : Nat) (f : HostCmd → HostCmd) : (setCmd key f s).ctl = s.ctl := rfl
@[simp] theorem setCmd_resv (key : Nat) (f : HostCmd → HostCmd) : (setCmd key f s).resv = s.resv := rfl
@[simp] theorem setCmd_hold (key : Nat) (f : HostCmd → HostCmd) : (setCmd key f s).hold = s.hold := rfl
@[simp] theorem setCmd_ptpl (key : Nat) (f : HostCmd → HostCmd) : (setCmd key f s).ptpl = s.ptpl := rfl
@[simp] theorem setCmd_orders (key : Nat) (f : HostCmd → HostCmd) : (setCmd key f s).orders = s.orders := rfl
@[simp] theorem setCmd_exts (key : Nat) (f : HostCmd → HostCmd) : (setCmd key f s).exts = s.exts := rfl
@[simp] theorem setCmd_smb (key : Nat) (f : HostCmd → HostCmd) : (setCmd key f s).smb = s.smb := rfl
@[simp] theorem setCmd_hx (key : Nat) (f : HostCmd → HostCmd) : (setCmd key f s).hx = s.hx := rfl
@[simp] theorem setCmd_jrnl (key : Nat) (f : HostCmd → HostCmd) : (setCmd key f s).jrnl = s.jrnl := rfl
@[simp] theorem setCmd_map (key : Nat) (f : HostCmd → HostCmd) : (setCmd key f s).map = s.map := rfl
@[simp] theorem setCmd_media (key : Nat) (f : HostCmd → HostCmd) : (setCmd key f s).media = s.media := rfl
@[simp] theorem setCmd_peer (key : Nat) (f : HostCmd → HostCmd) : (setCmd key f s).peer = s.peer := rfl
@[simp] theorem setCmd_braid (key : Nat) (f : HostCmd → HostCmd) : (setCmd key f s).braid = s.braid := rfl
@[simp] theorem setCmd_ps (key : Nat) (f : HostCmd → HostCmd) : (setCmd key f s).ps = s.ps := rfl
@[simp] theorem setCmd_therm (key : Nat) (f : HostCmd → HostCmd) : (setCmd key f s).therm = s.therm := rfl
@[simp] theorem setCmd_rf (key : Nat) (f : HostCmd → HostCmd) : (setCmd key f s).rf = s.rf := rfl
@[simp] theorem setCmd_cleat (key : Nat) (f : HostCmd → HostCmd) : (setCmd key f s).cleat = s.cleat := rfl
@[simp] theorem setCmd_safe (key : Nat) (f : HostCmd → HostCmd) : (setCmd key f s).safe = s.safe := rfl
@[simp] theorem setCmd_evt (key : Nat) (f : HostCmd → HostCmd) : (setCmd key f s).evt = s.evt := rfl
@[simp] theorem setCmd_dev (key : Nat) (f : HostCmd → HostCmd) : (setCmd key f s).dev = s.dev := rfl
@[simp] theorem setCmd_aon (key : Nat) (f : HostCmd → HostCmd) : (setCmd key f s).aon = s.aon := rfl
@[simp] theorem setCmd_pins (key : Nat) (f : HostCmd → HostCmd) : (setCmd key f s).pins = s.pins := rfl
@[simp] theorem setCmd_tap (key : Nat) (f : HostCmd → HostCmd) : (setCmd key f s).tap = s.tap := rfl
@[simp] theorem setCmd_out (key : Nat) (f : HostCmd → HostCmd) : (setCmd key f s).out = s.out := rfl
@[simp] theorem setCmd_fresh (key : Nat) (f : HostCmd → HostCmd) : (setCmd key f s).fresh = s.fresh := rfl
@[simp] theorem setCmd_pending (key : Nat) (f : HostCmd → HostCmd) : (setCmd key f s).pending = s.pending := rfl

end Sys2Proof.Machine
end

