-- ==== Sys2Proof/Laws/Reports.lean ====
section
/-! SUPPORT. Reporting changes reports alone: one lemma for each shared operation that raises, signals or completes (15 R406 to R413). -/

namespace Sys2Proof.Machine

set_option Elab.async false

variable (s : State)

theorem reportCtl_refl (c : Ctl) : ReportCtl c c := rfl

theorem reportCtl_trans {a b c : Ctl} (h : ReportCtl a b) (k : ReportCtl b c) : ReportCtl a c := by
  unfold ReportCtl at *; rw [k, h]

theorem reportsOnly_refl : ReportsOnly s s :=
  ⟨rfl, fun _ => rfl, rfl, fun _ => by simp, ⟨[], rfl⟩⟩

theorem reportsOnly_trans {s t u : State} (h : ReportsOnly s t) (k : ReportsOnly t u) : ReportsOnly s u := by
  obtain ⟨h1, h2, h3, h4, l, h5⟩ := h
  obtain ⟨k1, k2, k3, k4, m, k5⟩ := k
  refine ⟨?_, fun p => reportCtl_trans (h2 p) (k2 p), ?_, fun g => ?_, m ++ l, ?_⟩
  · rw [k1, h1]
  · rw [k3, h3]
  · rw [← h4 g]; have := k4 g; grind [BitVec.and_assoc]
  · rw [k5, h5, List.append_assoc]

theorem perPort_get_modify {α : Type} (c : PerPort α) (p q : Port) (f : α → α) :
    (c.modify p f).get q = if p = q then f (c.get q) else c.get q := by
  cases p <;> cases q <;> rfl

theorem emit_reports (o : Out) : ReportsOnly s (emit o s) :=
  ⟨rfl, fun _ => rfl, rfl, fun _ => by simp [emit], ⟨[o], rfl⟩⟩

theorem setCtl_reports (p : Port) (f : Ctl → Ctl) (hf : ∀ c, ReportCtl c (f c)) : ReportsOnly s (setCtl p f s) := by
  refine ⟨rfl, fun q => ?_, rfl, fun _ => by simp [setCtl], ⟨[], rfl⟩⟩
  show ReportCtl (s.ctl.get q) ((s.ctl.modify p f).get q)
  rw [perPort_get_modify]
  split
  · exact hf _
  · rfl

theorem evt_reports (f : Evt) (h : f = { s.evt with smbAlert := f.smbAlert, queue := f.queue, dropped := f.dropped, bootDropped := f.bootDropped, suppressed := f.suppressed, repeats := f.repeats, lastAt := f.lastAt, minute := f.minute, infoMin := f.infoMin, noticeMin := f.noticeMin }) :
    ReportsOnly s { s with evt := f } := by
  refine ⟨rfl, fun _ => rfl, ?_, fun g => ?_, ⟨[], rfl⟩⟩
  · show f = _; rw [h]
  · show s.evt.status[g] &&& f.status[g] = _; rw [h]; simp

theorem postAen_reports (p : Port) (a : Aen) : ReportsOnly s (postAen p a s) := by
  unfold postAen
  dsimp only
  split
  · exact reportsOnly_refl s
  split
  · exact reportsOnly_refl s
  split
  · refine reportsOnly_trans ?_ (emit_reports _ _)
    exact setCtl_reports s p _ fun _ => rfl
  · split
    · exact reportsOnly_refl s
    · exact setCtl_reports s p _ fun _ => rfl

theorem signal_reports (p : Port) (v : Nat) : ReportsOnly s (signal p v s) := by
  unfold signal
  dsimp only
  generalize (if v < msixCount s then v else 0) = w
  split
  · exact reportsOnly_refl s
  split
  · exact setCtl_reports s p _ fun _ => rfl
  · exact emit_reports _ _

theorem ite_reports {s t u : State} {c : Prop} [Decidable c] (h : ReportsOnly s t) (k : ReportsOnly s u) :
    ReportsOnly s (if c then t else u) := by
  split <;> assumption

theorem edges_reports (g b : Nat) : ReportsOnly s (edges g b s) := by
  unfold edges
  dsimp only
  have h1 : ReportsOnly s (if ((vecAt s.evt.smb g 0#32).getLsbD b && !s.smb.off) = true then { s with evt := { s.evt with smbAlert := true } } else s) :=
    ite_reports (evt_reports s _ rfl) (reportsOnly_refl s)
  generalize (if ((vecAt s.evt.smb g 0#32).getLsbD b && !s.smb.off) = true then { s with evt := { s.evt with smbAlert := true } } else s) = t at h1 ⊢
  have h2 : ReportsOnly t (if (vecAt t.evt.msix g 0#32).getLsbD b = true then signal .b (groupVector .b g t) (signal .a (groupVector .a g t) t) else t) :=
    ite_reports (reportsOnly_trans (signal_reports _ _ _) (signal_reports _ _ _)) (reportsOnly_refl t)
  generalize (if (vecAt t.evt.msix g 0#32).getLsbD b = true then signal .b (groupVector .b g t) (signal .a (groupVector .a g t) t) else t) = u at h2 ⊢
  exact reportsOnly_trans h1 (reportsOnly_trans h2 (ite_reports (reportsOnly_trans (postAen_reports _ _ _) (postAen_reports _ _ _)) (reportsOnly_refl u)))

theorem countRepeat_reports (g b : Nat) : ReportsOnly s (countRepeat g b s) := evt_reports s _ rfl

theorem enqueue_reports (e : Entry) : ReportsOnly s (enqueue e s) := by
  unfold enqueue
  dsimp only
  split
  · exact evt_reports s _ rfl
  split
  · exact evt_reports s _ rfl
  split
  · exact evt_reports s _ rfl
  · exact evt_reports s _ rfl

theorem draw_reports : ReportsOnly s (draw s).2 := ⟨rfl, fun _ => rfl, rfl, fun _ => by simp [draw], ⟨[], rfl⟩⟩

theorem logEntry_reports (g b a0 a1 : Nat) : ReportsOnly s (logEntry g b a0 a1 s) := by
  have h1 : ∀ t : State, ∀ m, ReportsOnly t (if t.evt.minute = m then t else { t with evt := { t.evt with minute := m, infoMin := 0, noticeMin := 0 } }) :=
    fun t m => ite_reports (reportsOnly_refl t) (evt_reports t _ rfl)
  have h2 : ∀ t : State, ∀ k : Nat, ReportsOnly t (if k = 0 then { t with evt := { t.evt with infoMin := t.evt.infoMin + 1 } }
      else if k = 1 then { t with evt := { t.evt with noticeMin := t.evt.noticeMin + 1 } } else t) :=
    fun t k => ite_reports (evt_reports t _ rfl) (ite_reports (evt_reports t _ rfl) (reportsOnly_refl t))
  unfold logEntry
  dsimp only
  refine reportsOnly_trans (h1 s (s.dev.secs / 60)) ?_
  generalize (if s.evt.minute = s.dev.secs / 60 then s else _) = t
  refine reportsOnly_trans (h2 t (match eventClass g b with
    | some c => classCode c
    | none => 0)) ?_
  generalize (if (match eventClass g b with
    | some c => classCode c
    | none => 0) = 0 then _ else _ : State) = u
  split <;> split
  · exact reportsOnly_trans (evt_reports u _ rfl) (countRepeat_reports _ _ _)
  · exact reportsOnly_trans (draw_reports u) (reportsOnly_trans (evt_reports _ _ rfl) (enqueue_reports _ _))
  · exact reportsOnly_trans (evt_reports u _ rfl) (countRepeat_reports _ _ _)
  · exact reportsOnly_trans (draw_reports u) (reportsOnly_trans (evt_reports _ _ rfl) (enqueue_reports _ _))

theorem modVec_get {α : Type} {n : Nat} (v : Vector α n) (i : Nat) (f : α → α) (j : Fin n) :
    (modVec v i f)[j] = if j.val = i then f v[j] else v[j] := by
  simp [modVec]

theorem and_or_self (w m : Word) : w &&& (w ||| m) = w := by
  ext i
  simp
  grind

theorem status_reports (v : Vector Word 16) (h : ∀ g : Fin 16, s.evt.status[g] &&& v[g] = s.evt.status[g]) :
    ReportsOnly s { s with evt := { s.evt with status := v } } := ⟨rfl, fun _ => rfl, rfl, h, ⟨[], rfl⟩⟩

theorem status_or (v : Vector Word 16) (i : Nat) (m : Word) (g : Fin 16) : v[g] &&& (modVec v i (fun w => w ||| m))[g] = v[g] := by
  rw [modVec_get]
  split
  · exact and_or_self _ _
  · exact BitVec.and_self

theorem raise_reports (g b a0 a1 : Nat) : ReportsOnly s (raise g b a0 a1 s) := by
  unfold raise
  split
  · exact reportsOnly_refl s
  · dsimp only
    refine reportsOnly_trans (status_reports s _ (status_or s.evt.status g (1#32 <<< b))) ?_
    generalize ({ s with evt := _ } : State) = t
    have h : ReportsOnly t (if outwardOpen t = true then edges g b t else t) := ite_reports (edges_reports _ _ _) (reportsOnly_refl t)
    generalize (if outwardOpen t = true then edges g b t else t) = u at h ⊢
    exact reportsOnly_trans h (ite_reports (logEntry_reports _ _ _ _ _) (reportsOnly_refl u))

theorem raiseEvery_reports (key secs g b a0 a1 : Nat) : ReportsOnly s (raiseEvery key secs g b a0 a1 s) := by
  unfold raiseEvery
  dsimp only
  have h : ∀ t, ReportsOnly s (raise g b a0 a1 { s with evt := { s.evt with lastAt := t } }) :=
    fun t => reportsOnly_trans (evt_reports s _ rfl) (raise_reports _ _ _ _ _)
  exact ite_reports (h _) (countRepeat_reports s g b)

theorem noteError_reports (p : Port) (sq cid sct sc : Nat) : ReportsOnly s (noteError p sq cid sct sc s) := by
  unfold noteError
  split
  · exact reportsOnly_refl s
  · exact setCtl_reports s p _ fun _ => rfl

theorem post_reports (p : Port) (sq cid sct sc dw0 : Nat) : ReportsOnly s (post p sq cid sct sc dw0 s) := by
  unfold post
  split
  · exact reportsOnly_refl s
  · dsimp only
    have h := reportsOnly_trans (noteError_reports s p sq cid sct sc) (emit_reports _ (.cqe p sq cid sct sc (dw0 % 2 ^ 32)))
    generalize emit _ (noteError p sq cid sct sc s) = t at h ⊢
    split
    · exact reportsOnly_trans h (signal_reports _ _ _)
    · split
      · exact reportsOnly_trans h (ite_reports (signal_reports _ _ _) (reportsOnly_refl t))
      · exact h

theorem answer_reports (h : Hdr) (sct sc dw0 : Nat) : ReportsOnly s (answer h sct sc dw0 s) := post_reports s _ _ _ _ _ _

/-- A raised event shows its status bit, unless it is reserved (15 R406, R415). -/
theorem raise_status (g : Fin 16) (b a0 a1 : Nat) (hb : b < 32) (he : (eventClass g b).isSome = true) :
    ((raise g b a0 a1 s).evt.status[g]).getLsbD b = true := by
  unfold raise
  cases hc : eventClass g b with
  | none => simp [hc] at he
  | some c =>
    dsimp only
    have ht2 : ((modVec s.evt.status g (fun w => w ||| (1#32 <<< b)))[g]).getLsbD b = true := by
      rw [modVec_get]; simp [hb]
    generalize modVec s.evt.status g (fun w => w ||| (1#32 <<< b)) = v at ht2 ⊢
    have h : ∀ t : State, ReportsOnly t (if outwardOpen t = true then edges g b t else t) :=
      fun t => ite_reports (edges_reports _ _ _) (reportsOnly_refl t)
    have k : ∀ u : State, ReportsOnly u (if (vecAt u.evt.log g 0#32).getLsbD b = true then logEntry g b a0 a1 u else u) :=
      fun u => ite_reports (logEntry_reports _ _ _ _ _) (reportsOnly_refl u)
    have j := (reportsOnly_trans (h { s with evt := { s.evt with status := v } }) (k _)).status g
    have j2 := congrArg (fun w => w.getLsbD b) j
    simp only [BitVec.getLsbD_and] at j2
    rw [ht2] at j2
    simpa using j2

theorem shows_raise (g b a0 a1 : Nat) (hg : g < 16) (hb : b < 32) (he : (eventClass g b).isSome = true) :
    Shows (raise g b a0 a1 s) g b := by
  unfold Shows vecAt
  simp only [hg, dite_true]
  exact raise_status s ⟨g, hg⟩ b a0 a1 hb he

theorem shows_mono {s t : State} (h : ReportsOnly s t) {g b : Nat} (k : Shows s g b) : Shows t g b := by
  unfold Shows vecAt at *
  split
  · rename_i hg
    simp only [hg, dite_true] at k
    have j := congrArg (fun w => w.getLsbD b) (h.status ⟨g, hg⟩)
    simp only [BitVec.getLsbD_and] at j
    simp at j
    grind
  · simp_all

end Sys2Proof.Machine
end

