-- ==== Sys2Proof/Machine/Wire.lean ====
section
/-! DEFINITION. What an output of the device is on the wire: the Ethernet frame of a Yeldo frame (09 R237, R239 to R243, R253, 10 R288) and the
wake pattern of a wake burst (09 R262). The step emits the typed frame; this file spells its bytes. -/

namespace Sys2Proof.Machine

open Sys2Proof

/-! ### Payloads -/

/-- A block of a MIRROR_WRITE, an LB_WRITE or an LB_DELTA: data, host metadata where the namespace carries them, and the check (09 R243). -/
def blockBytes (metaOn : Bool) (b : CheckedBlk) : List Byte :=
  fit 4096 b.blk.data ++ (if metaOn then fit 64 b.blk.hm else []) ++ le 8 b.check.toNat

/-- A block record: a head of 16 bytes, and no data for a block that is UNMAPPED or LOST (10 R288). -/
def recordBytes (metaOn : Bool) (r : BlockRec) : List Byte :=
  le 8 r.check.toNat ++ le 7 r.gseq ++ le 1 (b2n r.unmapped + 2 * b2n r.lost) ++
    (if r.unmapped || r.lost then [] else fit 4096 r.blk.data ++ (if metaOn then fit 64 r.blk.hm else []))

/-- The bytes after a message's head. -/
def bodyBytes (metaOn : Bool) : MBody → List Byte
  | .none => []
  | .args bs => bs
  | .blocks bs => bs.flatMap (blockBytes metaOn)
  | .recs rs => rs.flatMap (recordBytes metaOn)
  | .folds cs => cs.flatMap (fun c => le 8 c.toNat)

/-- The 32-byte message head (09 R243). -/
def headBytes (m : Msg) : List Byte :=
  le 1 m.op ++ le 1 m.status ++ le 2 m.head.tag ++ le 4 m.head.nsid ++ le 8 m.head.slba ++ le 8 m.head.gseq ++ le 1 m.head.nlb1 ++
    le 1 m.head.ext ++ le 2 m.head.layout ++ le 4 m.arg

/-- The handshake payload of 36 bytes (09 R253). -/
def helloBytes (p : Port) (speed : Nat) (h : Hello) : List Byte :=
  le 8 h.nodeId ++ le 4 h.powerOn ++ le 1 (b2n h.rxValid) ++ le 1 (portNo p) ++ le 1 h.width ++ le 1 speed ++ le 3 h.rxLast.toNat ++
    le 3 h.txOldest.toNat ++ le 3 h.txNext.toNat ++ le 3 h.resume.toNat ++ le 4 h.imageGen ++ le 4 h.startId.toNat

/-! ### Frames -/

/-- TYPE of a frame (09 R240). -/
def frameType : OutFrame → Nat
  | .data .. => 0
  | .ack => 1
  | .nak => 2
  | .hello _ => 3
  | .helloAck _ => 4

/-- FLAGS: VC of a DATA frame, and RESENT (09 R239). -/
def frameFlags : OutFrame → Nat
  | .data _ r v _ => v + 4 * b2n r
  | _ => 0

/-- SEQ (09 R239). -/
def frameSeq : OutFrame → Nat
  | .data q _ _ _ => q.toNat
  | _ => 0

/-- A frame's payload. -/
def payloadBytes (s : State) (p : Port) : OutFrame → List Byte
  | .data _ _ _ m => headBytes m ++ bodyBytes (nsMeta s m.head.nsid) m.body
  | .ack => []
  | .nak => []
  | .hello h => helloBytes p (b2n (s.peer.get p).slow) h
  | .helloAck h => helloBytes p (b2n (s.peer.get p).slow) h

/-- GRANT: four fields of 12 bits, VC0 lowest (09 R239). -/
def grantBytes (g : List Nat) : List Byte := le 6 (g.zipIdx.foldl (fun a x => a + x.1 % 4096 * 4096 ^ x.2) 0)

/-- The 16-byte Yeldo header and the payload (09 R239). -/
def yeldoBytes (s : State) (p : Port) (ack : BitVec 24) (grant : List Nat) (f : OutFrame) : List Byte :=
  le 1 (16 + frameType f) ++ le 1 (frameFlags f) ++ le 2 (payloadBytes s p f).length ++ le 3 (frameSeq f) ++ le 3 ack.toNat ++
    grantBytes grant ++ payloadBytes s p f

/-- MAC client data: header, payload, the CRC-32C trailer, and zeros up to 46 bytes (09 R237, R239). -/
def clientData (s : State) (p : Port) (ack : BitVec 24) (grant : List Nat) (f : OutFrame) : List Byte :=
  let b := yeldoBytes s p ack grant f
  let d := b ++ le 4 (crc32c b).toNat
  d ++ zeros (46 - d.length)

/-- A MAC address in order of transmission. -/
def macBytes (m : Nat) : List Byte := (le 6 m).reverse

/-- The peer's MAC that a port reaches: MAC2 through port B of a paired entry, else MAC (09 R236). -/
def peerMac (p : Port) (e : PeerEntry) : Nat := if p = .b ∧ e.portA ∧ e.portB then e.mac2 else e.mac

/-- The Ethernet frame of a Yeldo frame, without its FCS: destination, source, EtherType, MAC client data (09 R237). -/
def ethernetFrame (s : State) (p : Port) (l : Nat) (ack : BitVec 24) (grant : List Nat) (f : OutFrame) : List Byte :=
  match s.prm.peer, linkBy s p l with
  | some x, some k =>
    (match x.entries[k.entry]? with
     | some e => macBytes (peerMac p e) ++ macBytes (if p = .a then x.macA else x.macB) ++ (le 2 x.ethertype).reverse ++
         clientData s p ack grant f
     | none => [])
  | _, _ => []

/-! ### The wake burst -/

/-- The bits of a byte from bit 0 on. -/
def lsbFirst (n : Nat) : List Bool := (List.range 8).map (bit n)

/-- One wake pattern: SYNC 0b1111_1110 from its leftmost bit, the address and its complement from bit 0 (09 R262). -/
def wakePattern (addr : Nat) : List Bool := (lsbFirst 0xFE).reverse ++ lsbFirst addr ++ lsbFirst (255 - addr % 256)

/-- A wake burst: three patterns, each followed by 8 ms idle, in bits of 1 ms (09 R262). -/
def wakeBurst (addr : Nat) : List Bool := (List.replicate 3 (wakePattern addr ++ List.replicate 8 false)).flatten

/-- What an output is on the peer port's wire; other outputs are no frames. -/
def wireBytes (s : State) : Out → Option (List Byte)
  | .frame p l a g f => some (ethernetFrame s p l a g f)
  | _ => none

end Sys2Proof.Machine
end

