-- ==== Sys2Proof/Tests/Slice0.lean ====
section
/-! SUPPORT. Small tests of one step each, the words of the spec's worked cases, an ill-formed term for each check of WellFormed, and for every statement of
Certificates/Slice0/Obligations.lean states and operands that meet what each of its clauses assumes. -/

namespace Sys2Proof.Tests

open Sys2Proof Sys2Proof.Machine

set_option maxRecDepth 4000
set_option Elab.async false

/-! ### Small states -/

def ns1 : NsEntry :=
  { nsid := 1, size := 64, metaOn := false, ack := true, layout := 0, degrade := false, wp := false, degradeMs := 100, nguid := zeros 16 }

def geo1 : Geometry :=
  { fitted := List.replicate 16 1, dies := 1, planes := 1, units := 64, pagesNative := 256, pagesSlc := 128, cell := 1, ldpcM := 6, s := 4, spare := 2,
    peRated := 1000, peRatedSlc := 10000 }

def host1 : HostSec :=
  { ssvid := 0, ssid := 0, sn := zeros 20, mdts := 5, msix := 16, ioqPairs := 8, ioqDepth := 64, aerLimit := 3, subnqn := [] }

def nodeX (i : Nat) : PeerEntry :=
  { nodeId := i, mac := i, mac2 := 0, portA := true, portB := false, directA := false, directB := false, wakeAddr := i, orders := 3 }

def peers1 : PeerSec :=
  { ethertype := 0x88B5, enableA := true, enableB := false, crA := true, crB := true, slowOk := true, wakeS := 2, macA := 1, macB := 2,
    entries := [nodeX 2, nodeX 3] }

def ctlUp : Ctl :=
  { State.ctl0 with
      en := true, rdy := true, link := true, perstLow := false,
      sqs := [{ qid := 0, size := 16, cqid := 0, head := 0, tail := 1 }, { qid := 1, size := 16, cqid := 1, head := 0, tail := 1 }],
      cqs := [{ qid := 0, size := 16, iv := 0, ien := true }, { qid := 1, size := 16, iv := 1, ien := true }] }

/-- A device that is host ready, with one namespace in a buffer that acknowledges, Motur running and the journal open. -/
def up : State :=
  { State.reset with
      hly := { State.hly0 with breaker := .on, vinGood := true },
      pwr := { State.pwr0 with voutOk := true, railsOk := true, charged := true, measured := true, bufackEn := true },
      boot := { State.boot0 with phase := 9, ready := true, hostReady := true, hostOk := true, gates := true, headers := true, genUsed := 1 },
      prm := { State.prm0 with
        identity := some { model := [], oui := [], nodeId := 1, wakeAddr := 0x21 }, host := some host1, geometry := some geo1,
        namespaces := [ns1] },
      ctl := ⟨ctlUp, State.ctl0⟩, hx := { State.hx0 with nextKey := 100 },
      jrnl := { State.jrnl0 with state := 4, scanned := true, surveyed := true }, map := { State.map0 with state := 3 },
      aon := { State.aon0 with coldHeld := false } }

def hdr0 : Hdr := { port := .a, sq := 0, cid := 7, dt := 1 }
def hdr1 : Hdr := { port := .a, sq := 1, cid := 8, dt := 1 }

def mode0 : Mode := { buffered := true, fua := false, dealloc := false, mirrored := false, dual := false }

def xblk (t : Tok) : XBlk := { tok := t, blk := none, check := 0#64, place := none, ok := false, lost := false }

def blk1 : Blk := { data := [1#8], hm := [] }

/-- An extent of one block of namespace 1 at LBA 5, its token in a given state. -/
def ext1 (t : Tok) : Extent :=
  { id := 3, origin := .dropped, port := .a, nsid := 1, slba := 5, nlb1 := 0, ext := 0, gseq := 1, stamp := 0, mode := mode0, layout := 0,
    blks := [xblk t], recno := none, durable := false, stopped := false, waitOn := [], acked := 0, builders := [], resent := [], compRec := none,
    zero := false, rxHeld := 0 }

/-- An extent whose INTENT record 1 is durable. -/
def extJ : Extent := { ext1 .journaled with recno := some 1, durable := true }

def cmd1 (k : CmdKind) : HostCmd :=
  { key := 50, port := .a, sq := 1, cid := 9, kind := k, nsid := 1, slba := 5, nlb1 := 0, stamp := 0, gseq := 1, buffered := false, found := [],
    waitRec := none, failed := none, live := true, begun := false }

/-- The names of a state without commands and without extents are new. -/
theorem names_new (s : State) (h : s.cmds = []) (k : s.exts = []) : NamesNew s ∧ FusedWait s := by
  refine ⟨⟨?_, ?_, ?_, ?_⟩, ?_⟩ <;> simp [FusedWait, h, k]

/-- Names that stand in order in a concrete state are new. -/
theorem names_of (s : State) (h : (s.cmds.map (fun c => c.key)).Nodup) (k : ∀ c ∈ s.cmds, c.key < s.hx.nextKey)
    (l : ∀ e ∈ s.exts, e.id < s.hx.nextKey ∧ (ownerKey e).all (fun k => decide (k < s.hx.nextKey)) = true) : NamesNew s := by
  refine ⟨h, k, fun e he => (l e he).1, ?_⟩
  intro e he k hk
  simpa [hk] using (l e he).2

/-- With no command that reads, none is left to settle. -/
theorem no_readers (s : State) (h : ∀ c ∈ s.cmds, isReader c = false) : ReadsSettled s ∧ FusedWait s ∧ FusedBegun s := by
  have begun : FusedBegun s := by
    intro c hc hf
    have := h c hc
    cases hk : c.kind <;> simp_all [isReader, isFused]
  refine ⟨⟨?_, begun⟩, ?_, begun⟩
  · intro c hc hr
    simp [h c hc] at hr
  · intro c hc d w hk
    have := h c hc
    simp [isReader, hk] at this

/-! ### Commands that the outside cannot send, one for each check of WellFormed -/

def blkOf (b : Byte) : Blk := { data := List.replicate 4096 b, hm := List.replicate 64 b }
def chk (b : Blk) : CheckedBlk := { blk := b, check := 0#64 }
def hd0 : Head := { tag := 0, nsid := 1, slba := 0, gseq := 0, nlb1 := 0, ext := 0, layout := 0 }
def fr0 : Sys2Proof.Frm := { port := .a, link := 0, seq := 0#24, ack := 0#24, grant := Vector.replicate 4 0#12 }
def hello0 : Hello :=
  { nodeId := 2, powerOn := 1, rxValid := false, width := 4, rxLast := 0#24, txOldest := 0#24, txNext := 0#24, resume := 0#24, imageGen := 1,
    startId := 0#32 }
def page1 : ParamPage := { data := 16384, spare := 2, pages := 256, units := 64, dies := 1 }
def recOf (b : Blk) : BlockRec := { check := 0#64, gseq := 0, unmapped := false, lost := false, blk := b }

theorem test_wf_accepts : ∀ c ∈ [Instr.write hdr0 1 (2 ^ 64 - 1) 65535 true, .doorbellWrite .a 65535 65535, .registerWrite .b 0x1FFFFFC 0#32,
    .compare hdr0 1 0 0 [blkOf 1#8], .mirrorWrite fr0 hd0 31 31 [chk (blkOf 1#8)], .readData fr0 hd0 [recOf (blkOf 1#8)],
    .encrypt hdr0 15 256 (zeros 4096), .encrypt hdr0 15 257 [], .hello .a 7 hello0, .targetBusyTimeout 15 7 { result := [], rbHigh := false }], wellFormed c = true := by
  decide +kernel

theorem test_wf_header : ∀ h ∈ [{ hdr0 with sq := 65536 }, { hdr0 with cid := 65536 }, { hdr0 with dt := 2 ^ 64 }],
    wellFormed (.keepAlive h) = false := by
  decide +kernel

theorem test_wf_range : ∀ c ∈ [Instr.write hdr0 (2 ^ 32) 0 0 false, .read hdr0 1 (2 ^ 64) 0, .verify hdr0 1 0 65536, .writeZeroes hdr0 (2 ^ 32) 0 0,
    .flush hdr0 (2 ^ 32)], wellFormed c = false := by
  decide +kernel

theorem test_wf_blocks : ∀ c ∈ [Instr.compare hdr0 1 0 1 [blkOf 1#8], .compare hdr0 1 0 0 [{ blkOf 1#8 with data := zeros 4095 }],
    .compare hdr0 1 0 0 [{ blkOf 1#8 with hm := zeros 63 }], .logicalBlockArrival 1 65536 (blkOf 1#8), .logicalBlockArrival 1 0 (blk1),
    .fusedCompareAndWrite hdr0 1 0 0 (blkOf 1#8) (some { cid := 65536, nsid := 1, slba := 0, nlb1 := 0, fua := false, blk := blkOf 1#8 }),
    .datasetManagement hdr0 1 true (List.replicate 257 (0, 1)), .datasetManagement hdr0 1 true [(2 ^ 64, 1)]], wellFormed c = false := by
  decide +kernel

theorem test_wf_registers : ∀ c ∈ [Instr.bar2MisalignedAccess .a true 0x2000000 1, .bar2MisalignedAccess .a true 0 0, .bar2MisalignedAccess .a true 8 4,
    .registerWrite .a 2 0#32, .rcRegisterRead .a 0x2000000, .rwsWrite .a 1 0#32, .doorbellWrite .a 65536 0, .doorbellWrite .a 0 65536,
    .smbSelectBlock 256 true, .smbSetOffset 65536 true, .recwinRead .a 0x1000000 [], .recwinRead .a 0 [72], .recwinWrite .a 3 0#32, .smbGo 8,
    .configurationRequest .a 1024], wellFormed c = false := by
  decide +kernel

theorem test_wf_admin : ∀ c ∈ [Instr.reservationRegister hdr0 1 8 false 0 0#64 0#64, .reservationRegister hdr0 1 0 false 4 0#64 0#64,
    .reservationAcquire hdr0 1 0 256 false 0#64 0#64, .reservationRelease hdr0 1 8 0 false 0#64, .createIoSubmissionQueue hdr0 65536 0 0 true,
    .createIoCompletionQueue hdr0 0 65536 0 true true, .getLogPage hdr0 256 0 0 false, .getLogPage hdr0 0 0 (2 ^ 34) false, .identify hdr0 256 0 0,
    .abort hdr0 65536 0, .setFeatures hdr0 256 false 0 0#32 0#128, .getFeatures hdr0 0 8 0 0#32, .invalidCommandOpcode hdr0 256,
    .start hdr0 1 65536 false, .imageStage hdr0 65536 0 false false 0 [] none, .imageStage hdr0 0 1 false false 2 (zeros 4096) none,
    .imageStage hdr0 0 1 false false 0 (zeros 4095) none], wellFormed c = false := by
  decide +kernel

theorem test_wf_cleat : ∀ c ∈ [Instr.loadStore hdr0 16 0, .loadStore hdr0 0 16, .loadClear hdr0 0 true (zeros 31), .encrypt hdr0 0 512 [],
    .decrypt hdr0 0 2 (zeros 31), .cmacUpdate hdr0 16 0 [], .cmacFinal hdr0 0 1 true [], .cmacReset hdr0 16, .free hdr0 16, .cleatContextSave hdr0 16 true,
    .cleatContextRestore hdr0 0 true (zeros 71)], wellFormed c = false := by
  decide +kernel

theorem test_wf_frames : ∀ c ∈ [Instr.ack { fr0 with link := 8 }, .statusReq fr0 { hd0 with tag := 65536 }, .statusReq fr0 { hd0 with nlb1 := 256 },
    .statusReq fr0 { hd0 with layout := 65536 }, .order fr0 hd0 16 [], .order fr0 hd0 0 (zeros 257), .response fr0 hd0 256, .tieoffNotice fr0 hd0 16 0,
    .mirrorWrite fr0 hd0 32 0 [chk (blkOf 1#8)], .mirrorWrite fr0 { hd0 with nlb1 := 1 } 1 0 [chk (blkOf 1#8)], .mirrorWrite fr0 hd0 0 0 [chk blk1],
    .mirrorWrite fr0 { hd0 with nlb1 := 2 } 2 0 (List.replicate 3 (chk (blkOf 1#8))), .lbDelta fr0 hd0 16 [chk (blkOf 1#8)], .readReq fr0 hd0 4,
    .readData fr0 hd0 [recOf blk1], .readData fr0 hd0 [{ recOf (blkOf 1#8) with gseq := 2 ^ 56 }], .spliceCopy fr0 hd0 256 [recOf (blkOf 1#8)],
    .splicePhase fr0 hd0 0 16 0, .hello .a 8 hello0, .hello .a 0 { hello0 with width := 256 }, .helloAck .a 0 { hello0 with nodeId := 2 ^ 64 },
    .spliceBuild 256, .degradeTimeout .a 0 (2 ^ 32), .frameDiscarded { fr0 with link := 8 } .trailer], wellFormed c = false := by
  decide +kernel

theorem test_wf_indexes : ∀ c ∈ [Instr.channelStart 16 [] 0, .channelStart 0 [{ target := 8, page := page1 }] 0, .channelRetrain 16 0,
    .suspendTimeout 512, .rbLowTimeout 0 8 [], .fidDue 0 8, .fid 0 0 { density := [1001], sweep := [], bitsCur := none, bitsNew := none },
    .setErase 524288, .eraseStatus 8388608 true false, .auditImbalanceTimeout 6, .heatSweep 0 { lost := [{ set := 524288, block := 0 }], soft := [] },
    .extentPlacement 0 false true { lost := [], soft := [{ unit := 8388608, page := 1, level := 1, words := 1 }] }, .softDecodeDone 0 [8] [] [],
    .journalScan [524288], .pcieLinkUp .a 6 1, .pcieLinkUp .a 1 3, .patrolRead 4 [], .participantAnswer true 16, .dramTemperatureRead 16 0,
    .refresh 0 2048 0 0, .heartbeatMissed 30, .lockstepMismatch 4, .clockLost 14, .frequencyCheckWindow 14 0 0, .supplyDisagree 3, .selfTest [8]],
    wellFormed c = false := by
  decide +kernel

/-! ### Worked cases of the spec and known answers of the standards it names -/

/-- 02, after R53: 7.9 mF with 60 mΩ gives 73 728 tokens. -/
theorem test_bank_tokens : bankTokens 7900000 60000 = 73728 := by decide +kernel

/-- 10, after R276: P and Q of 0x5A, 0x3C and 0x81, and the recovery of slots 1 and 2. -/
theorem test_parity : 0x5A#8 ^^^ gfShift 1 0x3C#8 ^^^ gfShift 2 0x81#8 = 0x1C#8 ∧ gfMul 0x06#8 0x81#8 = 0x21#8 ∧
    solveRow 3 [(0, { data := [0x5A#8], hm := [] })] [(0, { data := [0xE7#8], hm := [] }), (1, { data := [0x1C#8], hm := [] })] =
      some [(1, { data := [0x3C#8], hm := [] }), (2, { data := [0x81#8], hm := [] })] := by
  decide +kernel

/-- 10, after R287: the holder and the parity address of block 27 × 32 + 10 in a long braid of 4 and 2. -/
theorem test_long_braid :
    let l : Layout := { id := 1, loc := 0, cross := 5, k := 4, m := 2, pos := 0, rebuildMbs := 0, spliceMbs := 0, verifyMbs := 0, nodes := [] }
    holderPos l 874 = 3 ∧ parityLba l 874 1 = 2 ^ 39 + 2 ^ 36 + 202 := by
  decide +kernel

/-- 09, after R251: a MIRROR_WRITE of two blocks needs 33 credits. -/
theorem test_credits : creditNeed 8240 = 33 ∧ creditNeed 0 = 1 := by decide +kernel

/-- 12, after R352: 120 at 60 °C and 150 at 70 °C give 143 at 67.5 °C. -/
theorem test_interpolation : interpolate [0, 0, 0, 0, 0, 0, 0, 0, 120, 150, 0, 0, 0, 0, 0, 7] 1080 = 143 ∧
    interpolate [0, 0, 0, 0, 0, 0, 0, 0, 120, 150, 0, 0, 0, 0, 0, 7] 2400 = 7 := by
  decide +kernel

/-- 13, after R381: K1 and K2 of L. -/
theorem test_subkeys : subkeys [0x8F#8, 0x24#8, 0x6A#8, 0x01#8, 0xD3#8, 0x5C#8, 0x90#8, 0x7E#8, 0x11#8, 0x42#8, 0xB8#8, 0x0C#8, 0x6D#8, 0xF5#8, 0x27#8, 0xA9#8] =
    ([0x1E#8, 0x48#8, 0xD4#8, 0x03#8, 0xA6#8, 0xB9#8, 0x20#8, 0xFC#8, 0x22#8, 0x85#8, 0x70#8, 0x18#8, 0xDB#8, 0xEA#8, 0x4F#8, 0xD5#8],
     [0x3C#8, 0x91#8, 0xA8#8, 0x07#8, 0x4D#8, 0x72#8, 0x41#8, 0xF8#8, 0x45#8, 0x0A#8, 0xE0#8, 0x31#8, 0xB7#8, 0xD4#8, 0x9F#8, 0xAA#8]) := by
  decide +kernel

/-- FIPS 197, appendix C.1, which 13 R377 builds on. -/
theorem test_aes :
    let key := (List.range 16).map (BitVec.ofNat 8)
    let plain := (List.range 16).map (fun i => BitVec.ofNat 8 (0x11 * i))
    aesEncrypt key plain = [0x69#8, 0xC4#8, 0xE0#8, 0xD8#8, 0x6A#8, 0x7B#8, 0x04#8, 0x30#8, 0xD8#8, 0xCD#8, 0xB7#8, 0x80#8, 0x70#8, 0xB4#8, 0xC5#8, 0x5A#8] ∧
      aesDecrypt key (aesEncrypt key plain) = plain := by
  decide +kernel

/-- The check value of CRC-32C (05 R129): the nine digits "123456789". -/
theorem test_crc32c : crc32c ((List.range 9).map (fun i => BitVec.ofNat 8 (0x31 + i))) = 0xE3069283#32 := by decide +kernel

/-- 15, after R419: the bytes of an event-log entry. -/
theorem test_entry :
    (entryBytes { g := 6, bit := 14, rep := 0, queued := false, seq := 76858, secs := 252000123, subsec := 0x4000, powerOn := 1207, arg0 := 5, arg1 := 1 }).take 28 =
      [0x45#8, 0x26#8, 0x0E#8, 0x00#8, 0x3A#8, 0x2C#8, 0x01#8, 0x00#8, 0x7B#8, 0x37#8, 0x05#8, 0x0F#8, 0x00#8, 0x00#8, 0x00#8, 0x40#8, 0xB7#8, 0x04#8, 0x00#8,
       0x00#8, 0x05#8, 0x00#8, 0x00#8, 0x00#8, 0x01#8, 0x00#8, 0x00#8, 0x00#8] := by
  decide +kernel

/-- 07, after R196: the read template is one that the device accepts; with its data step taken away it is not. -/
theorem test_template :
    let t : List (BitVec 16) := [0x1000#16, 0x2032#16, 0x1030#16, 0x5005#16, 0x6001#16, 0x1006#16, 0x2032#16, 0x10E0#16, 0x5009#16, 0x4000#16]
    templateOk .read (t ++ List.replicate 6 0#16) = true ∧ templateOk .read (t.take 9 ++ List.replicate 7 0x5009#16) = false := by
  decide +kernel
/-! ### What the statements assume can be met: supplies and resets -/

def withJ : State := { up with exts := [extJ] }
def brk (b : Breaker) (s : State) : State := { s with hly := { s.hly with breaker := b } }
def flushing (ids : List Nat) (sealing : Bool) : Flush :=
  { toSpill := ids, lastSpilled := 0, spilled := 0, unspilled := 0, cause := 1, sealing := sealing }

theorem wit_InsertionAndOrders :
    (let s := State.reset
     s.hly.breaker = .off ∧ s.hly.overVoltage = false ∧ s.pins.sysRstN = true ∧ s.pins.testMode = false ∧ s.hly.held = none) ∧
    (brk .check up).hly.breaker = .check ∧ (brk .ramp up).hly.breaker = .ramp ∧ (brk .enhance up).hly.breaker = .enhance ∧
    (let s := brk .retryWait up
     s.hly.breaker = .retryWait ∧ s.hly.overVoltage = false ∧ s.hly.held = none) ∧
    (let s := { up with hly := { up.hly with breaker := .retryWait, retryDue := true, overVoltage := true } }
     s.hly.breaker = .retryWait ∧ s.hly.retryDue = true ∧ s.hly.overVoltage = true ∧ s.hly.held = none) ∧
    up.hly.held ≠ some .thermal ∧ gateDriven up.hly.breaker = true ∧ gateDriven (brk .check up).hly.breaker = false ∧
    (let s := { up with hly := { up.hly with breaker := .held, held := some .deviceReset } }
     s.hly.breaker = .held ∧ s.hly.held = some .deviceReset ∧ s.hly.overVoltage = false) := by
  and_intros <;> decide +kernel

theorem wit_BreakerFaultsAndTrips :
    (brk .check up).hly.breaker = .check ∧ (brk .enhance up).hly.breaker = .enhance ∧ (brk .ramp up).hly.breaker = limitBack .ramp ∧
    (brk (.limit .enhance) up).hly.breaker = .limit .enhance ∧ LimitFrom.enhance ≠ .on ∧
    (let s := brk (.limit .on) withJ
     s.hly.breaker = .limit .on ∧ s.flush = none ∧ spillOrder s ≠ []) := by
  and_intros <;> decide +kernel

theorem wit_InputLossAndFlush :
    (withJ.hly.breaker = .on ∧ withJ.flush = none ∧ spillOrder withJ ≠ []) ∧ (brk .ramp up).hly.breaker = .ramp ∧
    (let s := { State.reset with hly := { State.hly0 with vinGood := true } }
     s.hly.breaker = .off ∧ s.hly.vinGood = true ∧ s.hly.overVoltage = false ∧ s.hly.held = none ∧ s.pins.testMode = false ∧ s.pins.sysRstN = true) ∧
    (let s := { withJ with flush := some (flushing [3, 4] false) }
     s.flush = some (flushing [3, 4] false) ∧ (flushing [3, 4] false).toSpill = extJ.id :: [4] ∧ [4] ≠ ([] : List Nat) ∧ extBy s extJ.id = some extJ) ∧
    (let s := { withJ with flush := some (flushing [3] false) }
     s.flush = some (flushing [3] false) ∧ (flushing [3] false).sealing = false ∧ (flushing [3] false).cause ≠ 4 ∧ s.safe.noSpill = false ∧
       s.jrnl.state = 4) ∧
    (let s := { brk (.holdup .trip) withJ with flush := some (flushing [] true) }
     s.flush = some (flushing [] true) ∧ (flushing [] true).sealing = true ∧ s.hly.breaker = .holdup .trip) := by
  and_intros <;> decide +kernel

/-- The clauses of a measurement meet at 1 mF, 40 mF and 0.5 Ω, and at the floor of the budget. -/
theorem wit_SuppliesAndHoldup :
    (withJ.pwr.railsOk = true ∧ withJ.flush = none ∧ spillOrder withJ ≠ [] ∧ withJ.hly.breaker = .on) ∧
    (up.pwr.railsOk = true ∧ up.pwr.voutOk = true ∧ up.hly.breaker = .on ∧ up.pwr.measuring = false ∧ up.flush = none ∧ up.pwr.charged = true ∧ bar2Open up .a = true ∧ (1#32 : Word).getLsbD 0 = true ∧ up.pwr.measDue = false) ∧
    (let s := { up with pwr := { up.pwr with charged := false, deferrals := 58 } }
     s.pwr.railsOk = true ∧ s.pwr.measuring = false ∧ s.flush = none ∧ s.pwr.charged = false ∧ s.pwr.deferrals < 59) ∧
    (let s := { up with pwr := { up.pwr with measuring := true } }
     s.pwr.measuring = true ∧ Config.budgetFloor < s.pwr.budget ∧ (999999 : Nat) < 1000000 ∧ (40000000 : Nat) < 40000001 ∧ (500000 : Nat) < 500001) ∧
    (let s := { up with pwr := { up.pwr with measuring := true, budget := 262145 } }
     s.pwr.measuring = true ∧ Config.budgetFloor ≤ bankTokens 7900000 60000 ∧ min (bankTokens 7900000 60000) Config.budgetMax < s.pwr.budget ∧
       Config.budgetFloor ≤ bankTokens 40000000 0 ∧ min (bankTokens 40000000 0) Config.budgetMax < s.pwr.budget) := by
  and_intros <;> decide +kernel

theorem wit_WideAndPortResets :
    (let s := { up with safe := { up.safe with order := true, halted := true, sealed := true } }
     s.safe.order = true ∧ s.safe.halted = true ∧ (s.safe.sealed = true ∨ s.safe.noSpill = true) ∧ s.hly.held ≠ some .thermal ∧
       gateDriven s.hly.breaker = true) ∧
    (activePort up .a = true ∧ resetRuns up = false ∧ (up.ctl.get .a).link = true ∧ (up.ctl.get .a).en = true ∧ resetRuns State.reset = true) ∧
    ReadsSettled up := by
  refine ⟨?_, ?_, (no_readers up (by decide +kernel)).1⟩ <;> decide +kernel
theorem wit_HostPortsAndConfiguration :
    (let s := { up with ctl := ⟨{ ctlUp with en := false, rdy := false }, State.ctl0⟩ }
     activePort s .a = true ∧ (s.ctl.get .a).link = true ∧ (s.ctl.get .a).en = false) ∧
    0 ≤ (up.ctl.get .a).asqs ∧
    (let q : Sq := { qid := 1, size := 16, cqid := 1, head := 0, tail := 1 }
     ctlRuns up .a = true ∧ up.ps.state = 0 ∧ up.ps.hs = none ∧ q ∈ (up.ctl.get .a).sqs ∧ q.qid ≠ 0 ∧ 15 < q.size) ∧
    (let s := { up with boot := { up.boot with clkRef := true }, ctl := ⟨{ ctlUp with link := false }, State.ctl0⟩ }
     mayTrain s .a = true ∧ 4 ∈ [1, 2, 4] ∧ 4 ≤ strappedWidth s ∧ (4 < 5 ∨ 1 < strappedWidth s)) ∧
    (activePort up .a = true ∧ 5 ≤ up.boot.phase) ∧
    (let s := { up with ctl := ⟨State.ctl0, State.ctl0⟩, boot := { up.boot with hostReady := false } }
     allPerst s = true ∧ s.hx.perstHeld = false ∧ s.safe.stopper = false ∧ s.boot.noImage = false ∧ s.boot.hostReady = false) ∧
    (let s := { up with boot := { up.boot with hostOk := false } }
     (s.ctl.get .a).link = true ∧ s.boot.hostOk = false ∧ s.boot.noImage = false) ∧ up.boot.hostOk = true ∧ 0 / 4 = 0 ∧ 11 / 4 = 2 := by
  and_intros <;> decide +kernel

def loadS (l : Loading) (headers : Bool) : State :=
  { up with boot := { State.boot0 with phase := 6, headers := headers, loading := some l, candidates := [0], hdrOk := [none, none], key := Config.deviceKey } }

theorem wit_StartUp :
    (let s := { up with pwr := { up.pwr with railsOk := false }, dev := { up.dev with lostAon := false } }
     feeds s.hly.breaker = true ∧ s.pwr.voutOk = true ∧ s.pwr.railsOk = false ∧ s.flush = none ∧ s.dev.lostAon = false) ∧
    (let s := { up with pwr := { up.pwr with railsOk := false } }
     feeds s.hly.breaker = true ∧ s.pwr.voutOk = true ∧ s.pwr.railsOk = false ∧ s.flush = none ∧ s.dev.lostAon = true) ∧
    (let s := { up with boot := { State.boot0 with phase := 4 } }
     s.boot.phase = 4 ∧ s.aon.thermLatch = false) ∧
    (let s := { up with boot := { State.boot0 with phase := 4 }, aon := { up.aon with thermLatch := true } }
     s.boot.phase = 4 ∧ s.aon.thermLatch = true) ∧
    (up.hly.vinGood = true ∧ up.aon.xtalLost = false ∧ 5 ≤ up.boot.phase ∧ up.boot.clkRef = false) ∧
    { up.aon with xtal := true }.xtal = true ∧
    (let l : Loading := { copy := 0, pinned := none, blocks := [], waiting := false, bad := none, ended := false, handed := [] }
     let s := { loadS l false with boot := { (loadS l false).boot with loading := none } }
     mayLoadImage s = true ∧ 6 ≤ s.boot.phase ∧ s.boot.headers = false ∧ nextHeader s = some 0 ∧ 0 < s.boot.hdrOk.length ∧
       mayLoadImage (loadS l true) = true ∧ (loadS l true).boot.headers = true ∧ (loadS l true).boot.loading = some l) ∧
    (let l : Loading := { copy := 0, pinned := none, blocks := [[]], waiting := true, bad := none, ended := false, handed := [] }
     let s := loadS l true
     mayLoadImage s = true ∧ s.boot.loading = some l ∧ s.boot.candidates = [l.copy] ∧ tagOk s.boot.key [] 0 [] = false ∧ l.copy < s.boot.cause.length) ∧
    (let h : List Byte := zeros 12 ++ [3#8, 0#8]
     let l : Loading := { copy := 0, pinned := none, blocks := [h, []], waiting := true, bad := none, ended := false, handed := [] }
     let s := loadS l true
     mayLoadImage s = true ∧ s.boot.loading = some l ∧ 2 ≤ l.blocks.length ∧ l.blocks.length < hdrLength (nth l.blocks 0 [])) ∧
    (let s := { up with boot := { up.boot with hostReady := false } }
     mayBeReady s = true ∧ s.hx.perstHeld = false ∧ s.peer.a.phy ≠ 2 ∧ s.peer.b.phy ≠ 2 ∧ s.boot.noImage = false ∧ s.boot.phase ≠ 0) := by
  and_intros <;> decide +kernel
def ctl2 (f : Ctl → Ctl) : State := { up with ctl := ⟨f ctlUp, State.ctl0⟩ }
def aen1 : Aen := { type := 2, info := 1, log := 0xC1 }

theorem wit_CommandsAndQueues :
    (fetchAdmin up hdr0 = true ∧ up.boot.noImage = false ∧ up.ps.state = 0 ∧ up.ps.hs = none ∧ ctlRuns State.reset hdr0.port = false) ∧
    (let a := acceptAdmin hdr0 up
     let c := a.ctl.get hdr0.port
     8 ≤ granted a hdr0.port ∧ (∀ q ∈ c.cqs, q.qid ≠ 8) ∧ 63 + 1 ≤ ioqDepth a ∧ 15 < msixCount a ∧ (∀ q ∈ c.sqs, q.qid ≠ 8) ∧
       (∃ q ∈ c.cqs, q.qid = 1) ∧ (∃ q ∈ c.sqs, 1 ≤ q.qid)) ∧
    (let s := ctl2 (fun c => { c with sqs := c.sqs.take 1 })
     let a := acceptAdmin hdr0 s
     fetchAdmin s hdr0 = true ∧ ∃ q ∈ (a.ctl.get hdr0.port).cqs, 1 ≤ q.qid ∧ ∀ k ∈ (a.ctl.get hdr0.port).sqs, k.cqid ≠ q.qid) ∧
    (let a := acceptAdmin hdr0 up
     let c := a.ctl.get hdr0.port
     c.aers.length < aerLimit a ∧ c.aenWait = []) ∧
    (let s := ctl2 (fun c => { c with aenWait := [aen1] })
     let a := acceptAdmin hdr0 s
     let c := a.ctl.get hdr0.port
     fetchAdmin s hdr0 = true ∧ c.aers.length < aerLimit a ∧ c.aenWait = [aen1] ∧ c.aenMask.any (sameAen aen1) = false) ∧
    (let s := ctl2 (fun c => { c with aers := [1, 2, 3, 4] })
     let a := acceptAdmin hdr0 s
     fetchAdmin s hdr0 = true ∧ aerLimit a ≤ (a.ctl.get hdr0.port).aers.length) ∧
    (let s := ctl2 (fun c => { c with feat := { c.feat with kato := 1 } })
     (s.ctl.get .a).en = true ∧ (s.ctl.get .a).rdy = true ∧ (s.ctl.get .a).cfs = false ∧ (s.ctl.get .a).feat.kato ≠ 0) := by
  and_intros <;> decide +kernel

/-- A Flush waits for an earlier write. -/
def flushing1 : State := { up with cmds := [{ cmd1 .flush with gseq := 5 }], exts := [extJ] }

theorem wit_AdminInquiries :
    (fetchAdmin up hdr0 = true ∧ 3 ∈ [0, 1, 2, 3, 5, 6, 0x11, 0x12, 0x13] ∧ (identifyData (acceptAdmin hdr0 up) hdr0.port 2 0 0).isSome = true ∧
      0xC4 ∉ [1, 2, 3, 5, 0x0C, 0x80, 0xC1, 0xC2, 0xC3] ∧ (acceptAdmin hdr0 up).cmds = [] ∧
      has ((acceptAdmin hdr0 up).ctl.get hdr0.port).aers 7 = false) ∧
    (let c := { cmd1 .flush with gseq := 5 }
     let s := flushing1
     fetchAdmin s hdr0 = true ∧
     (acceptAdmin hdr0 s).cmds.find? (fun d => d.port = hdr0.port && d.sq = c.sq && d.cid = c.cid && d.live) = some c ∧
       underWay (acceptAdmin hdr0 s) c = false) ∧
    (0xFF ∉ adminOpcodes ∧ hdr1.sq ≠ 0 ∧ fetchIo up hdr1 = true ∧ 0xFF ∉ ioOpcodes) ∧
    ((acceptAdmin hdr0 up).prm.host ≠ none ∧ 2 ^ mdts (acceptAdmin hdr0 up) * 4096 < 2 ^ 20 ∧ 512 ≤ 2 ^ mdts (acceptAdmin hdr0 up) * 4096) ∧
    ReadsSettled (acceptAdmin hdr0 flushing1) := by
  refine ⟨?_, ?_, ?_, ?_, (no_readers _ (by decide +kernel)).1⟩ <;> decide +kernel

theorem wit_FeatureValues :
    featureLoses (acceptAdmin hdr0 up) (.feature (some hdr0.port) 0x0B) (hostMaster hdr0.port) = false ∧ knownFeature 0x85 = false ∧
    plainFeature 0x0F = true ∧ nsFeature 0x0F = false ∧ plainFeature 0x0B = true ∧ nsFeature 0x0B = false := by
  and_intros <;> decide +kernel

/-- An image's header block: ten sections of one block each (03 R74). -/
def header1 : List Byte :=
  le 4 0x49565241 ++ le 2 1 ++ le 2 Config.part ++ le 4 5 ++ le 2 11 ++ [0#8, 0#8, 0#8, 1#8] ++ le 2 10 ++ zeros 44 ++
  (requiredTypes.zipIdx.flatMap (fun t => le 2 t.1 ++ zeros 2 ++ le 4 (t.2 + 1) ++ le 4 1 ++ le 4 16)) ++ zeros 3872

theorem wit_ImageStaging :
    (up.stage = none ∧ 1 ≤ pieceMax up ∧ header1.length = 1 * blockSize ∧ headerCause (header1.take blockSize) = .none ∧
      1 < hdrLength (header1.take blockSize) ∧ hdrLength (header1.take blockSize) ≤ 2048) ∧
    (let g : Staging := { owner := .a, next := 1, length := 11, last := none }
     let s := { up with stage := some g }
     fetchAdmin s hdr0 = true ∧ s.stage = some g ∧ 2 ≠ g.next) ∧
    (let g : Staging := { owner := .a, next := 11, length := 11, last := some (0, 7) }
     g.last.isSome = true) := by
  and_intros <;> decide +kernel

def key1 : KeyRec := { slot := 8, k256 := false, state := 1, seq := 0, gen := 0, key := zeros 16 }
def ctx1 (p : Port) : Ctx := { owner := p, k256 := false, source := 0, blocks := 0, chain := zeros 16, key := zeros 16 }
def lev (n : Nat) : FlashRec := { type := 0x4C, arg := n, arg2 := 0, seq := 0, gen := 0, secs := 0 }
def inBank (b : Bank) (s : State) : State := { s with rf := { s.rf with banks := Vector.replicate 2 b } }
def withCtx1 (p : Port) : State := { up with cleat := { State.cleat0 with ctx := modVec State.cleat0.ctx 15 (fun _ => some (ctx1 p)) } }

theorem wit_CleatSlotsAndContexts :
    (let a := acceptAdmin hdr0 up
     verifyHold a = false ∧ ownedByOther a hdr0.port 15 = false ∧ level a = 0) ∧
    (let s := inBank { State.bank0 with keys := [key1] } up
     fetchAdmin s hdr0 = true ∧ slotKey (acceptAdmin hdr0 s) 8 = some (zeros 16)) ∧
    (let a := acceptAdmin hdr0 (withCtx1 .a)
     fetchAdmin (withCtx1 .a) hdr0 = true ∧ verifyHold a = false ∧ ownedByOther a hdr0.port 15 = false ∧ ctxAt a 15 = some (ctx1 .a) ∧ level a = 0) ∧
    (let s := inBank { State.bank0 with level := [lev 1] } up
     fetchAdmin s hdr0 = true ∧ verifyHold (acceptAdmin hdr0 s) = false ∧ 1 ≤ level (acceptAdmin hdr0 s)) ∧
    (let a := acceptAdmin hdr0 (withCtx1 .b)
     fetchAdmin (withCtx1 .b) hdr0 = true ∧ verifyHold a = false ∧ ownedByOther a hdr0.port 15 = true) ∧
    (let c := ctx1 .a
     c.blocks < 2 ^ 32 ∧ c.source = 0 ∧ c.chain.length = 16 ∧ c.key.length = (if c.k256 then 32 else 16)) ∧
    ((zeros 72).length = 72 ∧ (restorePlain false (zeros 72)).bind (ctxOfPlain .a) = none) := by
  and_intros <;> decide +kernel

theorem wit_CleatOperations :
    (let a := acceptAdmin hdr0 (withCtx1 .a)
     fetchAdmin (withCtx1 .a) hdr0 = true ∧ verifyHold a = false ∧ (zeros 4096).length = 16 * 256 ∧ ownedByOther a hdr0.port 15 = false ∧
       ctxAt a 15 = some (ctx1 .a) ∧ (ctx1 .a).blocks + 256 < 2 ^ 32) ∧
    (let a := acceptAdmin hdr0 up
     verifyHold a = false ∧ ctxAt a 15 = none) ∧ 256 < 257 := by
  and_intros <;> decide +kernel

theorem wit_EventRegisters :
    (let s := { up with dev := { up.dev with secs := 21600 } }
     s.boot.gates = true ∧ s.evt.quiet + 21600 ≤ s.dev.secs ∧ ∀ e ∈ s.evt.queue, ¬ (e.g = 1 ∧ e.bit = 13)) := by
  and_intros <;> decide +kernel

theorem wit_WriteCommands :
    (fetchIo up hdr1 = true ∧ NamesNew up) ∧
    (let a := acceptIo hdr1 up
     refuseIo a hdr1 1 32 32 true true = none ∧ refuseIo a hdr1 1 0 64 true false = none ∧ refuseIo a hdr1 1 63 1 true false = none ∧
       refuseIo a hdr1 1 0 0 false false = none ∧ portASeqs a = []) ∧
    (let e := { ext1 .waiting with port := .b, stamp := 1 }
     let s := { up with exts := [e], hx := { up.hx with gseq := 2 } }
     fetchIo s hdr1 = true ∧ argMin id (portASeqs (acceptIo hdr1 s)) = some 1 ∧ behindPortA (acceptIo hdr1 s) e = true) ∧
    NamesNew { up with exts := [{ ext1 .waiting with port := .b, stamp := 1 }], hx := { up.hx with gseq := 2 } } := by
  refine ⟨⟨?_, (names_new up rfl rfl).1⟩, ?_, ?_, names_of _ ?_ ?_ ?_⟩ <;> decide +kernel
def extB : Extent := { extJ with blks := [{ xblk .journaled with blk := some blk1 }] }
def withB : State := { up with exts := [extB] }

theorem names_withB : NamesNew withB ∧ FusedWait withB ∧ FusedBegun withB :=
  ⟨names_of _ (by decide +kernel) (by decide +kernel) (by decide +kernel), (no_readers withB (by decide +kernel)).2⟩

/-- Block 5 of namespace 1 is on the medium. -/
def mapped1 : State :=
  { up with
      map := { up.map with
        sets := [{ idx := 32768, members := [some 0, some 16384, some 32768, some 49152] ++ List.replicate 12 none, mode := 1, state := 2, role := 1,
                   layout := 0, d := 3, closeGseq := 0, createGseq := 0, fill := 0, row := [], failed := [], rebuild := false, released := false,
                   erased := [] }],
        hanks := [(0, .strand 0)], strands := [(0, List.replicate 5 none ++ some { set := 32768, block := 0 } :: List.replicate 26 none)] } }

theorem wit_RefusalsAndBufferReads :
    (let a := acceptIo hdr1 up
     fetchIo up hdr1 = true ∧ refuseIo a hdr1 1 63 (1 + 1) true true = some (0, 0x80, 0) ∧ refuseIo a hdr1 2 0 (0 + 1) true false = some (0, 0x0B, 0) ∧
     refuseIo a hdr1 1 0 (32 + 1) false true = some (0, 0x02, 0) ∧ refuseIo a hdr1 1 64 (0 + 1) false false = some (0, 0x80, 0) ∧
     [blk1].length = 0 + 1 ∧ nsOf a 1 = some ns1 ∧ heldBack (a.ctl.get hdr1.port) 1 a.hx.stamp = false ∧ ns1.size < 64 + (0 + 1)) ∧
    (let s := { up with safe := { up.safe with stopper := true } }
     fetchIo s hdr1 = true ∧ refuseIo (acceptIo hdr1 s) hdr1 1 0 (0 + 1) true true = some (0, 0x20, 0) ∧ (acceptIo hdr1 s).safe.stopper = true) ∧
    (let a := acceptIo hdr1 withB
     let f : Nat → Blk := fun i => if i = 0 then blk1 else zeroBlk
     fetchIo withB hdr1 = true ∧ (NamesNew withB ∧ FusedWait withB ∧ FusedBegun withB) ∧ (nsLayout a 1).cross ≠ 5 ∧ refuseIo a hdr1 1 5 (1 + 1) false true = none ∧
       refuseIo a hdr1 1 5 (1 + 1) false false = none ∧ (∃ g, dramBlock a 1 (5 + 0) = some (f 0, g)) ∧
       (dramBlock a 1 (5 + 1) = none ∧ look a 1 (5 + 1) = .unmapped ∧ f 1 = zeroBlk) ∧ [blk1, zeroBlk].length = 1 + 1 ∧
       sameBlk (nsMeta a 1) (f 0) blk1 = true ∧ sameBlk (nsMeta a 1) (f 1) blk1 = false) ∧
    (let a := acceptIo hdr1 mapped1
     let m : MAddr := { set := 32768, block := 0 }
     fetchIo mapped1 hdr1 = true ∧ NamesNew mapped1 ∧ ReadsSettled mapped1 ∧ (nsLayout a 1).cross ≠ 5 ∧
       ((∀ j, j ≤ 0 → look a 1 (5 + j) ≠ .bad) ∧ dramBlock a 1 (5 + 0) = none ∧ look a 1 (5 + 0) = .mapped m ∧ [blk1].length = 0 + 1 ∧
         refuseIo a hdr1 1 5 (0 + 1) false true = none ∧ refuseIo a hdr1 1 5 (0 + 1) false false = none ∧
         (setBy a m.set).bind (fun e => nth e.members (placeOf a e m.block).1 none) = some 16384)) := by
  refine ⟨?_, ?_, ⟨?_, names_withB, ?_, ?_, ?_, ⟨1, ?_⟩, ?_⟩, ?_, (names_new mapped1 rfl rfl).1, (no_readers mapped1 ?_).1, ?_, ?_⟩ <;> decide +kernel

def withB2 : State := { withB with hx := { withB.hx with gseq := 2 } }

/-- An earlier fused pair's Compare still reads its block. -/
def deciding : State :=
  { up with cmds := [{ cmd1 (.fused blk1 { cid := 9, nsid := 1, slba := 5, nlb1 := 0, fua := false, blk := zeroBlk }) with found := [.waiting], begun := true }],
            hx := { up.hx with gseq := 2 } }

theorem wit_FlushAndFusedPair :
    (let a := acceptIo hdr1 up
     fetchIo up hdr1 = true ∧ NamesNew up ∧ refuseIo a hdr1 1 0 0 false false = none ∧ (∀ e ∈ a.exts, readyToClose a e = false) ∧
       (∀ e ∈ a.exts, isHostExt e = true → covers 1 e.nsid = true → e.gseq < a.hx.gseq → mediumDone a e = true) ∧
       ∀ c ∈ a.cmds, isFused c = true → covers 1 c.nsid = true → a.hx.gseq ≤ c.gseq) ∧
    (let s := withB2
     let a := acceptIo hdr1 s
     fetchIo s hdr1 = true ∧ refuseIo a hdr1 1 0 0 false false = none ∧ (∀ e ∈ a.exts, readyToClose a e = false) ∧
       ∃ e ∈ a.exts, isHostExt e = true ∧ covers 1 e.nsid = true ∧ e.gseq < a.hx.gseq ∧ mediumDone a e = false) ∧
    (let a := acceptIo hdr1 deciding
     fetchIo deciding hdr1 = true ∧ NamesNew deciding ∧ refuseIo a hdr1 1 0 0 false false = none ∧
       ∃ c ∈ a.cmds, isFused c = true ∧ covers 1 c.nsid = true ∧ c.gseq < a.hx.gseq) ∧
    (let a := acceptIo hdr1 withB2
     let g := (giveGseq hdr1.port a).1
     let a1 := (giveGseq hdr1.port a).2
     let w : FusedWrite := { cid := 9, nsid := 1, slba := 5, nlb1 := 0, fua := false, blk := zeroBlk }
     fetchIo withB2 hdr1 = true ∧ (NamesNew withB2 ∧ FusedWait withB2 ∧ FusedBegun withB2) ∧ w.nlb1 = 0 ∧ w.slba = 5 ∧ w.nsid = 1 ∧ 1 ≠ 0 ∧
       refuseIo a hdr1 1 5 1 true true = none ∧
       (∀ e ∈ a1.exts, isHostExt e = true → coversBlock e 1 5 = true → e.gseq < g → givesBlock e 5 = true ∨ e.stopped = true) ∧
       (∀ c ∈ a1.cmds, isFused c = true → c.nsid = 1 → c.slba = 5 → g ≤ c.gseq) ∧ dramBelow (some g) a1 1 5 = some (blk1, 1) ∧ sameBlk (nsMeta a 1) blk1 blk1 = true ∧
       sameBlk (nsMeta a 1) blk1 zeroBlk = false) := by
  refine ⟨⟨?_, (names_new up rfl rfl).1, ?_⟩, ?_, ⟨?_, names_of _ ?_ ?_ ?_, ?_⟩, ?_, ⟨names_of _ ?_ ?_ ?_, (no_readers withB2 ?_).2⟩, ?_⟩ <;> decide +kernel

def registered : State := { up with resv := [{ nsid := 1, hostId := 0#128, key := 7#64 }] }

theorem wit_ReservationCommands :
    (let a := acceptIo hdr1 up
     fetchIo up hdr1 = true ∧ NamesNew up ∧ nsOf a 1 = some ns1 ∧ heldBack (a.ctl.get hdr1.port) 1 a.hx.stamp = false ∧ a.jrnl.state = 4 ∧
       keyOf a 1 (hostIdOf a hdr1.port) = none) ∧
    (let a := acceptIo hdr1 registered
     fetchIo registered hdr1 = true ∧ NamesNew registered ∧ nsOf a 1 = some ns1 ∧ heldBack (a.ctl.get hdr1.port) 1 a.hx.stamp = false ∧ a.jrnl.state = 4 ∧
       keyOf a 1 (hostIdOf a hdr1.port) = some 7#64 ∧ ∀ x ∈ a.hold, x.nsid ≠ 1) ∧
    (let x : Holder := { nsid := 1, hostId := 0#128, rtype := 2 }
     let s := { registered with hold := [x] }
     let a := acceptIo hdr1 s
     fetchIo s hdr1 = true ∧ NamesNew s ∧ keyOf a 1 (hostIdOf a hdr1.port) = some 7#64 ∧ a.hold.find? (fun x => x.nsid = 1) = some x ∧
       x.hostId = hostIdOf a hdr1.port ∧ x.rtype ≤ 2) := by
  refine ⟨⟨?_, (names_new up rfl rfl).1, ?_⟩, ⟨?_, (names_new registered rfl rfl).1, ?_⟩, ⟨?_, (names_new _ rfl rfl).1, ?_⟩⟩ <;> decide +kernel

theorem wit_TokensAndAdmission :
    (let e := ext1 .waiting
     let s := { up with exts := [e] }
     argMin (fun e => e.stamp) (s.exts.filter wantsTokens) = some e ∧ e.blks.length ≤ tokensFree s ∧ s.safe.stopper = false ∧ powerFails s = false ∧
       isHostExt e = true) ∧
    (let e := ext1 .waiting
     let s := { up with exts := [e], pwr := { up.pwr with budget := 0 } }
     argMin (fun e => e.stamp) (s.exts.filter wantsTokens) = some e ∧ tokensFree s < e.blks.length) ∧
    (let e := ext1 .filling
     let s := { up with exts := [e] }
     extBy s e.id = some e ∧ e.blks[0]? = some (xblk .filling) ∧ (xblk .filling).tok = .filling ∧ (xblk .filling).blk = none ∧ isHostExt e = true) ∧
    (let e := { ext1 .filling with blks := [{ xblk .filling with blk := some blk1 }], origin := .host 50 }
     let c := cmd1 .write
     let s := { up with exts := [e], cmds := [c] }
     extBy s e.id = some e ∧ readyToAdmit s e = true ∧ admitRoom s = true ∧ e.origin = .host c.key ∧ cmdBy s c.key = some c ∧ c.live = true ∧
       powerFails s = false) ∧
    (let e := { ext1 .filling with blks := [{ xblk .filling with blk := some blk1 }] }
     let s := { up with exts := [e], jrnl := { up.jrnl with otherFree := false, next := 250000 } }
     extBy s e.id = some e ∧ readyToAdmit s e = true ∧ admitRoom s = false) ∧
    ReadsSettled up ∧ ReadsSettled { up with cmds := [cmd1 .write] } := by
  refine ⟨?_, ?_, ?_, ?_, ?_, (no_readers _ ?_).1, (no_readers _ ?_).1⟩ <;> decide +kernel

def rec1 (n : Nat) (b : JBody) : JRec := { recno := n, gseq := 1, carried := false, replayed := false, ctrl2 := false, body := b }
def jr (rs : List JRec) (horizon next : Nat) (s : State) : State :=
  { s with jrnl := { s.jrnl with recs := rs, horizon := horizon, next := next } }

def intent1 : JBody := .intent 1 5 0 0 mode0 0 0#64 0

theorem wit_RecordsAndUpkeep :
    (∀ r ∈ up.jrnl.recs, r.recno ≠ up.jrnl.horizon + 1) ∧
    (let e := { ext1 .filling with recno := some 1, origin := .mirror .a 0 5 }
     let s := jr [rec1 1 intent1] 0 2 { up with exts := [e] }
     3 ≤ s.jrnl.state ∧ s.jrnl.recs.find? (fun r => r.recno = s.jrnl.horizon + 1) = some (rec1 1 intent1) ∧
       s.exts.find? (fun x => x.recno = some 1 && !x.durable) = some e ∧ e.mode.dealloc = false ∧ e.origin = .mirror .a 0 5 ∧ s.flush = none ∧
       spillable (journaled e) = true ∧ (flushing [] false).sealing = false) ∧
    (let r := rec1 1 (.reservation 1 0#128 7#64 0 0)
     let s := jr [r] 0 2 up
     3 ≤ s.jrnl.state ∧ s.jrnl.recs.find? (fun q => q.recno = s.jrnl.horizon + 1) = some r ∧ r.carried = false ∧
       r.body = .reservation 1 0#128 7#64 0 0 ∧ ∀ g ∈ s.map.spills, g.dirty = false) ∧
    (let r := rec1 1 (.reservation 1 0#128 7#64 1 2)
     let s := jr [r] 0 2 up
     s.jrnl.recs.find? (fun q => q.recno = s.jrnl.horizon + 1) = some r ∧ r.carried = false ∧ r.body = .reservation 1 0#128 7#64 1 2) ∧
    (let r := rec1 1 (.nsState 1 1)
     let c := { cmd1 .resv with waitRec := some 1 }
     let s := jr [r] 0 2 { up with cmds := [c] }
     3 ≤ s.jrnl.state ∧ s.jrnl.recs.find? (fun q => q.recno = s.jrnl.horizon + 1) = some r ∧ r.body = .nsState 1 1 ∧
       r.carried = false ∧ s.jrnl.waiting = [] ∧ (∀ q ∈ s.jrnl.recs, q.recno ≤ r.recno) ∧ c ∈ s.cmds ∧ c.waitRec = some r.recno ∧ c.live = true ∧ cmdDw0 c = 0 ∧ powerFails s = false) ∧
    (let s := { up with jrnl := { up.jrnl with trigger := some 3 } }
     s.jrnl.trigger = some 3 ∧ s.jrnl.runNum = none ∧ s.jrnl.state = 4 ∧ s.map.state = 3 ∧ s.safe.stopper = false ∧
       ∀ p ∈ s.braid.splices, p.phase ≠ .switch) ∧
    (let im : Image := { num := 1, begin_ := 1, gseq := 1, hanks := [], strands := [], levels := [], fidAt := [], patrol := [], dirty := [], units := [], pages := [], dirs := [], pairs := [] }
     let s := { up with jrnl := { up.jrnl with runNum := some 1 }, media := { up.media with work := some im } }
     s.jrnl.runNum = some 1 ∧ s.media.work = some im ∧ im.num = 1 ∧ s.jrnl.state = 4 ∧
       ∀ u ∈ im.units, unitWorks s u = false) ∧
    (let s := { up with jrnl := { up.jrnl with carryDue := true } }
     s.jrnl.carryDue = true ∧ s.jrnl.state = 4 ∧ s.safe.stopper = false ∧ s.jrnl.recs = [] ∧ s.jrnl.waiting = []) ∧
    (let s := { up with jrnl := { up.jrnl with recs := [rec1 1 intent1], carryDue := true, next := 262145, horizon := 262144 } }
     let rs := s.jrnl.recs.filter (fun r => decide (halfOf r.recno ≠ activeHalf s) && isLive s r && lastCopy s r)
     s.jrnl.carryDue = true ∧ s.jrnl.state = 4 ∧ s.safe.stopper = false ∧ rs ≠ [] ∧ rs.length ≤ Config.halfSlots) ∧
    (let r := { rec1 1 intent1 with carried := true }
     let s := { jr [r] 0 2 up with jrnl := { (jr [r] 0 2 up).jrnl with carryTo := some 1 } }
     3 ≤ s.jrnl.state ∧ s.jrnl.recs.find? (fun q => q.recno = s.jrnl.horizon + 1) = some r ∧ r.carried = true ∧ s.jrnl.carryTo = some r.recno ∧
       s.jrnl.waiting = [] ∧ s.exts = [] ∧ s.cmds = [] ∧ s.flush = none ∧ s.braid.splices = [] ∧ s.braid.owed = [] ∧
       ∀ g ∈ s.map.spills, g.dirty = false) ∧
    (5 < 6 ∧ up.safe.stopper = false) ∧ FusedBegun up := by
  refine ⟨?_, ?_, ?_, ?_, ?_, ?_, ?_, ?_, ?_, ?_, ?_, (no_readers up ?_).2.2⟩ <;> decide +kernel
/-! ### Placement, reads, start-up of the journal and the map, Motur, channels -/

def tgtReady : Target := { State.target0 with fitted := true, state := .ready }
def chanRun : Channel := { State.channel0 with state := 3, mode := 1, targets := tgtReady :: List.replicate 7 State.target0 }

/-- Two channels run, with their supply on; each has 17 free units. -/
def pool : State :=
  { up with
      pins := { up.pins with npwrEn := [true, true, true, true] },
      media := { up.media with channels := modVec (modVec up.media.channels 0 (fun _ => chanRun)) 1 (fun _ => chanRun) },
      map := { up.map with
        units := (List.range 34).map (fun i => { addr := 16384 * (i % 2) + i / 2, pe := 0, state := 0 }) } }

def extFull : Extent := { extJ with slba := 0, nlb1 := 31, blks := List.replicate 32 (xblk .journaled) }

def set1 : SetE :=
  { idx := 32768, members := [some 0, some 16384], mode := 1, state := 1, role := 1, layout := 0, d := 1, closeGseq := 0, createGseq := 0, fill := 0,
    row := [], failed := [], rebuild := false, released := false, erased := [] }

def runNow : OpRun := { issued := true, suspends := 0, suspended := false, overdue := false }
def prog1 : Prog := { id := 5, set := 32768, row := 0, ch := 0, unit := 0, slots := [], items := [.ext 3 0], header := none, run := runNow }
def nand1 : NandUnit := { addr := 0, header := none, pages := [] }

theorem wit_PlacementAndPrograms :
    (let s := { up with exts := [extJ] }
     extBy s extJ.id = some extJ ∧ mayPlace s extJ = true ∧ freeSets s ≤ 16) ∧
    (let s := { pool with exts := [extFull] }
     let w := warm (hankOf s extFull.nsid extFull.slba) s
     extBy s extFull.id = some extFull ∧ mayPlace s extFull = true ∧ 16 < freeSets s ∧ extFull.zero = false ∧ extFull.nlb1 = 31 ∧
       extFull.blks.length = 32 ∧ hankDest w 32 = (1, 1, false) ∧ (takeRun 1 1 extFull.layout 32 true false false w).isSome = true) ∧
    (let s := { pool with media := { pool.media with progs := [prog1], nand := [nand1] }, map := { pool.map with sets := [set1] } }
     s.media.progs.find? (fun q => q.id = prog1.id) = some prog1 ∧ running prog1.run = true ∧ prog1.header = none ∧ prog1.set ≠ Config.noSet ∧
       nandUnit s prog1.unit = some nand1 ∧ setBy s prog1.set = some set1 ∧ set1.state = 1) := by
  and_intros <;> decide +kernel

def slot1 (lost : Bool) : Slot :=
  { nsid := 1, kind := 0, lost := lost, zeroFill := false, replayed := false, spill := false, hostMeta := false, layout := 0, lba := 5, gseq := 1,
    check := 0#64, set := 32768, block := 0, blk := blk1 }

def want1 : Want := { reader := .cmd 50, idx := 0, slot := 0 }
def read1 (level : Nat) : NRead := { rid := 1, unit := 0, page := 1, level := level, left := [0], softBad := false, issued := true, wants := [want1] }
def cmdR : HostCmd := { cmd1 .read with found := [.waiting] }
def reading (level : Nat) : State :=
  { pool with cmds := [cmdR], media := { pool.media with reads := [read1 level], nand := [{ nand1 with pages := [(1, [slot1 false])] }] } }

theorem reading_fused (level : Nat) : FusedWait (reading level) ∧ FusedBegun (reading level) := by
  refine ⟨fun c hc d w hk => ?_, fun c hc hf => ?_⟩ <;> have h : c = cmdR := by simpa [reading] using hc
  · subst h
    simp [cmdR, cmd1] at hk
  · subst h
    simp [cmdR, cmd1, isFused] at hf

theorem wit_PageReads :
    (let s := reading 0
     let r := read1 0
     s.media.reads.find? (fun x => x.rid = r.rid) = some r ∧ r.wants = [want1] ∧ r.left = [want1.slot] ∧ want1.reader = .cmd cmdR.key ∧ want1.idx = 0 ∧
       cmdBy s cmdR.key = some cmdR ∧ (∀ d ∈ s.cmds, d.key = cmdR.key → d = cmdR) ∧ cmdR.kind = .read ∧ cmdR.found = [.waiting] ∧ cmdR.live = true ∧
       pageSlot s r want1.slot = some (slot1 false) ∧ powerFails s = false ∧ unitUsable s r.unit = true ∧ r.issued = true ∧ (slot1 false).lost = false ∧ r.level = 0 ∧
       4 * 0 ≤ 3 * hardCap s) ∧
    (let s := reading 3
     let r := read1 3
     s.media.reads.find? (fun x => x.rid = r.rid) = some r ∧ pageSlot s r want1.slot = some (slot1 false) ∧ powerFails s = false ∧
       unitUsable s r.unit = true ∧ 1 ≤ r.level ∧ r.level = 3 ∧ (nsLayout s (slot1 false).nsid).cross = 0 ∧ s.safe.stopper = false) ∧
    (FusedWait (reading 0) ∧ FusedBegun (reading 0)) ∧ (FusedWait (reading 3) ∧ FusedBegun (reading 3)) := by
  refine ⟨?_, ?_, reading_fused 0, reading_fused 3⟩ <;> decide +kernel

def scanning (rs : List JRec) : State := { jr rs 0 1 up with jrnl := { State.jrnl0 with recs := rs }, boot := { up.boot with hostReady := false } }

/-- A device whose journal is to be replayed. -/
def replaying (rs : List JRec) : State :=
  { up with
      boot := { up.boot with hostReady := false }, map := State.map0,
      jrnl := { State.jrnl0 with recs := rs, state := 2, scanned := true, surveyed := true, next := rs.length + 1, horizon := rs.length } }

def timing1 : ReadTiming := { mode := 1, mts := 1600, drive := 0, odt := 0, tparam := List.replicate 16 1, tRead := [], tLevels := [], tReset := [], tParam := [] }
def mapping1 : Mapping := { promoteT := 4, demoteT := 2, wearSpread := 100, gcT1 := 512, gcT2 := 256, gcT3 := 64, opPermil := 70, foldPct := 50 }

theorem wit_ScanReplayAndLoad :
    (let s := scanning [rec1 9 intent1]
     s.jrnl.state = 0 ∧ s.pwr.railsOk = true ∧ s.safe.stopper = false ∧ tornSlots (highestPass s [1]) [1] = [1] ∧
       tornSlots (highestPass s [0]) [0] = [] ∧ tornSlots (highestPass s [10]) [10] = []) ∧
    (let s := { up with jrnl := { up.jrnl with state := 1 }, prm := { up.prm with readTiming := some timing1 } }
     maySurvey s = true ∧ s.safe.stopper = false) ∧
    (let s := replaying []
     mayReplay s = true ∧ openIntents s = [] ∧ s.map.state = 0) ∧
    (let r := rec1 1 intent1
     let s := replaying [r]
     mayReplay s = true ∧ openIntents s = [r] ∧ s.map.state = 0 ∧ r.body = .intent 1 5 0 0 mode0 0 0#64 0 ∧ mode0.dealloc = false ∧
       uncovered s 1 r.gseq 5 0 = [0] ∧ sourceOf s 1 r.gseq 5 = .none ∧ mode0.buffered = true) ∧
    (let m := { mode0 with buffered := false }
     let r := rec1 1 (.intent 1 5 0 0 m 0 0#64 0)
     let s := replaying [r]
     mayReplay s = true ∧ openIntents s = [r] ∧ s.map.state = 0 ∧ uncovered s 1 r.gseq 5 0 = [0] ∧ sourceOf s 1 r.gseq 5 = .none ∧ m.buffered = false) ∧
    (∀ n id key t, (rec1 1 intent1).body ≠ .reservation n id key t 0) ∧
    (let s := { replaying [] with prm := { up.prm with mapping := some mapping1 } }
     mayLoad s = true ∧ s.jrnl.state ≠ 4 ∧ deltaRecs s = [] ∧ 0 < 1 ∧ ((imageOf s).isNone && s.map.hanks.isEmpty) = true) ∧
    (let s := { up with map := State.map0, prm := { up.prm with mapping := some mapping1 } }
     mayLoad s = true ∧ s.jrnl.state = 4) ∧
    NoneSpilled (replaying []) ∧ ∀ m : Mode, NoneSpilled (replaying [rec1 1 (.intent 1 5 0 0 m 0 0#64 0)]) := by
  and_intros
  all_goals first
    | (intro n id key t; simp [rec1, intent1]; done)
    | (intro q hq; simp [replaying] at hq)
    | (intro m q hq n sl nlb x o p l a e
       have hq : q = rec1 1 (.intent 1 5 0 0 m 0 0#64 0) := by simpa [replaying] using hq
       simp [hq, rec1] at e)
    | decide +kernel

/-- A closed set that holds one valid block of namespace 1. -/
def closed (e : SetE) : State :=
  { pool with map := { pool.map with sets := [e], hanks := [(0, .strand 0)], strands := [(0, some { set := e.idx, block := 0 } :: List.replicate 31 none)] } }

def set2 : SetE := { set1 with state := 2 }
def slcSet : SetE := { set2 with idx := 3, mode := 0, role := 0, fill := 1 }

theorem wit_MoturWork :
    (mayWork up = true ∧ demotable up 0 = false ∧ foldDue up = false) ∧
    (let s := closed slcSet
     mayWork s = true ∧ foldDue s = true ∧
       argMin (fun e => e.closeGseq) (s.map.sets.filter (fun e => e.mode = 0 && e.state = 2 && validOf s e.idx > 0)) = some slcSet) ∧
    (let s := closed set2
     mayWork s = true ∧ rebuildable s = none ∧ ((evacSet s).isSome = true ∨ s.map.rewrites = []) ∧ collectable s = some set2) ∧
    (let s := { closed set2 with map := { (closed set2).map with rewrites := [(16384, 1)] } }
     mayWork s = true ∧ rebuildable s = none ∧ evacSet s = none ∧ s.map.rewrites = (16384, 1) :: [] ∧ blocksIn s (onUnit s 16384) ≠ []) ∧
    (let s := { pool with map := { pool.map with rewrites := [(0, 1)] } }
     mayWork s = true ∧ rebuildable s = none ∧ evacSet s = none ∧ blocksIn s (onUnit s 0) = []) ∧
    (let e := { set2 with members := [some 0, some 32768] }
     let s := closed e
     mayWork s = true ∧ rebuildable s = some e) := by
  and_intros <;> decide +kernel

def use0 (role : Nat) : UnitUse :=
  { state := 0, role := role, cell := 1, set := none, layout := 0, d := 0, createGseq := 0, members := List.replicate 16 none, partner := none }
def erase1 (run : OpRun) : Erase := { id := 6, unit := 0, cell := 1, after := 0, use := use0 6, run := run }
def unit1 : UnitE := { addr := 0, pe := 0, state := 0 }

theorem wit_SetErasure :
    (let s := { pool with map := { pool.map with sets := [set2] } }
     mayWork s = true ∧ setBy s set2.idx = some set2 ∧ mayErase s set2 = true ∧ set2.failed = [] ∧
       (∀ m ∈ set2.members.filterMap id, unitUsable s m = true ∧ has s.media.retired m = false ∧ ∀ x ∈ s.map.sets, x.idx ≠ set2.idx → some m ∉ x.members) ∧
       0 < 16 ∧ (nth set2.members 0 none).isSome = true) ∧
    (let s := { pool with media := { pool.media with erases := [erase1 runNow] } }
     s.media.erases.find? (fun e => e.unit = unit1.addr && running e.run) = some (erase1 runNow) ∧ unitBy s unit1.addr = some unit1 ∧
       ∀ d ∈ s.map.sets, d.state = 4 → some unit1.addr ∉ d.members) ∧
    (let d := { set2 with state := 4 }
     let s := { pool with media := { pool.media with erases := [erase1 runNow] }, map := { pool.map with sets := [d] } }
     s.media.erases.find? (fun e => e.unit = unit1.addr && running e.run) = some (erase1 runNow) ∧ (erase1 runNow).use.role = 6 ∧
       unitBy s unit1.addr = some unit1 ∧ s.map.sets.find? (fun e => e.state = 4 && e.members.any (fun m => m = some unit1.addr)) = some d ∧
       setBy s d.idx = some d ∧ 1 < 16 ∧ 1 ≠ unitCh unit1.addr ∧ nth d.members 1 none = some 16384 ∧ unitUsable s 16384 = true ∧ has d.erased 1 = false) ∧
    (let p := { prog1 with header := some (mkHeader pool 6 1 0 1 none (layout0 pool) 0 0 [] none, use0 6), items := [] }
     let s := { pool with media := { pool.media with progs := [p], nand := [nand1] } }
     s.media.progs.find? (fun q => q.id = p.id) = some p ∧ running p.run = true ∧ (use0 6).role ≠ 3 ∧ nandUnit s p.unit = some nand1 ∧
       unitBy s p.unit = some unit1) := by
  and_intros <;> decide +kernel

theorem shaped_up : Shaped up := by
  refine ⟨?_, rfl, rfl, ⟨rfl, ?_⟩, rfl, rfl⟩ <;> decide +kernel

def write1 : WriteTiming :=
  { ersMinUs := 100, ersSuspMax := 4, pgmSuspMax := 2, pgmMinUs := 50, vrefq := 0, zq := false, tProgSlc := [], tProgNative := [], tEraseSlc := [], tEraseNative := [],
    tPsusp := [], tPres := [], tEsusp := [], tEres := [] }

/-- Retraining begins at 20 °C, in either direction. -/
theorem wit_ChannelStart :
    (let s := { up with prm := { up.prm with readTiming := some timing1, writeTiming := some write1 } }
     15 < 16 ∧ (chan s 15).state = 0 ∧ s.prm.geometry.isSome = true ∧ s.pwr.railsOk = true ∧ s.ps.state = 0 ∧ s.prm.readTiming = some timing1 ∧
       s.prm.writeTiming.isSome = true ∧ s.boot.loading = none ∧ Shaped s ∧ nth (geo s).fitted 15 0 = 1 ∧ (tgtOf s 15 0).state = .uninit ∧ 2 < 3 ∧
       paramSame (geo s) page1 = true ∧ paramSame (geo s) { page1 with spare := 1 } = false) ∧
    (let s := { pool with
       media := { pool.media with channels := modVec pool.media.channels 0 (fun c => { c with trainTemp := some 100 }) },
       therm := { pool.therm with zones := [none, none, none, some 420, none] } }
     nandTemp s 0 = some 420 ∧ (chan s 0).trainTemp = some 100 ∧ (chan s 0).state = 3 ∧ 320 ≤ ((420 : Int) - 100).natAbs ∧
       ((419 : Int) - 100).natAbs < 320 ∧ channelBusy s 0 = false) ∧ channelBusy (reading 0) 0 = true := by
  refine ⟨⟨?_, ?_, ?_, ?_, ?_, ?_, ?_, ?_, ⟨shaped_up.1, rfl, rfl, shaped_up.4, rfl, rfl⟩, ?_⟩, ?_⟩ <;> decide +kernel
/-! ### Failures, calibration, and the link -/

def erasing (run : OpRun) (s : State) : State := { s with media := { s.media with erases := [erase1 run] } }

theorem wit_FailuresAndSuspends :
    (0 < (chan pool 0).targets.length ∧ (tgtOf pool 0 0).fitted = true ∧ (tgtOf pool 0 0).state = .ready ∧ outstanding pool 0 0 = false ∧
      targetBusy pool 0 0 = false ∧ (chan pool 0).state ≠ 0 ∧ supplied pool 0 = true) ∧
    (let s := erasing runNow pool
     (tgtOf s 0 0).fitted = true ∧ (tgtOf s 0 0).state = .ready ∧ targetBusy s 0 0 = true ∧ outstanding s 0 0 = true) ∧
    (let fitted := List.replicate 8 { State.target0 with fitted := true }
     let s := { pool with media := { pool.media with channels := modVec pool.media.channels 15 (fun c => { c with state := 1, targets := fitted }) } }
     15 < 16 ∧ 7 < (chan s 15).targets.length ∧ (tgtOf s 15 7).fitted = true ∧ (tgtOf s 15 7).state = .uninit ∧ (chan s 15).state = 1 ∧
       s.boot.loading = none) ∧
    (let s := { erasing runNow (reading 0) with prm := { up.prm with writeTiming := some write1 } }
     let r := { s with media := { s.media with reads := [{ read1 0 with issued := false }] } }
     maySuspend r 0 100 = true ∧ maySuspend r 0 99 = false) ∧
    (let s := erasing { runNow with suspended := true } pool
     dieHeld s 0 = true ∧ dieBusy s 0 = false ∧ dieOpen s 0 = true ∧ dieHeld pool 0 = false) ∧
    (let s := erasing { runNow with suspended := true } (reading 0)
     dieHeld s 0 = true ∧ dieBusy s 0 = true) ∧
    (targetBusy (reading 0) 0 0 = true ∧ supplied (reading 0) 0 = true ∧
      ((erasing runNow pool).media.erases.any (fun e => e.unit = 0 && running e.run)) = true) ∧ FusedBegun pool := by
  refine ⟨?_, ?_, ?_, ?_, ?_, ?_, ?_, (no_readers pool ?_).2.2⟩ <;> decide +kernel

def levels1 : ReadLevels :=
  { delta1 := 4, delta2 := 8, delta3 := 16, sweep := 4, sweepStep := 2, fidDays := 1, levelPage := List.replicate 16 0,
    defaults := List.replicate 16 (List.replicate 8 (List.replicate 16 0)) }

/-- A device with a closed set that asks for a fid of die 0 in bucket 0. -/
def calib : State :=
  { pool with
      prm := { pool.prm with readLevels := some levels1 },
      map := { pool.map with sets := [set2] },
      media := { pool.media with fidWant := [(0, 0)], fidAt := [(0, 0)] },
      dev := { pool.dev with secs := 86400 } }

/-- Densities at the ends of 40.0 % to 60.0 %, and just beyond. -/
def fidRun (d : Nat) (best : Bool) (bits : Option Nat) : FidRun :=
  { density := [400, 600, d], sweep := List.replicate 7 (if best then [90, 50, 49, 20, 0] else [90, 90, 50, 20, 0]), bitsCur := some 9, bitsNew := bits }

theorem wit_CalibrationAndIdle :
    (calib.prm.readLevels = some levels1 ∧ kvGet calib.media.fidAt (fidKey 0 0) = some 0 ∧ 0 + 86400 * levels1.fidDays ≤ calib.dev.secs ∧
      (fidSample calib 0 0).isSome = true) ∧
    (bar2Open up .a = true ∧ (0x80000000#32 : Word).getLsbD 31 = true) ∧
    ((0, 0) ∈ calib.media.fidWant ∧ fidBarred calib 0 0 = false ∧ calib.map.state = 3 ∧ calib.safe.stopper = false ∧ dieIdle calib 0 = true ∧ calib.prm.readLevels = some levels1 ∧
      (fidSample calib 0 0) = some (0, set2) ∧ badDensity (fidRun 399 true none).density = some 399 ∧
      badDensity (fidRun 601 true none).density = some 601 ∧ badDensity (fidRun 500 true none).density = none) ∧
    (proposed 4 2 (levelsOf calib 0 0) (levelsUsed calib (slcUnit calib 0)) (fidRun 500 false none).sweep = none ∧
      (proposed 4 2 (levelsOf calib 0 0) (levelsUsed calib (slcUnit calib 0)) (fidRun 500 true none).sweep).isSome = true ∧
      fidBetter (fidRun 500 true (some 9)) = true ∧ fidBetter (fidRun 500 true (some 10)) = false) ∧
    (up.cmds = [] ∧ (reading 0).cmds ≠ []) := by
  and_intros <;> decide +kernel

/-- A link that is UP, with credit on each channel. -/
def upLink (e : Nat) : Link :=
  { freshLink e with
      state := .up, ackSent := true, ackRcvd := true, everUp := true,
      vcs := Vector.replicate 4 { balance := 99, lastGrant := 0#12, granted := 99, consumed := 0, given := 99, held := 0, room := 99 } }

/-- A device with two peers on port A; the first link is as given. -/
def wired (k : Link) : State :=
  { up with prm := { up.prm with peer := some peers1 }, peer := ⟨{ State.port0 with phy := 2, links := [k, upLink 1] }, State.port0⟩ }

def frm1 : Sys2Proof.Frm := { port := .a, link := 0, seq := (upLink 0).expect, ack := (upLink 0).txNext - 1#24, grant := Vector.replicate 4 0#12 }

def sent1 (seq : BitVec 24) : Sent :=
  { seq := seq, msg := msgOf 0x02 head0 0 .none, bytes := 64, vc := 0, credit := 1, resent := false, due := false }

/-- A frame is accepted in order where the state, the link, the sequence, the credit and the ACK allow it. -/
theorem in_order (s : State) (f : Sys2Proof.Frm) (m : Msg) (k : Link) (hf : framesFlow s = true) (hs : s.safe.stopper = false)
    (hk : linkBy s f.port f.link = some k) (hc : carries k = true) (he : f.seq = k.expect) (i : Fin 4) (hv : vcOf m.op = i)
    (hr : creditNeed (msgBytes (nsMeta s m.head.nsid) m) ≤ (k.vcs[i]).room) (ha : (takeAck f s).isSome = true) : ∃ s1, InOrder s f m s1 := by
  obtain ⟨s1, h1⟩ := Option.isSome_iff_exists.mp ha
  refine ⟨s1, ⟨hf, hs, ⟨k, hk, hc, he, fun d => ?_⟩, h1⟩⟩
  have h2 : vecAt k.vcs (vcOf m.op) d = k.vcs[i] := by simp [vecAt, hv]
  rw [h2]
  exact hr

theorem wit_LinkAcksAndRefusals :
    (let k := upLink 0
     let s := wired k
     linkBy s .a 0 = some k ∧ framesFlow s = true ∧ carries k = true ∧ ackInWindow k frm1.ack = true ∧ ackInWindow k (frm1.ack + 1#24) = false ∧
       s.safe.stopper = false ∧ k.nakFor ≠ some k.expect ∧ k.unacked = 0) ∧
    (let k := { upLink 0 with sent := [sent1 1#24, sent1 2#24], txNext := 3#24 }
     let s := wired k
     linkBy s .a 0 = some k ∧ ackInWindow k 1#24 = true ∧ k.sent.drop (ackCovers k 1#24) = sent1 2#24 :: [] ∧ k.state = .up ∧ k.stopTx = false ∧
       k.noGain < 8 ∧ k.resentTo ≠ some (1#24 + 1#24) ∧ k.sent.head? = some (sent1 1#24)) ∧
    (let k := { upLink 0 with sent := [sent1 1#24], txNext := 2#24, noGain := 8, unacked := 1, nakFor := some (upLink 0).expect }
     let s := wired k
     linkBy s .a 0 = some k ∧ framesFlow s = true ∧ k.state = .up ∧ k.stopTx = false ∧ k.sent.head? = some (sent1 1#24) ∧ 8 ≤ k.noGain ∧
       0 < k.unacked ∧ carries k = true ∧ k.nakFor = some k.expect) ∧
    (let k := upLink 0
     let s := wired k
     hears s .a = true ∧ hears up .b = false ∧ frm1.seq = k.expect ∧ (takeAck frm1 s).isSome = true ∧ creditNeed 8240 ≤ (k.vcs[2]).room) := by
  and_intros <;> decide +kernel

def hello1 (node : Nat) : Hello :=
  { nodeId := node, powerOn := 1, rxValid := false, width := 1, rxLast := 0#24, txOldest := 0#24, txNext := 0#24, resume := 0#24, imageGen := 1, startId := 9#32 }

theorem wit_LinkHandshake :
    (let k := { freshLink 0 with state := .handshake }
     let s := wired k
     framesFlow s = true ∧ s.safe.stopper = false ∧ s.braid.asks = [] ∧ linkBy s .a 0 = some k ∧ k.state = .handshake ∧ linkOfNode s .a 9 = none ∧
       linkOfNode s .a 2 = some 0 ∧ k.ackRcvd = false ∧ k.ackSent = false ∧ (s.peer.get .a).links.length ≠ 1) ∧
    (let k := { freshLink 0 with state := .handshake, ackRcvd := true }
     linkBy (wired k) .a 0 = some k ∧ linkOfNode (wired k) .a 2 = some 0 ∧ k.ackRcvd = true) ∧
    (let k := { freshLink 0 with state := .handshake, ackSent := true }
     linkBy (wired k) .a 0 = some k ∧ linkOfNode (wired k) .a 2 = some 0 ∧ k.ackSent = true) ∧
    (let k := { freshLink 0 with state := .handshake }
     let s := { wired k with peer := ⟨{ State.port0 with phy := 2, links := [k] }, State.port0⟩ }
     framesFlow s = true ∧ s.braid.asks = [] ∧ linkBy s .a 0 = some k ∧ k.state = .handshake ∧ (s.peer.get .a).links.length = 1) ∧
    (linkBy (wired (upLink 0)) .a 0 = some (upLink 0) ∧ (upLink 0).state = .up) := by
  and_intros <;> decide +kernel

def tied : Link := { freshLink 0 with held := [msgOf 0x02 head0 0 .none] }

theorem wit_PhyAndBursts :
    (let s := { wired (upLink 0) with peer := ⟨{ State.port0 with phy := 1, links := [freshLink 0] }, State.port0⟩ }
     (s.peer.get .a).phy = 1 ∧ portEnabled s .a = true ∧ s.ps.state ≤ 1 ∧ s.boot.hostReady = true ∧ s.safe.stopper = false ∧
       (∃ x, s.prm.peer = some x ∧ x.slowOk = true)) ∧
    ((wired (upLink 0)).peer.a.phy = 2 ∧ (wired (upLink 0)).braid.asks = []) ∧
    (let s := { wired tied with
       prm := { up.prm with peer := some { peers1 with entries := [{ nodeX 2 with directA := true }, nodeX 3] } },
       peer := ⟨{ State.port0 with phy := 1, links := [tied, freshLink 1] }, State.port0⟩ }
     burstsOk s .a = true ∧ linkBy s .a 0 = some tied ∧ tied.state = .training ∧ direct s .a tied = true ∧ holdsTraffic tied = true ∧
       tied.lastBurst = none ∧ bar2Open s .a = true ∧ (0x80000000#32 : Word).getLsbD 31 = true ∧ (0x80000000#32 : Word).getLsbD 8 = false ∧
       tied ∈ (s.peer.get .a).links) ∧
    (burstsOk (wired (upLink 0)) .a = false ∧ burstsOk up .b = false ∧ portEnabled (wired (upLink 0)) .a = true ∧ up.ps.state ≠ 2 ∧
      up.ps.state ≠ 4) := by
  refine ⟨⟨?_, ?_, ?_, ?_, ?_, peers1, ?_⟩, ?_⟩ <;> decide +kernel

theorem wit_DataFrames :
    (let s := wired (upLink 0)
     (∃ s1, InOrder s frm1 { msgOf 0x02 head0 0 .none with status := 0 } s1) ∧ framesFlow s = true ∧ s.safe.stopper = false ∧
       linkBy s .a 0 = some (upLink 0) ∧ carries (upLink 0) = true ∧
       ((upLink 0).expect - 1#24 ≠ (upLink 0).expect ∧ ((upLink 0).expect - ((upLink 0).expect - 1#24)).toNat ≤ 2 ^ 23) ∧
       (2 ^ 23 < ((upLink 0).expect - ((upLink 0).expect + 1#24)).toNat ∧ (upLink 0).nakFor ≠ some (upLink 0).expect) ∧
       (frm1.seq = (upLink 0).expect ∧ ackInWindow (upLink 0) (frm1.ack + 1#24) = false)) ∧
    { up.safe with stopper := true }.stopper = true := by
  refine ⟨⟨in_order _ _ _ (upLink 0) ?_ ?_ ?_ ?_ ?_ 0 ?_ ?_ ?_, ?_⟩, ?_⟩ <;> decide +kernel

def order1 : Head := { head0 with nsid := 1, tag := 5 }

theorem wit_PeerOrders :
    (let s := wired (upLink 0)
     (∃ s1, InOrder s frm1 (msgOf 0x01 order1 2 (.args [1#8])) s1) ∧ (∃ s1, InOrder s frm1 (msgOf 0x30 order1 0 .none) s1) ∧
       (∃ s1, InOrder s frm1 (msgOf 0x31 order1 0 (.args (zeros 9))) s1) ∧ answeredTag s .a 0 5 = none ∧ shakesFor s .a 0 5 = false ∧
       (∀ o ∈ s.braid.owed, ¬ (o.port = .a ∧ o.link = 0 ∧ o.msg.op = 2 ∧ o.msg.head.tag = 5)) ∧ permits s .a 0 3 = false ∧
       permits s .a 0 2 = true ∧ (nsOf s 1).isSome = true ∧ rd [2#8] 0 1 ≤ 2 ∧ protectLoses s 1 2 = false ∧ s.jrnl.state ≠ 5) ∧
    (let k := { upLink 0 with tags := [{ tag := 5, status := 0 }] }
     let s := wired k
     (∃ s1, InOrder s frm1 (msgOf 0x01 order1 2 (.args [1#8])) s1) ∧ answeredTag s .a 0 5 = some { tag := 5, status := 0 }) ∧
    (let s := { wired (upLink 0) with ps := { up.ps with hs := some { want := .sleep, asker := .peer .a 0 5, part := 1, stopped := [], waiting := false, also := [] } } }
     (∃ s1, InOrder s frm1 (msgOf 0x01 order1 2 (.args [1#8])) s1) ∧ answeredTag s .a 0 5 = none ∧ shakesFor s .a 0 5 = true) := by
  refine ⟨⟨in_order _ _ _ (upLink 0) ?_ ?_ ?_ ?_ ?_ 0 ?_ ?_ ?_, in_order _ _ _ (upLink 0) ?_ ?_ ?_ ?_ ?_ 3 ?_ ?_ ?_,
    in_order _ _ _ (upLink 0) ?_ ?_ ?_ ?_ ?_ 3 ?_ ?_ ?_, ?_⟩,
    ⟨in_order _ _ _ { upLink 0 with tags := [{ tag := 5, status := 0 }] } ?_ ?_ ?_ ?_ ?_ 0 ?_ ?_ ?_, ?_⟩,
    in_order _ _ _ (upLink 0) ?_ ?_ ?_ ?_ ?_ 0 ?_ ?_ ?_, ?_⟩ <;> decide +kernel
/-! ### Messages between bricks, and splices -/

/-- Layout 1: a mirror of two bricks; layout 2: a long braid of two data bricks and a parity brick. -/
def mirror1 (pos : Nat) : Layout :=
  { id := 1, loc := 1, cross := 3, k := 2, m := 0, pos := pos, rebuildMbs := 100, spliceMbs := 100, verifyMbs := 100, nodes := [1, 2] }

def long2 (pos : Nat) : Layout :=
  { id := 2, loc := 1, cross := 5, k := 2, m := 1, pos := pos, rebuildMbs := 100, spliceMbs := 100, verifyMbs := 100, nodes := [1, 2, 3] }

/-- A brick whose namespace 1 has a layout, at a position of it. -/
def laid (layout pos : Nat) (k : Link) : State :=
  { wired k with prm := { (wired k).prm with mapping := some mapping1, layouts := [mirror1 pos, long2 pos], namespaces := [{ ns1 with layout := layout }] } }

def member (layout pos : Nat) : State := laid layout pos (upLink 0)

def msgHead (layout lba g : Nat) : Head := { tag := 5, nsid := 1, slba := lba, gseq := g, nlb1 := 0, ext := 0, layout := layout }

def good1 (lba : Nat) : CheckedBlk := { blk := blk1, check := blockCheck 1 lba false blk1 }
def bad1 (lba : Nat) : CheckedBlk := { blk := blk1, check := blockCheck 1 (lba + 1) false blk1 }

/-- In these states frames flow, and the first link is UP with credit: a frame of a virtual channel is accepted in order. -/
theorem accepted (s : State) (m : Msg) (i : Fin 4) (hf : framesFlow s = true) (hs : s.safe.stopper = false) (hk : linkBy s .a 0 = some (upLink 0))
    (hv : vcOf m.op = i) (hr : creditNeed (msgBytes (nsMeta s m.head.nsid) m) ≤ 99) (ha : (takeAck frm1 s).isSome = true) :
    ∃ s1, InOrder s frm1 m s1 :=
  in_order s frm1 m (upLink 0) hf hs hk rfl rfl i hv (by simpa [upLink] using hr) ha

def waiting (o : Origin) (layout : Nat) (resent builders : List Nat) : Extent :=
  { extB with origin := o, layout := layout, waitOn := [0], resent := resent, builders := builders, mode := { mode0 with mirrored := true } }

/-- A brick that keeps mirror writes of layout 1 for a splice run. -/
def copying1 : State :=
  { member 1 1 with braid := { (member 1 1).braid with reserves := [{ entry := 0, id := 4, nsid := 1, new := 1, blocks := 64, run := true }] } }

/-- A check of the extent at LBA 4 has failed. -/
def failing1 : State := { member 1 1 with braid := { (member 1 1).braid with rxFailed := [(1, 1, 0, 4)] } }

theorem wit_MirrorCopies :
    (let s := member 1 1
     let m := msgHead 1 5 1
     (∃ s1, InOrder s frm1 (msgOf 0x10 m (0 + 256 * 0) (.blocks [good1 5])) s1) ∧ (∃ s1, InOrder s frm1 (msgOf 0x10 m (0 + 256 * 0) (.blocks [bad1 5])) s1) ∧
       rxRefusal s m isMirror = none ∧ rxRefusal s { m with nsid := 2 } isMirror = some 3 ∧ runReserve s 1 1 = none ∧
       rxFind s (.mirror .a 0 5) m 5 = none ∧ ([good1 5].zipIdx).all (fun b => checkOk s 1 (5 + b.2) b.1) = true ∧
       ([bad1 5].zipIdx).all (fun b => checkOk s 1 (5 + b.2) b.1) = false ∧ heldAlready s 1 5 0 1 = false ∧ (∀ e ∈ s.exts, e.id ≠ s.hx.nextKey) ∧
       heldAlready s 1 5 0 0 = true ∧ s.map.state = 3 ∧ 0 < 0 + [good1 5].length) ∧
    (let s := member 1 1
     (∃ s1, InOrder s frm1 (msgOf 0x10 { msgHead 1 5 1 with nsid := 2 } (0 + 256 * 0) (.blocks [good1 5])) s1) ∧
       ∃ s1, InOrder s frm1 (msgOf 0x10 (msgHead 1 5 0) (0 + 256 * 0) (.blocks [good1 5])) s1) ∧
    (let e := waiting .dropped 1 [] []
     let s := { member 1 0 with exts := [e] }
     let m := msgHead 1 5 1
     (∃ s1, InOrder s frm1 { msgOf 0x11 m 0 .none with status := 5 } s1) ∧ (∃ s1, InOrder s frm1 { msgOf 0x11 m 0 .none with status := 0 } s1) ∧
       ackedExt s m (entryOn s .a 0) = some e ∧ ackedExt s { m with gseq := 2 } (entryOn s .a 0) = none ∧ s.braid.splices = [] ∧
       has e.builders (entryOn s .a 0) = false ∧ has e.resent (entryOn s .a 0) = false ∧ (linkFor s 0 (hankOf s e.nsid e.slba)).isSome = true) ∧
    (let e := waiting .dropped 1 [0] []
     let s := { member 1 0 with exts := [e] }
     (∃ s1, InOrder s frm1 { msgOf 0x11 (msgHead 1 5 1) 0 .none with status := 5 } s1) ∧ ackedExt s (msgHead 1 5 1) (entryOn s .a 0) = some e ∧
       has e.builders (entryOn s .a 0) = false ∧ has e.resent (entryOn s .a 0) = true) ∧
    ((∃ s1, InOrder failing1 frm1 (msgOf 0x10 (msgHead 1 5 1) (1 + 256 * 1) (.blocks [good1 5])) s1) ∧ rxRefusal failing1 (msgHead 1 5 1) isMirror = none ∧
      runReserve failing1 1 1 = none ∧ 1 ≠ 0 ∧ rxFailing failing1 (msgHead 1 5 1) (5 - 1) = true) ∧
    ((∃ s1, InOrder copying1 frm1 (msgOf 0x10 (msgHead 1 5 1) (1 + 256 * 0) (.blocks [good1 5])) s1) ∧
      (∃ s1, InOrder copying1 frm1 (msgOf 0x10 (msgHead 1 5 1) (1 + 256 * 0) (.blocks [bad1 5])) s1) ∧ rxRefusal copying1 (msgHead 1 5 1) isMirror = none ∧
      (runReserve copying1 1 1).isSome = true ∧ [good1 5].length ≤ 1) ∧
    (let e := waiting (.host 50) 1 [] []
     let s := { member 1 0 with exts := [e] }
     let q := { s with cmds := [cmd1 .write] }
     (∃ s1, InOrder s frm1 { msgOf 0x11 (msgHead 1 5 1) 0 .none with status := 5 } s1) ∧ ackedExt s (msgHead 1 5 1) (entryOn s .a 0) = some e ∧
       has e.builders (entryOn s .a 0) = false ∧ has e.resent (entryOn s .a 0) = false ∧ acknowledged s e = true ∧
       (∃ s1, InOrder q frm1 { msgOf 0x11 (msgHead 1 5 1) 0 .none with status := 5 } s1) ∧ ackedExt q (msgHead 1 5 1) (entryOn q .a 0) = some e ∧
       e.origin = .host 50 ∧ cmdBy q 50 = some (cmd1 .write) ∧ (cmd1 .write).live = true ∧ powerFails q = false) := by
  refine ⟨⟨accepted _ _ 1 ?_ ?_ ?_ ?_ ?_ ?_, accepted _ _ 1 ?_ ?_ ?_ ?_ ?_ ?_, ?_⟩,
    ⟨accepted _ _ 1 ?_ ?_ ?_ ?_ ?_ ?_, accepted _ _ 1 ?_ ?_ ?_ ?_ ?_ ?_⟩, ⟨accepted _ _ 1 ?_ ?_ ?_ ?_ ?_ ?_, accepted _ _ 1 ?_ ?_ ?_ ?_ ?_ ?_, ?_⟩, ⟨accepted _ _ 1 ?_ ?_ ?_ ?_ ?_ ?_, ?_⟩,
    ⟨accepted _ _ 1 ?_ ?_ ?_ ?_ ?_ ?_, ?_⟩, ⟨accepted _ _ 1 ?_ ?_ ?_ ?_ ?_ ?_, accepted _ _ 1 ?_ ?_ ?_ ?_ ?_ ?_, ?_⟩,
    accepted _ _ 1 ?_ ?_ ?_ ?_ ?_ ?_, ?_, ?_, ?_, ?_, accepted _ _ 1 ?_ ?_ ?_ ?_ ?_ ?_, ?_⟩ <;> decide +kernel

theorem wit_LongBraidMessages :
    (let s := member 2 1
     let m := msgHead 2 32 1
     (∃ s1, InOrder s frm1 (msgOf 0x20 m (0 + 256 * 0) (.blocks [good1 32])) s1) ∧ nsOf s 1 = some { ns1 with layout := 2 } ∧ nsOf s 2 = none ∧
       (isLong (long2 1) && (nsLayout s 1).id = 2 && holderPos (long2 1) 32 = (long2 1).pos) = true ∧
       (nsWp s { ns1 with layout := 2 } || s.map.capWp) = false ∧ rxFind s (.longData .a 0 5) m 32 = none ∧ (∀ e ∈ s.exts, e.id ≠ s.hx.nextKey) ∧
       ([good1 32].zipIdx).all (fun b => checkOk s 1 (32 + b.2) b.1) = true ∧ heldAlready s 1 32 0 1 = false ∧ rxFailing s m 32 = false) ∧
    (let s := { member 2 1 with map := { up.map with capWp := true } }
     (∃ s1, InOrder s frm1 (msgOf 0x20 (msgHead 2 32 1) (0 + 256 * 0) (.blocks [good1 32])) s1) ∧ (nsWp s { ns1 with layout := 2 } || s.map.capWp) = true) ∧
    (∃ s1, InOrder (member 2 1) frm1 (msgOf 0x20 { msgHead 2 32 1 with nsid := 2 } (0 + 256 * 0) (.blocks [good1 32])) s1) ∧
    (let s := member 2 2
     let m := msgHead 2 5 1
     (∃ s1, InOrder s frm1 (msgOf 0x21 m 1 (.blocks [good1 5])) s1) ∧ (∃ s1, InOrder s frm1 (msgOf 0x21 m 1 (.blocks [bad1 5])) s1) ∧
       (nsOf s 1).isSome = true ∧ isLong (long2 2) = true ∧ (layoutBy s 2).getD (layout0 s) = long2 2 ∧ (nsLayout s 1).id = 2 ∧
       myParity (long2 2) 5 = some 0 ∧ ([good1 5].zipIdx).all (fun b => checkOk s 1 (5 + b.2) b.1) = true ∧
       ([bad1 5].zipIdx).all (fun b => checkOk s 1 (5 + b.2) b.1) = false ∧
       rxFind s (.longParity .a 0 5) m (parityLba (long2 2) 5 0) = none ∧ (newParity s (long2 2) 0 1 m [good1 5]).filterMap id ≠ [] ∧
       (newParity s (long2 2) 0 1 { m with gseq := 0 } [good1 5]).filterMap id = [] ∧ (∀ e ∈ s.exts, e.id ≠ s.hx.nextKey)) ∧
    (∃ s1, InOrder (member 2 2) frm1 (msgOf 0x21 { msgHead 2 5 1 with nsid := 2 } 1 (.blocks [good1 5])) s1) ∧
    (∃ s1, InOrder (member 2 2) frm1 (msgOf 0x21 { msgHead 2 5 1 with gseq := 0 } 1 (.blocks [good1 5])) s1) ∧
    (let e := waiting .dropped 2 [0] []
     let s := { member 2 0 with exts := [e] }
     let m := msgHead 2 5 1
     (∃ s1, InOrder s frm1 { msgOf 0x22 m 0 .none with status := 5 } s1) ∧ (∃ s1, InOrder s frm1 { msgOf 0x22 m 0 .none with status := 4 } s1) ∧
       (∃ s1, InOrder s frm1 { msgOf 0x22 m 0 .none with status := 0 } s1) ∧
       ackedExt s m (entryOn s .a 0) = some e ∧ ackedExt s { m with gseq := 2 } (entryOn s .a 0) = none ∧ s.braid.splices = [] ∧
       has e.resent (entryOn s .a 0) = true) ∧
    (let e := waiting (.host 50) 2 [] []
     let s := { member 2 0 with exts := [e] }
     (∃ s1, InOrder s frm1 { msgOf 0x22 (msgHead 2 5 1) 0 .none with status := 5 } s1) ∧ ackedExt s (msgHead 2 5 1) (entryOn s .a 0) = some e ∧
       has e.resent (entryOn s .a 0) = false ∧ acknowledged s e = true) := by
  refine ⟨⟨accepted _ _ 2 ?_ ?_ ?_ ?_ ?_ ?_, ?_⟩, ⟨accepted _ _ 2 ?_ ?_ ?_ ?_ ?_ ?_, ?_⟩, accepted _ _ 2 ?_ ?_ ?_ ?_ ?_ ?_,
    ⟨accepted _ _ 2 ?_ ?_ ?_ ?_ ?_ ?_, accepted _ _ 2 ?_ ?_ ?_ ?_ ?_ ?_, ?_⟩, accepted _ _ 2 ?_ ?_ ?_ ?_ ?_ ?_,
    accepted _ _ 2 ?_ ?_ ?_ ?_ ?_ ?_, ⟨accepted _ _ 2 ?_ ?_ ?_ ?_ ?_ ?_, accepted _ _ 2 ?_ ?_ ?_ ?_ ?_ ?_, accepted _ _ 2 ?_ ?_ ?_ ?_ ?_ ?_, ?_⟩,
    accepted _ _ 2 ?_ ?_ ?_ ?_ ?_ ?_, ?_⟩ <;> decide +kernel

def ask1 : Ask := { port := .a, link := 0, tag := 5, reader := .cmd 50, idx := 0, nsid := 1, lba := 5, part := 0, rest := [], solve := none }
def rec5 : BlockRec := { check := (good1 5).check, gseq := 1, unmapped := false, lost := false, blk := blk1 }

theorem wit_PeerReads :
    (let m := msgHead 1 5 0
     (∃ s1, InOrder (member 1 1) frm1 (msgOf 0x23 { m with nsid := 2 } 0 .none) s1) ∧ nsOf (member 1 1) 2 = none ∧
     (∃ s1, InOrder (member 1 1) frm1 (msgOf 0x23 m 0 .none) s1) ∧ (nsOf (member 1 1) 1).isSome = true ∧ m.nlb1 = 0 ∧
     dramBlock (member 1 1) 1 5 = none ∧ look (member 1 1) 1 5 = .unmapped) ∧
    (let s := { member 1 1 with exts := [extB] }
     (∃ s1, InOrder s frm1 (msgOf 0x23 (msgHead 1 5 0) 0 .none) s1) ∧ dramBlock s 1 5 = some (blk1, 1)) ∧
    (let s := { member 1 1 with map := { up.map with
       sets := [set2], hanks := [(0, .strand 0)], strands := [(0, some { set := 32768, block := 0 } :: List.replicate 31 none)] } }
     (∃ s1, InOrder s frm1 (msgOf 0x23 (msgHead 1 0 0) 0 .none) s1) ∧ dramBlock s 1 0 = none ∧ look s 1 0 = .mapped { set := 32768, block := 0 } ∧
       setBy s 32768 = some set2 ∧ (nth set2.members (placeOf s set2 0).1 none).isSome = true) ∧
    (let s := member 1 1
     (∃ s1, InOrder s frm1 (msgOf 0x24 (msgHead 1 5 0) 0 (.recs [rec5])) s1) ∧
       s.braid.asks.find? (fun a => a.port = .a && a.link = 0 && a.tag = 5) = none) ∧
    (let s := { member 1 0 with cmds := [cmdR], braid := { up.braid with asks := [ask1] } }
     (∃ s1, InOrder s frm1 (msgOf 0x24 (msgHead 1 5 0) 0 (.recs [rec5])) s1) ∧
       s.braid.asks.find? (fun a => a.port = .a && a.link = 0 && a.tag = 5) = some ask1 ∧ [rec5][5 - 5]? = some rec5 ∧ recordGood s ask1 rec5 = true ∧
       rec5.unmapped = false ∧ ask1.solve = none ∧ ask1.reader = .cmd cmdR.key ∧ s.cmds = [cmdR] ∧ cmdR.kind = .read ∧ cmdR.live = true ∧
       powerFails s = false ∧ modAt cmdR.found 0 (fun _ => Found.got (keptBlk s 1 rec5.blk)) = [keptBlk s 1 rec5.blk].map Found.got) := by
  refine ⟨⟨accepted _ _ 2 ?_ ?_ ?_ ?_ ?_ ?_, ?_, accepted _ _ 2 ?_ ?_ ?_ ?_ ?_ ?_, ?_⟩, ⟨accepted _ _ 2 ?_ ?_ ?_ ?_ ?_ ?_, ?_⟩,
    ⟨accepted _ _ 2 ?_ ?_ ?_ ?_ ?_ ?_, ?_⟩, ⟨accepted _ _ 2 ?_ ?_ ?_ ?_ ?_ ?_, ?_⟩, accepted _ _ 2 ?_ ?_ ?_ ?_ ?_ ?_, ?_⟩ <;> decide +kernel
/-- A splice of namespace 1 from layout 0 to layout 1, with the brick of link 0 as builder. -/
def splice1 (ph : SPhase) : Splice :=
  { id := 4, phase := ph, left := .build, nsid := 1, old := 0, new := 1, builders := [0], reserved := [0], progress := 0, dirty := [], verified := 0, diffs := 0,
    diffAt := [], folds := [], dual := true, auto := false, repair := false, lostBuilder := false, paused2 := false, refusal := 0, startSecs := 0,
    localRun := false, reserve := 0, cmd := none, ready := false, told := [], phaseTags := [], again := [] }

/-- The driver of a splice: namespace 1 still in layout 0. -/
def driver (p : Splice) : State := { laid 0 0 (upLink 0) with braid := { up.braid with splices := [p] } }

/-- The read of block 5 of hank 0 by splice 4, to copy it or to compare it, and a driver that waits for it. -/
def read4 (copy : Bool) (recs : List (Option BlockRec)) : HankRead := { key := 9, splice := 4, hank := 0, copy := copy, fold := !copy, lbas := [5], recs := recs }
def driverReads (p : Splice) (r : HankRead) : State := let s := driver p
  { s with braid := { s.braid with hankReads := [r] } }

theorem wit_SpliceMessages :
    (let s := laid 0 1 (upLink 0)
     let m := msgHead 1 0 0
     let others := s.braid.reserves.filter (fun r => r.nsid ≠ 1)
     let freed := onBraid (fun b => { b with reserves := others }) s
     (∃ s1, InOrder s frm1 (msgOf 0x25 m 4 (.args (zeros 8))) s1) ∧ nsOf s 1 = some { ns1 with layout := 0 } ∧ layoutBy s 1 = some (mirror1 1) ∧
       buildsRun (nsLayout s 1) (mirror1 1) = false ∧ fits freed (ceilDiv 4096 4096) = true ∧
       fits freed (ceilDiv (2 ^ 50) 4096) = false ∧ runReserve s 1 1 = none ∧
       (∃ s1, InOrder s frm1 (msgOf 0x27 m 4 (.recs [rec5])) s1) ∧ (∃ s1, InOrder s frm1 (msgOf 0x2B m 4 (.recs [rec5])) s1) ∧
       ([rec5].zipIdx.all (fun r => recChecked s 1 (5 + r.2) r.1)) = true ∧ ([rec5].zipIdx.all (fun r => recChecked s 1 (6 + r.2) r.1)) = false ∧
       (∃ s1, InOrder s frm1 (msgOf 0x28 m (4 + 256 * 32) .none) s1) ∧ (nsOf s 1).isSome = true ∧ s.map.hanks = [] ∧ s.jrnl.state ≠ 5 ∧
       (∃ s1, InOrder s frm1 (msgOf 0x29 m (4 + 256 * 4) (.args (zeros 8))) s1) ∧ phaseOfCode 4 = some .switch ∧
       (∃ s1, InOrder s frm1 (msgOf 0x29 m (4 + 256 * 6) (.args (zeros 8))) s1) ∧ phaseOfCode 6 = some .aborted ∧
       (∃ s1, InOrder s frm1 (msgOf 0x29 m (4 + 256 * 5) (.args (zeros 8))) s1) ∧ phaseOfCode 5 = some .release ∧
       (∃ s1, InOrder s frm1 (msgOf 0x29 m (4 + 256 * 8) (.args (zeros 8))) s1) ∧ phaseOfCode 8 = none ∧
       (∃ s1, InOrder s frm1 (msgOf 0x2A m 0 .none) s1)) ∧
    (let s := laid 0 1 (upLink 0)
     let m := { msgHead 1 0 0 with nsid := 2 }
     nsOf s 2 = none ∧ (∃ s1, InOrder s frm1 (msgOf 0x25 m 4 (.args (zeros 8))) s1) ∧ (∃ s1, InOrder s frm1 (msgOf 0x28 m (4 + 256 * 1) .none) s1) ∧
       (∃ s1, InOrder s frm1 (msgOf 0x2A m 0 .none) s1)) := by
  refine ⟨⟨accepted _ _ 2 ?_ ?_ ?_ ?_ ?_ ?_, ?_, ?_, ?_, ?_, ?_, ?_, accepted _ _ 2 ?_ ?_ ?_ ?_ ?_ ?_, accepted _ _ 2 ?_ ?_ ?_ ?_ ?_ ?_, ?_, ?_,
    accepted _ _ 2 ?_ ?_ ?_ ?_ ?_ ?_, ?_, ?_, ?_, accepted _ _ 2 ?_ ?_ ?_ ?_ ?_ ?_, ?_, accepted _ _ 2 ?_ ?_ ?_ ?_ ?_ ?_, ?_,
    accepted _ _ 2 ?_ ?_ ?_ ?_ ?_ ?_, ?_, accepted _ _ 2 ?_ ?_ ?_ ?_ ?_ ?_, ?_, accepted _ _ 2 ?_ ?_ ?_ ?_ ?_ ?_⟩,
    ?_, accepted _ _ 2 ?_ ?_ ?_ ?_ ?_ ?_, accepted _ _ 2 ?_ ?_ ?_ ?_ ?_ ?_, accepted _ _ 2 ?_ ?_ ?_ ?_ ?_ ?_⟩ <;> decide +kernel

theorem reply_in_order (p : Splice) (st : Nat) (cs : List Check)
    (hr : creditNeed (msgBytes false { msgOf 0x26 (msgHead 1 0 0) 0 (.folds cs) with status := st }) ≤ 99) :
    ∃ s1, InOrder (driver p) frm1 { msgOf 0x26 (msgHead 1 0 0) 0 (.folds cs) with status := st } s1 :=
  accepted _ _ 2 rfl rfl rfl rfl hr rfl

/-- A member that has built in its splice run what is not all written yet: hosts' namespace 1 leaves layout 1 for another. -/
theorem wit_SpliceMessages_waiting :
    (let s := laid 0 1 (upLink 0)
     let w : RunWait := { nsid := 1, new := 1, lba := 5, rec_ := rec5 }
     let r : Reserve := { entry := 0, id := 4, nsid := 1, new := 1, blocks := 1, run := true }
     let s := { s with braid := { s.braid with reserves := [r], runWaits := [w] } }
     (∃ s1, InOrder s frm1 (msgOf 0x29 (msgHead 1 0 0) (4 + 256 * 4) (.args (zeros 8))) s1) ∧ (layoutBy s 1).isSome = true ∧
       (∃ r ∈ s.braid.reserves, r.nsid = 1 ∧ r.run = true) ∧ runQuiet s 1 = false) := by
  refine ⟨accepted _ _ 2 ?_ ?_ ?_ ?_ ?_ ?_, ?_⟩ <;> decide +kernel

theorem wit_SpliceReplies :
    (let p := { splice1 .build with phaseTags := [(.a, 0, 5)] }
     let s := driver p
     (∃ s1, InOrder s frm1 { msgOf 0x26 (msgHead 1 0 0) 0 (.folds []) with status := 0 } s1) ∧ spliceOf s 1 = some p ∧ spliceOf s 2 = none ∧
       s.braid.splices.find? (fun q => q.id = p.id) = some p ∧
       p.phaseTags.any (fun x => x.1 = .a && x.2.1 = 0 && x.2.2 = 5) = true) ∧
    (let p := splice1 .prepare
     let s := driver p
     (∃ s1, InOrder s frm1 { msgOf 0x26 (msgHead 1 0 0) 0 (.folds []) with status := 2 } s1) ∧ spliceOf s 1 = some p ∧
       p.phaseTags.any (fun x => x.1 = .a && x.2.1 = 0 && x.2.2 = 5) = false ∧ has p.builders (entryOn s .a 0) = true ∧ p.phase = .prepare ∧
       s.jrnl.state ≠ 5 ∧ powerFails s = false) ∧
    (let p := { splice1 .verify with folds := [(0, 0, [7#64])], diffAt := [(0, 2)] }
     let s := driver p
     (∃ s1, InOrder s frm1 { msgOf 0x26 (msgHead 1 0 0) 0 (.folds [8#64]) with status := 0 } s1) ∧ spliceOf s 1 = some p ∧
       s.braid.splices.find? (fun q => q.id = p.id) = some p ∧ has p.builders (entryOn s .a 0) = true ∧ p.phase = .verify ∧
       p.folds.find? (fun x => x.1 = entryOn s .a 0 && x.2.1 = (msgHead 1 0 0).slba) = some (entryOn s .a 0, (msgHead 1 0 0).slba, [7#64]) ∧
       7#64 ≠ (8#64 : Check) ∧ 2 ≤ kvCount p.diffAt (dataHank s p (msgHead 1 0 0).slba)) ∧
    (let p := { splice1 .verify with folds := [(0, 0, [7#64])], diffAt := [(0, 1)] }
     let s := driver p
     (∃ s1, InOrder s frm1 { msgOf 0x26 (msgHead 1 0 0) 0 (.folds [8#64]) with status := 0 } s1) ∧
       p.folds.find? (fun x => x.1 = entryOn s .a 0 && x.2.1 = (msgHead 1 0 0).slba) = some (entryOn s .a 0, (msgHead 1 0 0).slba, [7#64]) ∧
       kvCount p.diffAt (dataHank s p (msgHead 1 0 0).slba) < 2) := by
  refine ⟨⟨reply_in_order _ 0 [] ?_, ?_⟩, ⟨reply_in_order _ 2 [] ?_, ?_⟩, ⟨reply_in_order _ 0 [8#64] ?_, ?_⟩, ⟨reply_in_order _ 0 [8#64] ?_, ?_⟩⟩
    <;> decide +kernel

theorem wit_SpliceCommands :
    (let s := laid 0 0 (upLink 0)
     let a := acceptAdmin hdr0 s
     let n := { ns1 with layout := 0 }
     fetchAdmin s hdr0 = true ∧ adminOk s = true ∧ nsOf a 1 = some n ∧ a.jrnl.state ≠ 5 ∧ powerFails a = false ∧ spliceOf a 1 = none ∧
       startRefusal a n 9 = some 3 ∧ startRefusal a n 1 = none ∧ layoutBy a 1 = some (mirror1 0) ∧
       (∀ q ∈ a.braid.splices, q.id ≠ freeId a 256 a.braid.nextId)) ∧
    (let p := { splice1 .paused with paused2 := true }
     let a := acceptAdmin hdr0 (driver p)
     fetchAdmin (driver p) hdr0 = true ∧ spliceOf a 1 = some p ∧ a.braid.splices.find? (fun q => q.id = p.id) = some p ∧ p.phase = .paused ∧
       p.paused2 = true ∧ ∀ b ∈ p.builders, peerUp a b = true) ∧
    (let p := splice1 .release
     let a := acceptAdmin hdr0 (driver p)
     fetchAdmin (driver p) hdr0 = true ∧ spliceOf a 1 = some p ∧ p.phase = .release ∧ p.phase ≠ .aborted ∧ verifyEnded a p = false) ∧
    (let p := { splice1 .verify with verified := 2 }
     let a := acceptAdmin hdr0 (driver p)
     fetchAdmin (driver p) hdr0 = true ∧ spliceOf a 1 = some p ∧ a.braid.splices.find? (fun q => q.id = p.id) = some p ∧ p.phase = .verify ∧
       verifyEnded a p = true ∧ drained a p = true ∧ a.jrnl.runNum = none) := by
  and_intros <;> decide +kernel

theorem wit_SpliceWork :
    (let p := splice1 .build
     let s := driver p
     s.braid.splices.find? (fun q => q.id = p.id) = some p ∧ p.phase = .build ∧ s.map.state = 3 ∧ s.safe.stopper = false ∧
       (∀ b ∈ p.builders, peerUp s b = true) ∧ s.jrnl.state ≠ 5 ∧ hankRead s p.id = none ∧ p.progress < hanksOf s p.nsid ∧ p.localRun = false ∧
       ((layoutBy s p.new).getD (layout0 s)).cross ≠ 5 ∧ (nsLayout s p.nsid).cross ≠ 5 ∧
       ∀ lba ∈ hankLbas s p.nsid p.progress, dramBelow none s p.nsid lba = none ∧ look s p.nsid lba = .unmapped) ∧
    (let p := splice1 .build
     let r := read4 true [none]
     let s := driverReads p r
     s.braid.splices.find? (fun q => q.id = p.id) = some p ∧ hankRead s p.id = some r ∧ r.recs.all Option.isSome = false ∧
       (∀ b ∈ p.builders, peerUp s b = true) ∧ s.jrnl.state ≠ 5) ∧
    (let p := splice1 .build
     let r := read4 true [some rec5]
     let s := driverReads p r
     s.braid.splices.find? (fun q => q.id = p.id) = some p ∧ hankRead s p.id = some r ∧ r.recs.all Option.isSome = true ∧ r.copy = true ∧ r.fold = false ∧
       r.hank = p.progress ∧ p.progress < hanksOf s p.nsid ∧ (∀ v ∈ s.braid.hankReads, v.splice = p.id → v = r) ∧
       (∀ b ∈ p.builders, peerUp s b = true)) ∧
    (let p := splice1 .verify
     let r := read4 false [some rec5]
     let s := driverReads p r
     s.braid.splices.find? (fun q => q.id = p.id) = some p ∧ hankRead s p.id = some r ∧ r.recs.all Option.isSome = true ∧ r.copy = false ∧ r.fold = true ∧
       32 * r.hank < 2 ^ 39 ∧ p.builders ≠ [] ∧ p.repair = false ∧ (∀ b ∈ p.builders, peerUp s b = true)) ∧
    (let p := { splice1 .build with progress := 2 }
     let s := driver p
     s.braid.splices.find? (fun q => q.id = p.id) = some p ∧ p.phase = .build ∧ (∀ b ∈ p.builders, peerUp s b = true) ∧ hanksOf s p.nsid ≤ p.progress ∧
       p.dirty = [] ∧ hankRead s p.id = none) ∧
    (let p := { splice1 .verify with verified := 1 }
     let s := driver p
     s.braid.splices.find? (fun q => q.id = p.id) = some p ∧ p.phase = .verify ∧ (∀ b ∈ p.builders, peerUp s b = true) ∧ p.dirty = [] ∧
       p.repair = false ∧ s.map.state = 3 ∧ s.safe.stopper = false ∧ p.verified < hanksOf s p.nsid ∧ p.builders ≠ [] ∧ hankRead s p.id = none ∧
       32 * p.verified < 2 ^ 39 ∧ ((layoutBy s p.new).getD (layout0 s)).cross ≠ 5 ∧
       ∀ lba ∈ hankLbas s p.nsid p.verified, dramBelow none s p.nsid lba = none ∧ look s p.nsid lba = .unmapped) ∧
    (let c := cmd1 .spliceSwitch
     let p := { splice1 .switching with cmd := some 50 }
     let s := { driver p with cmds := [c] }
     s.braid.splices.find? (fun q => q.id = p.id) = some p ∧ p.phase = .switching ∧ cmdBy s 50 = some c ∧ c.live = true ∧ powerFails s = false) ∧
    (let p := { splice1 .release with told := [0] }
     let s := driver p
     s.braid.splices.find? (fun q => q.id = p.id) = some p ∧ p.phase = .release ∧ s.jrnl.state ≠ 5 ∧ p.localRun = false ∧
       ∀ e ∈ others s ((layoutBy s p.new).getD (layout0 s)), has p.told e = true) ∧
    (let p := splice1 .release
     let s := driver p
     s.braid.splices.find? (fun q => q.id = p.id) = some p ∧ ∃ e ∈ others s ((layoutBy s p.new).getD (layout0 s)), has p.told e = false) := by
  and_intros <;> decide +kernel
/-! ### Power states, temperature, Lanyard -/

def shake (want : PwrState) (a : Asker) (part : Nat) : Handshake := { want := want, asker := a, part := part, stopped := [], waiting := false, also := [] }
def inState (n : Nat) : State := { wired (freshLink 0) with ps := { up.ps with state := n } }

theorem wit_PowerOrders :
    (let a := acceptAdmin hdr0 up
     fetchAdmin up hdr0 = true ∧ adminOk up = true ∧ up.ps.hs = none ∧ a.ps.state = 0 ∧ (∀ c ∈ a.cmds, isPowerOrder c = false ∧ c.key ≠ a.hx.nextKey) ∧
       a.safe.stopper = false ∧ a.ps.wakeLow = false) ∧
    (let s := { up with ps := { up.ps with wakeLow := true } }
     let a := acceptAdmin hdr0 s
     fetchAdmin s hdr0 = true ∧ adminOk s = true ∧ a.safe.stopper = false ∧ a.ps.wakeLow = true ∧ ∀ c ∈ a.cmds, c.key ≠ a.hx.nextKey) ∧
    (let s := { up with safe := { up.safe with stopper := true } }
     fetchAdmin s hdr0 = true ∧ adminOk s = true ∧ (acceptAdmin hdr0 s).ps.state = 0 ∧ (acceptAdmin hdr0 s).safe.stopper = true) ∧
    (let x := shake .sleep .smbus 1
     let s := { up with ps := { up.ps with hs := some x } }
     fetchAdmin s hdr0 = true ∧ adminOk s = true ∧ s.ps.hs = some x ∧ isOrder x.asker = true ∧ pwrCode x.want < pwrCode .deep ∧
       s.safe.stopper = false ∧ ∀ c ∈ s.cmds, c.key ≠ s.hx.nextKey) ∧
    (smbAlive up = true ∧ up.ps.hs = none ∧ 4 < 5 ∧ 7 < 8 ∧ codePwr 2 = some .sleep ∧ codePwr 4 = some .off ∧ up.ps.state = 0 ∧
      up.safe.stopper = false ∧ up.ps.wakeLow = false) := by
  and_intros <;> decide +kernel

theorem wit_SleepHandshake :
    (let h := shake .sleep .timer 1
     let s := { up with ps := { up.ps with hs := some h }, cmds := [cmd1 .flush] }
     s.ps.hs = some h ∧ s.pins.npwrEn.length = 4 ∧ ¬ (h.part = 2 ∧ noticesOpen s = true) ∧ h.waiting = false ∧ refuses s h = some 1 ∧ 1 ≠ 7) ∧
    (let h := shake .off .smbus 7
     let s := { up with ps := { up.ps with hs := some h } }
     s.ps.hs = some h ∧ ¬ (h.part = 2 ∧ noticesOpen s = true) ∧ h.waiting = false ∧ refuses s h = none ∧ nextPart h.want h.part = some 8) ∧
    (let h := shake .deep .smbus 12
     let s := { up with ps := { up.ps with hs := some h } }
     s.ps.hs = some h ∧ ¬ (h.part = 2 ∧ noticesOpen s = true) ∧ h.waiting = false ∧ refuses s h = none ∧ nextPart h.want h.part = none) ∧
    (let h := shake .sleep .smbus 2
     let s := { wired { upLink 0 with notice := some 0#24 } with ps := { up.ps with hs := some h } }
     s.ps.hs = some h ∧ h.part = 2 ∧ noticesOpen s = true) ∧
    (let s := { up with prm := { up.prm with power := { State.power0 with idleUs := 10, sleepMs := 1, deepS := 1 } } }
     s.ps.hs = none ∧ s.safe.stopper = false ∧ s.boot.hostReady = true ∧ s.flush = none ∧ s.ps.state < 4 ∧ s.hx.perstHeld = false ∧
       s.ps.ordered = none ∧ timerState s 9 = none ∧ timerState s 10 = some .idle ∧ timerState s 1000 = some .sleep ∧
       timerState s 1000000 = some .deep ∧ s.ps.state < pwrCode .idle ∧ s.ps.state ≠ 2) := by
  and_intros <;> decide +kernel

theorem wit_Wakes :
    ((inState 2).ps.hs = none ∧ (inState 2).ps.state = 2 ∧ portEnabled (inState 2) .a = true ∧ (0x21#8 : Byte).toNat = myWakeAddr (inState 2) ∧
      ¬ (((0x22#8 : Byte).toNat = myWakeAddr (inState 2) ∨ 0x22#8 = (0xFF#8 : Byte)) ∧ 0xDD#8 = ~~~ (0x22#8 : Byte))) ∧
    (let h := shake .sleep .timer 1
     let s := { up with ps := { up.ps with hs := some h } }
     s.ps.hs = some h ∧ s.ps.state < 4) ∧ (inState 4).ps.state = 4 ∧ ¬ ((inState 2).aon.thermLatch = true ∧ (inState 2).hly.held = some .thermal) ∧
    (let s := { inState 4 with hly := { up.hly with breaker := .held, held := some .powerOff } }
     ¬ (s.aon.thermLatch = true ∧ s.hly.held = some .thermal) ∧ s.ps.state = 4 ∧ s.hly.held = some .powerOff ∧ s.hly.breaker = .held ∧
       s.hly.overVoltage = false) ∧
    (let s := { up with hly := { up.hly with breaker := .held, held := some .thermal }, aon := { up.aon with thermLatch := true } }
     s.aon.thermLatch = true ∧ s.hly.held = some .thermal ∧ s.hly.breaker = .held ∧ s.hly.overVoltage = false) ∧
    ({ up.ps with wakeLow := true }.wakeLow = true ∧ { up.ps with wakeLow := true }.wakeTold = false ∧ up.ps.wakeLow = false) := by
  and_intros <;> decide +kernel

def busyUnit : UnitE := { addr := 0, pe := 1, state := 1 }
def visit1 (ps : List PatrolPage) : PatrolVisit := { header := .copy 0, pages := ps }

/-- Group 0 of the patrol has one unit; its first page has been read, or not. -/
def patrolling (state visited : Nat) : State :=
  { pool with
      map := { pool.map with units := [busyUnit] },
      ps := { up.ps with state := state, visited := [visited, 0, 0, 0], skip := [0] } }

/-- Asleep in DEEP, with the channels of group 0 as their supply left them. -/
def deepSleep : State :=
  { up with
      prm := { up.prm with readTiming := some timing1, writeTiming := some write1 }, ps := { up.ps with state := 3 } }

theorem wit_Patrol :
    (let s := patrolling 1 0
     mayPatrol s = true ∧ s.ps.state ≤ 1 ∧ 0 ≤ 3 ∧ 1 ≤ s.prm.power.rows ∧ (patrolUnits s 0).find? (fun x => nth s.ps.pos 0 0 ≤ patrolKey x) = some 0 ∧
       unitUsable s 0 = true ∧ dieIdle s (unitDie 0) = true ∧ nth s.ps.visited 0 0 = 0 ∧ (visit1 []).header = .copy 0 ∧ (visit1 []).pages = []) ∧
    (let s := { patrolling 1 0 with media := { pool.media with channels := modVec pool.media.channels 0 (fun c => { c with
       targets := modAt c.targets 0 (fun t => { t with state := .failed }) }) } }
     (patrolUnits s 0).find? (fun x => nth s.ps.pos 0 0 ≤ patrolKey x) = some 0 ∧ unitUsable s 0 = false) ∧
    (let s := { patrolling 1 0 with media := { pool.media with reads := [{ read1 0 with issued := false }] } }
     (patrolUnits s 0).find? (fun x => nth s.ps.pos 0 0 ≤ patrolKey x) = some 0 ∧ unitUsable s 0 = true ∧ dieIdle s (unitDie 0) = false) ∧
    (let s := patrolling 0 1
     mayPatrol s = true ∧ s.ps.state ≤ 1 ∧ (patrolUnits s 0).find? (fun x => nth s.ps.pos 0 0 ≤ patrolKey x) = some 0 ∧
       unitUsable s 0 = true ∧ dieIdle s (unitDie 0) = true ∧ nth s.ps.visited 0 0 = 1 ∧
       (∀ r ∈ s.map.rewrites, r.1 ≠ 0) ∧ s.map.rewrites.length < Config.rewriteMax ∧ (visit1 [.weak 1 2]).pages = [.weak 1 2] ∧
       (visit1 [.unrecovered false]).pages = [.unrecovered false]) ∧
    (Shaped (patrolling 1 0) ∧ Shaped (patrolling 0 1) ∧ Shaped deepSleep) ∧ mayPatrol State.reset = false ∧
    (let s := patrolling 2 0
     let g := s.ps.cycle % 4
     mayPatrol s = true ∧ s.ps.state = 2 ∧ s.ps.hs = none ∧
       (s.ps.skip.filter (fun x => patrolGroup x = g)).find? (fun x => nth s.ps.pos g 0 ≤ patrolKey x) = some 0 ∧ nth s.ps.visited g 0 = 0 ∧
       unitUsable s 0 = true ∧ dieIdle s (unitDie 0) = true ∧ 1 ≤ s.prm.power.rows ∧ 1 ≤ s.prm.power.patrolPages ∧ inFlight s = [] ∧ s.jrnl.waiting = [] ∧
       s.jrnl.trigger = none ∧ s.map.rewrites.length < 1024 ∧ s.evt.queue.length < 16) ∧
    (let s := { patrolling 2 0 with jrnl := { up.jrnl with trigger := some 1 } }
     mayPatrol s = true ∧ s.ps.state = 2 ∧ unitUsable s 0 = true ∧ dieIdle s (unitDie 0) = true ∧ s.jrnl.trigger.isSome = true ∧ inFlight s = []) ∧
    (let s := deepSleep
     let g := s.ps.cycle % 4
     mayPatrol s = true ∧ s.ps.state = 3 ∧ s.ps.hs = none ∧ inFlight s = [] ∧ s.jrnl.waiting = [] ∧ s.prm.readTiming.isSome = true ∧
       s.prm.writeTiming.isSome = true ∧ paramSame (geo s) page1 = true ∧
       (∀ i, i < 4 → (chan s (4 * g + i)).state = 0 ∧ nth (geo s).fitted (4 * g + i) 0 = 1 ∧ (tgtOf s (4 * g + i) 0).state = .uninit) ∧
       s.jrnl.trigger = none ∧ s.map.rewrites.length < 1024 ∧ s.evt.queue.length < 16) := by
  have c : ∀ c : Fin 16, pool.media.channels[c].targets.length = 8 := by decide +kernel
  have sh : ∀ a b, Shaped (patrolling a b) := fun a b => ⟨c, rfl, rfl, shaped_up.4, rfl, rfl⟩
  refine ⟨?_, ?_, ?_, ?_, ⟨sh 1 0, sh 0 1, shaped_up.1, rfl, rfl, shaped_up.4, rfl, rfl⟩, ?_, ?_, ?_, ?_⟩ <;> decide +kernel

def reads8 (v : Int) : Vector Reading 8 := Vector.replicate 8 { value := v, raw := 1, fault := false }

/-- A device whose die zones were at or above shutdown `n` samples ago; no DRAM stack reports its temperature. -/
def warmed (n : Nat) (latch : Bool) : State :=
  { up with
      boot := { up.boot with thermalOk := true }, aon := { up.aon with thermLatch := latch },
      therm := { State.therm0 with runs := List.replicate 5 n, dram := [] } }

def sampledOnce (rs : Vector Reading 8) (s : State) : State := takeMeans (takeZones ((List.range 8).foldl (sampleInput rs) s))

theorem shaped_warmed (n : Nat) (latch : Bool) : Shaped (warmed n latch) := ⟨shaped_up.1, rfl, rfl, shaped_up.4, rfl, rfl⟩

/-- A die zone at 115 °C begins the shutdown with its second sample; at 114.9375 °C it does not. The latch clears below 90 °C. -/
theorem wit_TemperatureSample :
    (let s := warmed 1 false
     5 ≤ s.boot.phase ∧ s.ps.state ≠ 4 ∧ s.therm.shut = none ∧
       (List.range 5).find? (fun z => 2 ≤ nth (sampledOnce (reads8 1840) s).therm.runs z 0) = some 0 ∧
       ∀ z, z < 5 → nth (sampledOnce (reads8 1839) s).therm.runs z 0 < 2) ∧
    (let s := warmed 0 true
     s.aon.thermLatch = true ∧ s.boot.thermalOk = true ∧ (∀ z, z < 5 → nth (sampledOnce (reads8 1440) s).therm.runs z 0 < 2) ∧
       hot (offAt 0) (zoneNow (sampledOnce (reads8 1440) s) 0) = true ∧ (∀ z, z < 5 → nth (sampledOnce (reads8 1439) s).therm.runs z 0 < 2) ∧
       ∀ z, z < 5 → hot (offAt z) (zoneNow (sampledOnce (reads8 1439) s) z) = false) ∧
    Shaped (warmed 1 false) ∧ Shaped (warmed 0 true) := by
  refine ⟨?_, ?_, shaped_warmed _ _, shaped_warmed _ _⟩ <;> decide +kernel

def atStep (k : Nat) (z : Int) : State :=
  { up with therm := { State.therm0 with step := [k, 0, 0], zones := [some z, some z, some z, none, none] } }

def thermal1 : ThermalSec :=
  { diode0 := false, diode1 := false, ideal := [0, 0], stepMs := 1000, trendS := 0, duty := [75, 50, 25], credit := [75, 50, 25],
    comp := List.replicate 5 (List.replicate 16 0) }

def heat1 : HeatRec := .thermal 0 0 0 [] 0 0 0
def job (w : FlashWhat) : FlashJob := { bank := 0, what := w, other := false }
def shut1 : Shutdown := { source := 0, grace := true, waited := true, susp := false }

/-- A step rises from 95 °C on and falls below 90 °C. -/
theorem wit_ThrottlingAndCompensation :
    (stepNow (atStep 2 1520) .die = 2 ∧ stepHot (atStep 2 1520) .die = true ∧ stepHot (atStep 1 1439) .die = false ∧ stepCool (atStep 1 1439) .die = true ∧
      stepHot (atStep 1 1440) .die = false ∧ stepCool (atStep 1 1440) .die = false ∧ stepNow (atStep 0 0) .die = 0) ∧
    (∀ k, k < 4 → Shaped (atStep k 0)) ∧ (5 ≤ up.boot.phase ∧ up.ps.state ≤ 1) ∧
    (let j := job (.heat heat1)
     let s := { up with therm := { State.therm0 with shut := some shut1 }, rf := { up.rf with queue := [j] } }
     s.therm.shut = some shut1 ∧ shut1.waited = true ∧ s.rf.queue = j :: [] ∧ j.what = .heat heat1 ∧ j.bank < 2 ∧ s.boot.gates = true ∧
       s.safe.noSpill = false ∧ 3 ≤ s.jrnl.state ∧ s.jrnl.state ≠ 5 ∧ s.jrnl.waiting = [] ∧ headWaits s = false ∧
       gateDriven s.hly.breaker = true) ∧
    (∀ c, up.hly.breaker ≠ .holdup c) ∧
    (let s := { up with prm := { up.prm with thermal := some thermal1 } }
     s.boot.hostReady = true ∧ s.ps.state ≠ 4 ∧ s.prm.thermal = some thermal1 ∧ Shaped s) ∧
    (up.boot.clkRef = false ∧ { up.boot with clkRef := true }.clkRef = true ∧ 300 < (301 : Int).natAbs ∧ (-300 : Int).natAbs ≤ 300) := by
  refine ⟨?_, ?_, ?_, ?_, ?_, ⟨?_, ?_, ?_, ⟨shaped_up.1, rfl, rfl, shaped_up.4, rfl, rfl⟩⟩, ?_⟩
  · decide +kernel
  · intro k hk
    refine ⟨shaped_up.1, rfl, rfl, ⟨rfl, ?_⟩, rfl, rfl⟩
    show ∀ j ∈ [k, 0, 0], j ≤ 3
    intro j hj
    simp at hj
    omega
  · decide +kernel
  · decide +kernel
  · intro c; exact Breaker.noConfusion
  · decide +kernel
  · decide +kernel
  · decide +kernel
  · decide +kernel

def degrading : State :=
  let s := laid 1 0 (freshLink 0)
  { s with prm := { s.prm with namespaces := [{ ns1 with layout := 1, degrade := true }] } }

theorem wit_TieOffAndStaleCopies :
    (let s := wired (upLink 0)
     (∃ s1, InOrder s frm1 (msgOf 0x03 head0 (4 + 256 * 0x21) .none) s1) ∧ s.braid.asks = []) ∧
    (let s := degrading
     linkBy s .a 0 = some (freshLink 0) ∧ nsOf s 1 = some { ns1 with layout := 1, degrade := true } ∧
       (s.boot.hostReady && true && isMirror (nsLayout s 1) && isHome s 1 && has (others s (nsLayout s 1)) 0 && !peerUp s 0 && !isStale s 0 1 &&
         degradeCounts s .a (freshLink 0)) = true ∧ spliceOf s 1 = none) ∧
    (let s := wired (upLink 0)
     linkBy s .a 0 = some (upLink 0) ∧ nsOf s 1 = some ns1 ∧ ns1.degrade = false) := by
  refine ⟨⟨accepted _ _ 0 ?_ ?_ ?_ ?_ ?_ ?_, ?_⟩, ?_, ?_⟩ <;> decide +kernel

theorem wit_Diagnostics :
    (lanyardRuns up = true ∧ 29 < 30 ∧ sourceMasked up 29 = false ∧ clockWatched up 13 = true ∧ clockWatched up 14 = false ∧ 13 ≠ 11 ∧
      offTolerance up 94 100 = true ∧ offTolerance up 95 100 = false ∧ nth up.safe.windows 13 0 = 0 ∧ up.safe.stopper = false) ∧
    (let s := { up with safe := { up.safe with windows := List.replicate 14 1, stopper := true } }
     lanyardRuns s = true ∧ clockWatched s 13 = true ∧ 1 ≤ nth s.safe.windows 13 0 ∧ s.safe.stopper = true) ∧
    (lanyardRuns (inState 2) = true ∧ sourceMasked (inState 2) 0 = true) ∧
    (List.range 8).filter (has []) = [] ∧ (List.range 8).filter (has [7]) = [7] := by
  and_intros <;> decide +kernel

theorem wit_StopperHaltAndOrders :
    (let s := { withJ with safe := { up.safe with stopper := true } }
     s.safe.stopper = true ∧ s.safe.halted = false ∧ s.media.progs = [] ∧ s.media.erases = [] ∧ s.safe.noSpill = false ∧ s.flush = none ∧
       s.therm.shut = none ∧ spillOrder s ≠ [] ∧ bar2Open s .a = true ∧ smbAlive s = true ∧ stopCode 0xA5C3#32 = true ∧ stopCode 0xA5C4#32 = false ∧
       s.aon.stopResets < 3) ∧
    (let s := { up with safe := { up.safe with stopper := true } }
     s.safe.stopper = true ∧ s.safe.noSpill = false ∧ spillOrder s = [] ∧ intentOpen s = false) ∧
    (let s := { up with safe := { up.safe with stopper := true, noSpill := true } }
     s.safe.stopper = true ∧ s.safe.halted = false ∧ s.media.progs = [] ∧ s.media.erases = [] ∧ s.safe.noSpill = true ∧ spillOrder s = []) ∧
    (let s := { pool with safe := { up.safe with stopper := true }, media := { pool.media with progs := [prog1] } }
     s.safe.stopper = true ∧ ∃ p ∈ s.media.progs, p.run.issued = true) ∧
    (let s := { up with prm := { up.prm with safety := { State.safety0 with stopHoldS := 10 } } }
     s.safe.stopper = false ∧ s.prm.safety.stopHoldS ≠ 0 ∧ up.prm.safety.stopHoldS = 0) := by
  and_intros <;> decide +kernel

/-! ### SMBus, BAR2, record flash, and the forms that every step keeps -/

def window (block offset : Nat) (s : State) : State := { s with smb := { s.smb with block := block, offset := offset } }

/-- The clauses of an SMBus register write meet where the window leaves blocks 0, 10 and 15. -/
theorem wit_SmbusSideband :
    smbAlive State.reset = false ∧ smbAlive up = true ∧ 15 < 16 ∧ 15 < 16 ∧
    (smbAlive (window 1 0 up) = true ∧ windowAt (window 1 0 up) / 65536 ∉ [0, 10, 15]) ∧
    (smbAlive (window 0 0x34 up) = true ∧ windowAt (window 0 0x34 up) = 0x34) ∧
    (smbAlive (window 15 0x3C up) = true ∧ windowAt (window 15 0x3C up) = 0xF0000 + 4 * (15 : Fin 16).val) ∧
    (let s := { up with evt := { up.evt with smbAlert := true } }
     smbAlive s = true ∧ s.evt.smbAlert = true) ∧ up.evt.smbAlert = false ∧ up.pwr.railsOk = true ∧ (inState 2).ps.state ≤ 2 ∧
    2 < (inState 3).ps.state ∧ (inState 3).ps.state ≠ 4 ∧
    (let s := { up with smb := { up.smb with fails := 1 } }
     s.smb.off = false ∧ s.pwr.railsOk = true ∧ s.ps.state ≠ 4 ∧ s.smb.fails < 2) ∧
    (let s := { up with smb := { up.smb with fails := 2 } }
     s.smb.off = false ∧ s.pwr.railsOk = true ∧ s.ps.state ≠ 4 ∧ 2 ≤ s.smb.fails) := by
  and_intros <;> decide +kernel

theorem wit_RegistersThroughBar2 :
    bar2Open up .a = true ∧ ¬ (4 = 4 ∧ 2 % 4 = 0) ∧ ¬ (2 = 4 ∧ 4 % 4 = 0) ∧ 0x30028 % 4 = 0 ∧
    (latchPairs.find? (fun x => x.1 = 0x1FFFC || x.2 = 0x1FFFC) = none ∧ 0x1FFFC < 0x20000) ∧ (0x100000 ≤ 0xFFFFFC ∧ 0xFFFFFC < 0x1000000) ∧
    (0x1000000 ≤ 0x1FFFFFC ∧ 0x1FFFFFC < 0x2000000) ∧ (0xD0000 < 0x1000000 ∧ 0xD0000 / 65536 ∈ [2, 4, 13]) ∧
    ((rwsSection 0x90018).isSome = true ∧ 0x90018 % 4 = 0) ∧
    (up.boot.sealed = false ∧ up.boot.hostOk = true ∧ level up = 0 ∧ (rwsTake up.prm 0x90018 10).isSome = true ∧
      (rwsTake up.prm 0x90018 10000).isSome = true ∧ rwsTake up.prm 0x90018 9 = none ∧ rwsTake up.prm 0x90018 10001 = none) ∧
    (let s := { up with boot := { up.boot with sealed := true } }
     ¬ (s.boot.sealed = false ∧ s.boot.hostOk = true ∧ level s = 0)) := by
  and_intros <;> decide +kernel

def working (j : FlashJob) : State := { up with rf := { up.rf with busy := #v[some j, none] } }
def queued (j : FlashJob) : State := { up with rf := { up.rf with queue := [j] } }
def entry1 : Entry := { g := 0, bit := 1, rep := 0, queued := false, seq := 0, secs := 0, subsec := 0, powerOn := 1, arg0 := 0, arg1 := 0 }

theorem wit_RecordFlashWork :
    (let j := job (.eraseSector 2046)
     (working j).rf.busy[(0 : Fin 2)] = some j ∧ j.bank = (0 : Fin 2).val ∧ isErase j.what = true ∧ (working j).rf.busy[(1 : Fin 2)] = none) ∧
    (let j := job (.page (4096 * 271) [1#8])
     (working j).rf.busy[(0 : Fin 2)] = some j ∧ j.bank = (0 : Fin 2).val ∧ isErase j.what = false) ∧
    (let s := { up with evt := { up.evt with queue := [entry1] }, rf := { up.rf with ready := [0] } }
     nextEntry s.evt.queue = some entry1 ∧ logOpen s = true ∧ s.boot.release = none) ∧
    (let s := { up with evt := { up.evt with queue := [entry1, entry1] }, rf := { up.rf with ready := [0] },
                        boot := { up.boot with release := some ([], 2), genGood := 0 } }
     logOpen s = true ∧ s.boot.release = some ([], 2) ∧ 1 < 2 ∧ 1 < s.evt.queue.length) ∧
    (let s := { up with evt := { up.evt with queue := [entry1] }, rf := { up.rf with ready := [0] },
                        boot := { up.boot with release := some ([], 1), genGood := 0 } }
     logOpen s = true ∧ s.boot.release = some ([], 1) ∧ s.evt.queue ≠ [] ∧ s.boot.genGood < s.boot.genUsed ∧ s.rf.banks[0].header = none ∧
       s.rf.banks[1].header = none) ∧
    up.evt.queue = [] ∧ logOpen (queued (job (.entry 0 entry1))) = false ∧ (mayRefresh up = true ∧ 2046 < 2047) ∧ up.rf.queue = [] ∧
    (let j := job (.refresh 2046 0)
     (queued j).rf.queue = [j] ∧ (queued j).rf.busy = Vector.replicate 2 none ∧ j.bank < 2 ∧ isErase j.what = true ∧ ownErase j.what = true ∧
       outwardOpen (queued j) = true) ∧
    (let j := job (.eraseSector 270)
     (queued j).rf.queue = [j] ∧ isErase j.what = true ∧ ownErase j.what = true ∧ ownErase (.eraseSector 271) = false) := by
  and_intros <;> decide +kernel

def levelled (n : Nat) : State :=
  { up with rf := { up.rf with banks := #v[{ State.bank0 with level := [{ type := 0x4C, arg := n, arg2 := 0, seq := 1, gen := 0, secs := 0 }] }, State.bank0] } }

/-- RECF_CMD's clauses meet at sectors 270, 271, 2046 and 2047. -/
theorem wit_RecordFlashHost :
    (level (levelled 2) = 2 ∧ tapInstr { levelled 2 with tap := { State.tap0 with instr := .other 5 } } = .bypass ∧ level (levelled 1) ≠ 2 ∧
      { State.tap0 with state := .irUpdate }.state = .irUpdate) ∧
    (let j := job (.eraseSector 271)
     windowFaults (working j) 0 = true ∧ windowFaults (working j) 0x800000 = true ∧ windowFaults up 0 = false ∧ levelHides (level up) 0x2000 = false ∧
       windowFaults (levelled 1) 0x2000 = false ∧ levelHides (level (levelled 1)) 0x7000 = false ∧ levelHides (level (levelled 1)) 0x6FFF = true) ∧
    (bit 0x7FFFFFFF 31 = false ∧ field 0x80000003 1 0 ≠ 1 ∧ field 0x80000003 1 0 ≠ 2) ∧
    (bit 0x80000001 31 = true ∧ field 0x80000001 1 0 = 1 ∧ field 0x80000002 1 0 = 2) ∧
    (cmdRefusal up 1 0 270 0 = some 2 ∧ cmdRefusal up 1 0 271 0 = none ∧ cmdRefusal up 2 1 2046 0 = none ∧ cmdRefusal up 2 1 2047 0 = some 2 ∧
      cmdRefusal (levelled 1) 2 0 271 0 = none ∧ cmdRefusal (levelled 2) 2 0 271 0 = some 1) ∧
    ((3 : Word).toNat % 4 = 3 ∧ (1 : Word).toNat % 4 = level (levelled 1)) ∧
    ((2 : Word).toNat % 4 ≠ 3 ∧ level (levelled 1) < (2 : Word).toNat % 4 ∧ (levelled 1).rf.lstate = 0) ∧
    ((0 : Word).toNat % 4 < level (levelled 1) ∧ (0 : Word).toNat / 65536 ≠ 0xE5A5) ∧
    ((0xE5A50000#32 : Word).toNat % 4 < level (levelled 1) ∧ (0xE5A50000#32 : Word).toNat / 65536 = 0xE5A5 ∧ (levelled 1).safe.stopper = false ∧
      (levelled 1).stage = none ∧ bar2Open (levelled 1) .a = true) ∧
    ((0x80000001#32 : Word).getLsbD 31 = true ∧ (0x80000001#32 : Word).getLsbD 1 = false ∧ (0x80000002#32 : Word).getLsbD 1 = true ∧ up.rf.lstate = 0) := by
  and_intros <;> decide +kernel

/-- The last bit of a segment and the first bit after the seed; unit 0 on page 0, and a place whose seed would be 0; the least M. -/
theorem wit_ScramblerAndCode :
    ((511 : Nat) < 512 ∧ 23 - 1 < 23 ∧ ¬ (23 : Nat) < 23 ∧ 2 ^ 23 - 1 < 2 ^ 23) ∧
    ((165 * 16384 + 1234 : Nat) < 2 ^ 23 ∧ 301 * 1024 + 2 * 128 + 65 < 2 ^ 23 ∧ scrSeed (1024 + 128 + 1) 1 1 1 = 0x7FFFFF) ∧
    (65 < 66 ∧ (slotSegments 5 1 0 (emptySlot 0 0)).length = 66) ∧
    (0 < 6 ∧ isCodeword 6 [1#512, 2#512] (ldpcParity 6 [1#512, 2#512]) = true ∧ (ldpcParity 6 [1#512, 2#512]).length = 6) := by
  and_intros <;> decide +kernel

theorem wit_LoweringRefused :
    let v : Word := 0xE5A50001#32
    v.toNat % 4 < level (levelled 2) ∧ v.toNat / 65536 = 0xE5A5 ∧
    (let s := { levelled 2 with safe := { up.safe with stopper := true } }
     bar2Open s .a = true ∧ v.toNat % 4 < level s ∧ s.safe.stopper = true) ∧
    (let s := { levelled 2 with rf := { (levelled 2).rf with lstate := 1 } }
     bar2Open s .a = true ∧ v.toNat % 4 < level s ∧ s.rf.lstate ≠ 0) ∧
    (let s := { levelled 2 with stage := some { owner := .b, next := 0, length := 4096, last := none } }
     bar2Open s .a = true ∧ v.toNat % 4 < level s ∧ s.stage.isSome = true) := by
  and_intros <;> decide +kernel

def ticking : State := { up with pending := [.smbusIdleTimeout] }

theorem wit_FormsKept :
    (∀ b : Fin 2, Memory.wf ticking.rf.banks[b].cust = true) ∧ NamesNew ticking ∧ FusedWait ticking ∧ Shaped ticking ∧ ∃ t, step ticking = .next t :=
  ⟨by decide +kernel, (names_new ticking rfl rfl).1, (names_new ticking rfl rfl).2, ⟨shaped_up.1, rfl, rfl, shaped_up.4, rfl, rfl⟩, _, rfl⟩

/-! ### Bytes of the stores and of the wire -/

/-- The worked decode of 08: the seed of segment 65 of slot 2 on page 301 of unit 1234 of die 165. -/
theorem test_scrambler_seed : scrSeed (165 * 16384 + 1234) 301 2 65 = 0x2DF193 := by decide +kernel

/-- Its first eight keystream bytes: 93 F1 2D 4C D1 8C 57 22. -/
theorem test_keystream : keyBits 64 0x2DF193 = 0x22578CD14C2DF193 := by decide +kernel

/-- Its metadata begins 03 00 00 00 00 10 02 00. -/
theorem test_metadata_bytes :
    (metaBytes { emptySlot 2 7 with nsid := 3, kind := 0, hostMeta := true }).take 8 = [3#8, 0#8, 0#8, 0#8, 0#8, 0x10#8, 2#8, 0#8] := by
  decide +kernel

/-- The header fields that the worked decode of 08 reads: MAGIC, VERSION, COPY, ROLE, CELL, UNIT_ADDR, M, CW_BYTES and D. -/
theorem test_header_bytes :
    let g : Geometry := { geo State.reset with s := 4, ldpcM := 8 }
    let h := mkHeader State.reset 2 0 (165 * 16384 + 1234) 1 (some 0) (layout0 State.reset) 15 0 [] none
    let b := headerBody g (165 * 16384 + 1234) h 0
    sub b 0 8 = [0x42#8, 0x52#8, 0x4D#8, 0x4E#8, 1#8, 0#8, 2#8, 0#8] ∧ sub b 0x2C 4 = [0xD2#8, 0x44#8, 0x29#8, 0#8] ∧
    sub b 0x49 1 = [8#8] ∧ sub b 0x52 2 = [0x80#8, 0x12#8] ∧ sub b 0x70 1 = [0x0F#8] := by
  decide +kernel

/-- The parity segments make a codeword of 08 R228, and a changed bit does not. -/
theorem test_ldpc_codeword :
    let us : List Segment := (List.range 66).map (fun j => BitVec.ofNat 512 (3 ^ (300 - j)))
    isCodeword 8 us (ldpcParity 8 us) = true ∧ isCodeword 8 (modAt us 5 (fun v => v ^^^ 1#512)) (ldpcParity 8 us) = false := by
  decide +kernel

/-- The worked case of 16 R439: half periods of 12, 11 and 10 ns at 45, 46 and 50 MHz. -/
theorem test_spi_period : [45, 46, 50].map spiPeriod = [24, 22, 20] := by decide

/-- x^13 = x^4 + x^3 + x + 1 in the field of the header code. -/
theorem test_bch_field : bchMul 0x1000 2 = 0x1B := by decide +kernel

/-- An NS_STATE record: TYPE 0x0D, RECNO at 4, NSID at 0x14, WP at 0x18, 64 bytes. -/
theorem test_record_bytes :
    let b := recBytes { recno := 5, gseq := 9, carried := true, replayed := false, ctrl2 := true, body := .nsState 3 1 }
    b.length = 64 ∧ b.take 6 = [0x0D#8, 5#8, 0#8, 0#8, 5#8, 0#8] ∧ sub b 0x14 5 = [3#8, 0#8, 0#8, 0#8, 1#8] := by
  decide +kernel

/-- An ACK frame's MAC client data is 46 bytes long; VER 1 and TYPE 1 lead. -/
theorem test_ack_frame :
    let b := clientData State.reset .a 5#24 [1, 2, 3, 4] .ack
    b.length = 46 ∧ b.take 16 = [0x11#8, 0#8, 0#8, 0#8, 0#8, 0#8, 0#8, 5#8, 0#8, 0#8, 1#8, 0x20#8, 0#8, 3#8, 0x40#8, 0#8] := by
  decide +kernel

/-- The wake pattern of address 0x05. -/
theorem test_wake_pattern : wakePattern 5 =
    [true, true, true, true, true, true, true, false, true, false, true, false, false, false, false, false,
     false, true, false, true, true, true, true, true] := by decide +kernel

end Sys2Proof.Tests
end

section
/-! PROOF. The scrambler and the LDPC code (08 R225, R226, R228): the bits of the window that makes the keystream, the parity segments in closed form, and the
solution of the row equations. -/

namespace Sys2Proof.Machine

open Sys2Proof

/-! ### The keystream (08 R225) -/

theorem scrNext_lt {w : Nat} (hw : w < 2 ^ 23) : scrNext w < 2 ^ 23 := by
  unfold scrNext
  split <;> omega

theorem scrNext_iterate_lt {w : Nat} (hw : w < 2 ^ 23) (n : Nat) : scrNext^[n] w < 2 ^ 23 := by
  induction n with
  | zero => exact hw
  | succ n ih => rw [Function.iterate_succ_apply']; exact scrNext_lt ih

/-- Below its top bit the moved window is the window, one bit further. -/
theorem testBit_scrNext_of_lt {i : Nat} (hi : i < 22) (w : Nat) : (scrNext w).testBit i = w.testBit (i + 1) := by
  unfold scrNext
  split
  · rw [Nat.add_comm, Nat.testBit_two_pow_add_gt hi, Nat.testBit_div_two]
  · rw [Nat.add_zero, Nat.testBit_div_two]

/-- The bit that enters at the top is a_n = a_(n-5) XOR a_(n-23). -/
theorem testBit_scrNext_top {w : Nat} (hw : w < 2 ^ 23) : (scrNext w).testBit 22 = (w.testBit 18 ^^ w.testBit 0) := by
  have hout : (w / 2).testBit 22 = false := Nat.testBit_lt_two_pow (by omega)
  unfold scrNext
  split
  case isTrue hbits =>
    rw [Nat.add_comm, Nat.testBit_two_pow_add_eq, hout]
    simpa using hbits
  case isFalse hbits =>
    rw [Nat.add_zero, hout]
    simpa using hbits

/-- Bit i of the window after n moves is bit n + i of the first window, while both lie within the 23. -/
theorem testBit_scrNext_iterate (n : Nat) {i : Nat} (hi : n + i < 23) (w : Nat) : (scrNext^[n] w).testBit i = w.testBit (n + i) := by
  induction n generalizing w with
  | zero => simp
  | succ n ih =>
    rw [Function.iterate_succ_apply, ih (by omega), testBit_scrNext_of_lt (by omega), Nat.add_right_comm]

/-- Bit t of the keystream is the lowest bit of the window after t moves. -/
theorem testBit_keyBits {n t : Nat} (ht : t < n) (w : Nat) : (keyBits n w).testBit t = (scrNext^[t] w).testBit 0 := by
  induction n generalizing t w with
  | zero => omega
  | succ n ih =>
    unfold keyBits
    cases t with
    | zero => simp [Nat.testBit_zero]
    | succ t =>
      have hrest : (w % 2 + 2 * keyBits n (scrNext w)) / 2 = keyBits n (scrNext w) := by omega
      rw [Nat.testBit_succ, hrest, ih (by omega), Function.iterate_succ_apply]

theorem testBit_keyBits_seed {n t : Nat} (ht : t < n) (h23 : t < 23) (seed : Nat) : (keyBits n seed).testBit t = seed.testBit t := by
  rw [testBit_keyBits ht, testBit_scrNext_iterate t (by omega), Nat.add_zero]

/-- With w the window after t moves, bit t + 23 enters at the top of w's successor, and leaves it 22 moves later. -/
theorem testBit_keyBits_recurrence {n t seed : Nat} (ht : t + 23 < n) (hseed : seed < 2 ^ 23) :
    (keyBits n seed).testBit (t + 23) = ((keyBits n seed).testBit (t + 18) ^^ (keyBits n seed).testBit t) := by
  have window (k : Nat) (hk : t + k < n) : (keyBits n seed).testBit (t + k) = (scrNext^[k] (scrNext^[t] seed)).testBit 0 := by
    rw [testBit_keyBits hk, Nat.add_comm, Function.iterate_add_apply]
  have hw := scrNext_iterate_lt hseed t
  generalize scrNext^[t] seed = w at window hw
  calc (keyBits n seed).testBit (t + 23)
      = (scrNext^[22] (scrNext w)).testBit 0 := window 23 ht
    _ = (w.testBit 18 ^^ w.testBit 0) := by rw [testBit_scrNext_iterate 22 (by omega), testBit_scrNext_top hw]
    _ = ((keyBits n seed).testBit (t + 18) ^^ (keyBits n seed).testBit t) := by
        rw [window 18 (by omega), testBit_scrNext_iterate 18 (by omega)]
        exact congrArg (w.testBit 18 ^^ ·) (window 0 (by omega)).symm

/-! ### Scrambling (08 R225, R226) -/

theorem getLsbD_scramble (seed : Nat) {t : Nat} (ht : t < 512) (v : Segment) :
    (scramble seed v).getLsbD t = (v.getLsbD t ^^ (keyBits 512 seed).testBit t) := by
  rw [scramble, BitVec.getLsbD_xor, BitVec.getLsbD_ofNat, decide_eq_true ht, Bool.true_and]

theorem scramble_scramble (seed : Nat) (v : Segment) : scramble seed (scramble seed v) = v := by
  simp [scramble]

/-- Within 23 bits of address and place the seed is their XOR, and its replacement stands where they are equal. -/
theorem scrSeed_of_lt {addr page slot seg : Nat} (ha : addr < 2 ^ 23) (hp : page * 1024 + slot * 128 + seg < 2 ^ 23) :
    scrSeed addr page slot seg = if addr = page * 1024 + slot * 128 + seg then 0x7FFFFF else addr ^^^ (page * 1024 + slot * 128 + seg) := by
  unfold scrSeed
  rw [Nat.mod_eq_of_lt ha, Nat.mod_eq_of_lt hp]
  simp only [Nat.xor_eq_zero_iff]

theorem slotSegments_getElem? (addr page slot : Nat) {k : Nat} (hk : k < 66) (x : Slot) :
    (slotSegments addr page slot x)[k]? = some (scramble (scrSeed addr page slot k) (segOf (((infoPart x).drop (64 * k)).take 64))) := by
  simp [slotSegments, sub, hk]

/-! ### Row sums and parity segments (08 R228) -/

theorem getLsbD_segShift {s t : Nat} (hs : s < 512) (ht : t < 512) (v : Segment) : (segShift s v).getLsbD t = v.getLsbD ((t + s) % 512) := by
  rw [segShift, BitVec.getLsbD_rotateRight, Nat.mod_eq_of_lt hs]
  by_cases hwrap : t < 512 - s
  · rw [Nat.mod_eq_of_lt (by omega)]
    simp [hwrap, Nat.add_comm]
  · have hmod : (t + s) % 512 = t - (512 - s) := by omega
    simp [hwrap, ht, hmod]

theorem has_iff_mem (l : List Nat) (n : Nat) : has l n = true ↔ n ∈ l := by
  simp [has]

@[simp] theorem rowSum_nil (m i : Nat) : rowSum m i [] = 0#512 := rfl

theorem rowSum_concat (m i : Nat) (us : List Segment) (u : Segment) :
    rowSum m i (us ++ [u]) = rowSum m i us ^^^ (if i ∈ ldpcRows m us.length then segShift (ldpcShift i us.length) u else 0#512) := by
  simp only [rowSum, List.zipIdx_append, List.foldl_append, has_iff_mem]
  by_cases hrow : i ∈ ldpcRows m us.length <;> simp [hrow]

/-- Parity segment i by the recurrence of 08 R228. -/
def paritySeg (m : Nat) (us : List Segment) : Nat → Segment
  | 0 => rowSum m 0 us
  | i + 1 => rowSum m (i + 1) us ^^^ paritySeg m us i

/-- The list that the encoder's fold builds is the parity segments, the last one first. -/
theorem ldpcParity_eq_map (m : Nat) (us : List Segment) : ldpcParity m us = (List.range m).map (paritySeg m us) := by
  have hfold (n : Nat) : (List.range n).foldl (fun acc i => (rowSum m i us ^^^ acc.headD 0#512) :: acc) [] =
      ((List.range n).map (paritySeg m us)).reverse := by
    induction n with
    | zero => rfl
    | succ n ih =>
      rw [List.range_succ, List.foldl_append, ih]
      cases n with
      | zero => simp [paritySeg]
      | succ n => simp [List.range_succ, paritySeg]
  rw [ldpcParity, hfold, List.reverse_reverse]

@[simp] theorem ldpcParity_length (m : Nat) (us : List Segment) : (ldpcParity m us).length = m := by
  simp [ldpcParity_eq_map]

theorem ldpcParity_getElem? {m i : Nat} (hi : i < m) (us : List Segment) : (ldpcParity m us)[i]? = some (paritySeg m us i) := by
  simp [ldpcParity_eq_map, hi]

theorem codeword_eq_append (m addr page slot : Nat) (x : Slot) : codeword m addr page slot x =
    (slotSegments addr page slot x).flatMap segBytes ++ (ldpcParity m (slotSegments addr page slot x)).flatMap segBytes :=
  List.flatMap_append

/-! ### The codeword test (08 R228) -/

theorem isCodeword_iff (m : Nat) (us ps : List Segment) : isCodeword m us ps = true ↔ ∀ i < m, checkRow m i us ps = 0#512 := by
  simp [isCodeword]

theorem checkRow_zero_eq_zero_iff (m : Nat) (us ps : List Segment) : checkRow m 0 us ps = 0#512 ↔ nth ps 0 0#512 = paritySeg m us 0 := by
  rw [checkRow, if_pos rfl, BitVec.xor_zero, BitVec.xor_eq_zero_iff, paritySeg, eq_comm]

/-- A row above 0 that sums to zero gives its parity segment from the one before. -/
theorem checkRow_succ_eq_zero_iff (m i : Nat) (us ps : List Segment) :
    checkRow m (i + 1) us ps = 0#512 ↔ nth ps (i + 1) 0#512 = rowSum m (i + 1) us ^^^ nth ps i 0#512 := by
  rw [checkRow, if_neg (Nat.succ_ne_zero i), Nat.add_sub_cancel, BitVec.xor_assoc, BitVec.xor_comm (nth ps (i + 1) 0#512),
    ← BitVec.xor_assoc, BitVec.xor_eq_zero_iff, eq_comm]

/-- The row equations have one solution, found from row 0 upwards. -/
theorem isCodeword_iff_nth (m : Nat) (us ps : List Segment) : isCodeword m us ps = true ↔ ∀ i < m, nth ps i 0#512 = paritySeg m us i := by
  rw [isCodeword_iff]
  constructor
  · intro hrows i hi
    induction i with
    | zero => exact (checkRow_zero_eq_zero_iff m us ps).mp (hrows 0 hi)
    | succ i ih => rw [(checkRow_succ_eq_zero_iff m i us ps).mp (hrows (i + 1) hi), ih (by omega), paritySeg]
  · intro hps i hi
    cases i with
    | zero => exact (checkRow_zero_eq_zero_iff m us ps).mpr (hps 0 hi)
    | succ i => rw [checkRow_succ_eq_zero_iff, hps (i + 1) hi, hps i (by omega), paritySeg]

/-- Of the words with these information segments only the encoded one is a codeword. -/
theorem isCodeword_iff_eq_ldpcParity {m : Nat} (us : List Segment) {ps : List Segment} (hlen : ps.length = m) :
    isCodeword m us ps = true ↔ ps = ldpcParity m us := by
  rw [isCodeword_iff_nth, ldpcParity_eq_map]
  constructor
  · intro hps
    refine List.ext_getElem (by simp [hlen]) fun i hi _ => ?_
    simpa [nth, hi] using hps i (hlen ▸ hi)
  · rintro rfl i hi
    simp [nth, hi]

/-- Settles O54: the keystream's window, the recurrence of the parity segments, and the row equations solved from row 0 upwards. -/
theorem scramblerAndCode : Obligations.ScramblerAndCode := by
  unfold Obligations.ScramblerAndCode
  refine ⟨?keystream, fun seed _ v ht => getLsbD_scramble seed ht v, scramble_scramble, fun _ _ _ _ => scrSeed_of_lt,
    fun addr page slot _ x hk => slotSegments_getElem? addr page slot hk x, fun _ _ v hs ht => getLsbD_segShift hs ht v,
    fun m i us u => ⟨rowSum_nil m i, rowSum_concat m i us u⟩, codeword_eq_append, isCodeword_iff, ?parity⟩
  case keystream =>
    intro seed n hn hseed
    split
    case isTrue h23 => exact testBit_keyBits_seed hn h23 seed
    case isFalse h23 =>
      obtain ⟨t, rfl⟩ : ∃ t, n = t + 23 := ⟨n - 23, by omega⟩
      exact testBit_keyBits_recurrence hn hseed
  case parity =>
    intro m us hm
    exact ⟨ldpcParity_length m us, ldpcParity_getElem? hm us,
      fun i hi => ⟨_, _, ldpcParity_getElem? (by omega) us, ldpcParity_getElem? hi us, rfl⟩,
      fun _ hlen => isCodeword_iff_eq_ldpcParity us hlen⟩

end Sys2Proof.Machine
end

section
/-! PROOF. What a confirmed write of LEVEL_CTRL that asks for a lowering does while none may begin (13 R373), by each of the commands that write the register. -/

namespace Sys2Proof.Machine

open Sys2Proof

/-- A record that names a level above 2 is taken as naming 2 (13 R369). -/
theorem level_le_two (s : State) : level s ≤ 2 := by
  unfold level
  cases newestRec (levelRecs s) with
  | none => exact Nat.zero_le 2
  | some r =>
    dsimp only
    split
    case isTrue hraise => exact Nat.min_le_right r.arg 2
    case isFalse hlower => split <;> omega

/-- The guards before R373's leave a confirmed write with a lower NEW_LEVEL: no level is above 2, so it does not ask for the unnamed level 3. -/
theorem levelCtrl_refused {s : State} {v : Word} (hlower : v.toNat % 4 < level s) (hconfirm : v.toNat / 65536 = 0xE5A5)
    (hbusy : s.safe.stopper = true ∨ s.rf.lstate ≠ 0 ∨ s.stage.isSome = true) :
    levelCtrl v s = { s with rf := { s.rf with lowRefused := true } } := by
  have hnamed : ¬ (v.toNat % 4 = 3 ∨ v.toNat % 4 = level s) := by
    have := level_le_two s
    omega
  unfold levelCtrl
  rw [if_neg hnamed, if_neg (Nat.lt_asymm hlower), if_neg (not_not_intro hconfirm), if_pos hbusy]
  rfl

/-- LEVEL_CTRL stands at 0x0004 of block RECF, and is no RWS register. -/
theorem hostWrite_levelCtrl (v : Word) (s : State) : hostWrite 0xC0004 v s = levelCtrl v s := by
  have hrws : (rwsSection 0xC0004).isSome = false := by decide
  simp [hostWrite, writeRecf, hrws]

theorem exec_levelLower_of_open {s : State} {p : Port} (hopen : bar2Open s p = true) (v : Word) :
    exec (.levelLower p v) s = .next (levelCtrl v s) := if_pos hopen

theorem exec_levelRaise_of_open {s : State} {p : Port} (hopen : bar2Open s p = true) (v : Word) :
    exec (.levelRaise p v) s = .next (levelCtrl v s) := if_pos hopen

/-- A register write to LEVEL_CTRL is the rows LEVEL_RAISE and LEVEL_LOWER under another name. -/
theorem exec_registerWrite_levelCtrl {s : State} {p : Port} (hopen : bar2Open s p = true) (v : Word) :
    exec (.registerWrite p 0xC0004 v) s = .next (levelCtrl v s) := by
  calc exec (.registerWrite p 0xC0004 v) s
      = execRegisterWrite p 0xC0004 v s := rfl
    _ = .next (hostWrite 0xC0004 v s) := by simp [execRegisterWrite, hopen]
    _ = .next (levelCtrl v s) := by rw [hostWrite_levelCtrl]

/-- Settles O55: each of the three commands writes LEVEL_CTRL, and the write is refused. -/
theorem loweringRefused : Obligations.LoweringRefused := by
  unfold Obligations.LoweringRefused
  intro s p v hopen hlower hconfirm hbusy c hc
  have hexec : exec c s = .next (levelCtrl v s) := by
    simp only [List.mem_cons, List.not_mem_nil, or_false] at hc
    obtain rfl | rfl | rfl := hc
    · exact exec_levelLower_of_open hopen v
    · exact exec_levelRaise_of_open hopen v
    · exact exec_registerWrite_levelCtrl hopen v
  exact ⟨levelCtrl v s, hexec, levelCtrl_refused hlower hconfirm hbusy⟩

end Sys2Proof.Machine
end
